-- ==== Sys2Proof/Word.lean ====
section
/-! DEFINITION. The word types of the model and the shape of its sparse tables. -/

namespace Sys2Proof

/-- One byte (03_number_formats.md R49: every multi-byte value is little-endian bytes). -/
abbrev Byte := BitVec 8

/-- A register, a descriptor word, a drawer word: 64 bits (00_scope.md R11). -/
abbrev Word := BitVec 64

/-- One vector lane or one tile element: 32 bits (04_benches.md R86). -/
abbrev Lane := BitVec 32

/-- A sparse table: pairs of a key and a value, keys strictly rising. A key that is not listed
has the table's own default, which each table's accessor names. -/
abbrev Tab (α : Type) := List (Nat × α)

/-- Memory: a sparse table of bytes, in the canonical form of `Mem.wf`. -/
abbrev Mem := List Host.Cell

end Sys2Proof
end

