-- ==== Sys2Proof/Syntax.lean ====
section
/-! DEFINITION. The commands of the block: one constructor of `Instr` per row of
spec/opcode_table.json, with the row's operands. A command is one whole and indivisible step
(95_what_each_step_holds.md). -/

namespace Sys2Proof

/-- The three variants (00_scope.md, Table 00-1). -/
inductive Variant where
  | x | d | l
  deriving DecidableEq, Repr

/-- One hardware context of one logical bench of one stack (04_benches.md R86). -/
structure CtxId where
  stack : Nat
  bench : Nat
  ctx : Nat
  deriving DecidableEq, Repr

/-- Scalar and control format (04_benches.md Table 04-4). -/
structure SForm where
  sd : BitVec 5
  sa : BitVec 5
  sb : BitVec 5
  imm : BitVec 32
  deriving DecidableEq, Repr

/-- Memory and link format (04_benches.md Table 04-5). -/
structure MForm where
  v : BitVec 6
  sa : BitVec 5
  sb : BitVec 5
  sc : BitVec 5
  opt : BitVec 3
  sub : BitVec 4
  imm : BitVec 28
  deriving DecidableEq, Repr

/-- Vector format (04_benches.md Table 04-6). The convert instructions use it with fmt as sf,
fmt2 as df and vt as vx (03_number_formats.md Table 03-8). -/
structure VForm where
  fmt : BitVec 4
  fmt2 : BitVec 4
  rnd : BitVec 2
  ovf : Bool
  strict : Bool
  k : BitVec 4
  vd : BitVec 6
  vs : BitVec 6
  vt : BitVec 6
  vu : BitVec 6
  imm : BitVec 16
  deriving DecidableEq, Repr

/-- Array format (04_benches.md Table 04-7). -/
structure AForm where
  fa : BitVec 4
  fb : BitVec 4
  rnd : BitVec 2
  ovf : Bool
  strict : Bool
  sa : BitVec 5
  sb : BitVec 5
  sk : BitVec 5
  sc : BitVec 5
  deriving DecidableEq, Repr

/-- Who writes a register (19_register_map.md, before R546). -/
inductive Requester where
  | bar0
  | core (stack core : Nat)
  | fm
  | debug
  deriving DecidableEq, Repr

/-- One BAR0 access: its offset, its size in bytes, and for a write its value
(00_scope.md R11, R12). -/
structure BarAccess where
  write : Bool
  offset : Nat
  bytes : Nat
  value : Word
  deriving DecidableEq, Repr

/-- A register access of one requester, or the writes of several to one register in the same cycle
(19_register_map.md R546). -/
inductive RegAccess where
  | one (a : BarAccess)
  | together (a : BarAccess) (others : List (Requester × BarAccess))
  deriving DecidableEq, Repr

/-- A descriptor ring: host ring r, or device-side ring r of a stack
(07_rings_and_doorbells.md R192, 06_host_cores.md R181). -/
inductive RingId where
  | host (r : Nat)
  | dev (stack r : Nat)
  deriving DecidableEq, Repr

/-- A routed packet: the fields of Table 10-2 and the payload bytes (10_spans_and_routing.md R309). -/
structure Packet where
  dst : BitVec 16
  src : BitVec 16
  cls : BitVec 3
  vc : BitVec 2
  colour : BitVec 2
  mark : Bool
  tenant : BitVec 3
  poison : Bool
  via : BitVec 6
  nonmin : Bool
  hops : BitVec 4
  gw : BitVec 6
  op : BitVec 8
  param : BitVec 8
  offset : BitVec 48
  seq : BitVec 32
  payload : List Byte
  deriving DecidableEq, Repr

/-- A span frame: the header of Table 10-4 and its payload (10_spans_and_routing.md R311). -/
structure Frame where
  label : BitVec 16
  kind : BitVec 2
  ackreq : Bool
  epoch : BitVec 4
  tenant : BitVec 3
  payload : List Byte
  deriving DecidableEq, Repr

/-- What the far end sends to agree keys: its fresh ephemeral public key, and whether its chain and its signature verify
(17_security_and_tenancy.md R493, R494). -/
structure FarShare where
  key : List Byte
  authOk : Bool
  deriving DecidableEq, Repr

/-- A flit as the receiver sees it (14_links_and_cables.md R429, R433): its header fields and the
outcome of its FEC decoding, its CRC-32C check and its tag check. -/
structure Flit where
  /-- 0 data, 1 control; 2 and 3 are reserved (Table 14-2) -/
  kind : BitVec 2
  seq : BitVec 12
  ack : BitVec 12
  nak : Bool
  endError : Bool
  /-- payload bytes that carry traffic -/
  fill : BitVec 9
  /-- offset of the first packet or frame that begins in the payload; 0x1FF none -/
  start : BitVec 9
  creditClass : BitVec 4
  credits : BitVec 14
  /-- codewords under it that could not be corrected -/
  badWords : Nat
  /-- the first of these lies in part under the flit before it, and was counted there -/
  badBefore : Bool
  crcOk : Bool
  tagOk : Bool
  /-- symbols that the FEC corrected in it -/
  corrected : Nat
  /-- the packets and frames that begin in its payload, as their own headers and the flits after it give them -/
  items : List (Packet ⊕ Frame)
  /-- a share of a key agreement that a control flit brings -/
  msg : Option FarShare
  deriving DecidableEq, Repr

/-- Its codewords decoded (R433). -/
def Flit.fecOk (f : Flit) : Bool := f.badWords == 0

/-- The uncorrectable codewords that begin to lie under it: a codeword of 642.5 bytes lies under two or three flits. -/
def Flit.newBad (f : Flit) : Nat := f.badWords - (if f.badBefore then 1 else 0)

/-- What the owner tag of a cell names (11_switch_die.md R356). Queues are numbered as R346 gives. -/
inductive CellOwner where
  | free
  | ingress (port queue : Nat)
  | egress (port queue : Nat)
  | span (inPort label : Nat)
  | trestle (entry : Nat)
  | merge (port : Nat)
  deriving DecidableEq, Repr

/-- What a host core does on its physical map (06_host_cores.md R172, R589). -/
inductive CoreOp where
  | load
  | store
  | amo (sub : BitVec 4)
  deriving DecidableEq, Repr

/-- A unit that can fail (15_startup_and_defects.md Table 15-5); `stack` is 0 for switch units. -/
structure UnitId where
  kind : BitVec 4
  stack : Nat
  index : Nat
  deriving DecidableEq, Repr

/-- A memory row (15_startup_and_defects.md Table 15-4). -/
structure RowId where
  stack : Nat
  far : Bool
  position : Bool
  channel : BitVec 6
  bank : BitVec 6
  row : BitVec 19
  deriving DecidableEq, Repr

/-- What tier training finds on one stack (15_startup_and_defects.md R452 step 6): whether every
position and slice trained and was initialised, the accumulate units that failed their test, and
the rows found failing. -/
structure TierResult where
  stack : Nat
  trained : Bool
  accFailed : List Nat
  badRows : List RowId
  deriving DecidableEq, Repr

/-- An item of a trestle entry (11_switch_die.md Table 11-5). -/
inductive TrestleItem where
  | unused
  | branch (port : Nat) (label : Nat) (reach : BitVec 24)
  | input (port : Nat) (label : Nat) (num : Nat) (reach : BitVec 24)
  | node (num left right : Nat)
  | reserve (cells share : Nat)
  | unknown (type : Nat)
  deriving DecidableEq, Repr

/-- TRESTLE_ENTRY_SET (11_switch_die.md Table 11-4). -/
structure TrestleSet where
  entry : Nat
  kind : Nat
  append : Bool
  commit : Bool
  root : Bool
  port : Nat
  label : Nat
  items : List TrestleItem
  deriving DecidableEq, Repr

/-- SPAN_ENTRY_SET (10_spans_and_routing.md Table 10-7). -/
structure SpanEntrySet where
  inPort : Nat
  label : Nat
  outPort : Nat
  nextLabel : Nat
  share : Nat
  cells : Nat
  srcNode : BitVec 16
  spanId : BitVec 16
  deriving DecidableEq, Repr

/-- SHADOW_SET (18_faults_and_recovery.md R534). -/
structure ShadowSet where
  stack : Nat
  role : Nat
  peer : BitVec 16
  job : BitVec 16
  stepAddr : Word
  stepBench : Nat
  stepCtx : Nat
  k : Nat
  deriving DecidableEq, Repr

/-- REBUILD and DIGEST_REQ (18_faults_and_recovery.md R541). -/
structure RegionReq where
  request : BitVec 32
  stack : Nat
  tier : Nat
  offset : Nat
  length : Nat
  dstNode : BitVec 16
  dstOffset : Nat
  deriving DecidableEq, Repr

/-- A drain marker as it reaches its target: the frame, and whether a cell error has poisoned it
(11_switch_die.md R351). -/
structure Marker where
  frame : Frame
  poisoned : Bool
  deriving DecidableEq, Repr

/-- What one end of a link sends the other in training and in a change of keys (14_links_and_cables.md R440, R441;
17_security_and_tenancy.md R493): the lanes that it found good; its versions, node, port and variant; its chain and
ephemeral key; its signature. -/
inductive LinkMsg where
  | lanes (good : List Nat)
  | params (maxJfp minJfp : Nat) (node : BitVec 16) (port : Nat) (variant : Variant)
  | share (chain : List (List Byte)) (key : List Byte)
  | signed (sig : List Byte × List Byte)
  deriving DecidableEq, Repr

/-- A call of the hart state management extension (06_host_cores.md R166), by the core or about it, or a change of its
mode: a start, with its address and argument register a1; a stop; a suspension and its end; a question for its state;
the runtime's way into user mode and back. -/
inductive HartArgs where
  | start (addr a1 : Word)
  | stop
  | suspend
  | resume
  | status
  | mode (user : Bool)
  deriving DecidableEq, Repr

/-- A bench on which ballast can run, and the power that it then adds, in milliwatts (16_power.md R480 to R482). -/
structure BallastBench where
  stack : Nat
  bench : Nat
  mw : Nat
  deriving DecidableEq, Repr

/-- What DC_CHECK measures of one transmit or receive pair (14_links_and_cables.md R439). -/
structure PairDc where
  tx : Bool
  pair : BitVec 3
  isOpen : Bool
  short : Bool
  deriving DecidableEq, Repr

/-- What a check finds: every pair, and whether they are crossed. -/
structure DcResult where
  pairs : List PairDc
  crossed : Bool
  deriving DecidableEq, Repr

/-- What EQUALISE finds of one logical lane: the receive pair that carries it, its polarity, and which ends find it good
(14_links_and_cables.md R440). -/
structure LaneResult where
  pair : BitVec 3
  inverted : Bool
  good : Bool
  farGood : Bool
  deriving DecidableEq, Repr

/-- What the cable answers at bring-up (14_links_and_cables.md R449). -/
inductive CableAnswer where
  | none
  | passive
  | active
  | noApplication
  | moduleFault
  | tooSlow
  deriving DecidableEq, Repr

/-- A common command of the sideband bus (20_module_connector.md R569). -/
inductive I3cCcc where
  | entdaa (addr : BitVec 7)
  | setdasa (dest addr : BitVec 7)
  | rstdaa
  | getstatus (dest : BitVec 7)
  | other (code : BitVec 8)
  deriving DecidableEq, Repr

/-- What opens or closes debug (17_security_and_tenancy.md R516): SEC_DEBUG.OPEN, an instruction of the TAP, or TRST_N
(20_module_connector.md R575). -/
inductive DebugWay where
  | sec
  | tap
  | trst (high : Bool)
  deriving DecidableEq, Repr

/-- A private write on the sideband bus (R569, R570): the address in its header and the bytes after the code. -/
structure I3cWrite where
  dest : BitVec 7
  body : List Byte
  deriving DecidableEq, Repr

/-- The commands, in the order of spec/opcode_table.json; a row's rule is in the table. -/
inductive Instr where
  /-- REGISTER_WRITE (R14) -/
  | registerWrite (who : Requester) (acc : RegAccess)
  /-- BEAT_EDGE (R28): the ticks that have passed, and the length of the high phase in nanoseconds -/
  | beatEdge (dt high : Nat)
  /-- BEAT_SET (R574) -/
  | beatSet (msg : I3cWrite) (parityErr : Bool)
  /-- RACK_SET (R573) -/
  | rackSet (msg : I3cWrite) (parityErr : Bool)
  /-- LOCKED_SET (R31) -/
  | lockedSet
  /-- BEAT_CHECK_SEND (R33) -/
  | beatCheckSend (port : Nat)
  /-- BEAT_CHECK (R33): the phase is in 1/256 beat -/
  | beatCheck (port : Nat) (farBeat : BitVec 48) (farPhase : Nat)
  /-- BEAT_CHECK_LAPSE (R33) -/
  | beatCheckLapse (port : Nat)
  /-- BEAT_GAP_TIMEOUT (R42) -/
  | beatGapTimeout (dt : Nat)
  /-- BEAT_FREQ_WINDOW (R42) -/
  | beatFreqWindow
  /-- LOST_LIMIT_EXPIRE (R44) -/
  | lostLimitExpire (dt : Nat)
  /-- BEAT_RETURN_COMPARE (R46) -/
  | beatReturnCompare
  /-- CVT (R81) -/
  | cvt (c : CtxId) (f : VForm)
  /-- CVTB (R62) -/
  | cvtb (c : CtxId) (f : VForm)
  /-- CVTU (R81) -/
  | cvtu (c : CtxId) (f : VForm)
  /-- BUNDLE_ISSUE (R90) -/
  | bundleIssue (stack bench : Nat)
  /-- NOP (R102) -/
  | nop (c : CtxId)
  /-- SLI (R105) -/
  | sli (c : CtxId) (f : SForm)
  /-- SLIH (R105) -/
  | slih (c : CtxId) (f : SForm)
  /-- SADD (R105) -/
  | sadd (c : CtxId) (f : SForm)
  /-- SADDI (R105) -/
  | saddi (c : CtxId) (f : SForm)
  /-- SSUB (R105) -/
  | ssub (c : CtxId) (f : SForm)
  /-- SMUL (R105) -/
  | smul (c : CtxId) (f : SForm)
  /-- SAND (R105) -/
  | sand (c : CtxId) (f : SForm)
  /-- SOR (R105) -/
  | sor (c : CtxId) (f : SForm)
  /-- SXOR (R105) -/
  | sxor (c : CtxId) (f : SForm)
  /-- SSHL (R105) -/
  | sshl (c : CtxId) (f : SForm)
  /-- SSHR (R105) -/
  | sshr (c : CtxId) (f : SForm)
  /-- SCMPLT (R105) -/
  | scmplt (c : CtxId) (f : SForm)
  /-- JMP (R103) -/
  | jmp (c : CtxId) (f : SForm)
  /-- BRZ (R103) -/
  | brz (c : CtxId) (f : SForm)
  /-- BRNZ (R103) -/
  | brnz (c : CtxId) (f : SForm)
  /-- WAITF (R125) -/
  | waitf (c : CtxId) (f : SForm)
  /-- WAITF_RELEASE (R125) -/
  | waitfRelease (c : CtxId)
  /-- WAITB (R126) -/
  | waitb (c : CtxId) (f : SForm)
  /-- WAITB_RELEASE (R126) -/
  | waitbRelease (c : CtxId)
  /-- GETF (R116) -/
  | getf (c : CtxId) (f : SForm)
  /-- GETID (R105) -/
  | getid (c : CtxId) (f : SForm)
  /-- YIELD (R105) -/
  | yield (c : CtxId) (f : SForm)
  /-- HALT (R105) -/
  | halt (c : CtxId) (f : SForm)
  /-- HALT_COMPLETE (R282) -/
  | haltComplete (c : CtxId)
  /-- VLD (R95) -/
  | vld (c : CtxId) (f : MForm)
  /-- VST (R95) -/
  | vst (c : CtxId) (f : MForm)
  /-- SLD (R95) -/
  | sld (c : CtxId) (f : MForm)
  /-- SST (R95) -/
  | sst (c : CtxId) (f : MForm)
  /-- FLD (R109) -/
  | fld (c : CtxId) (f : MForm)
  /-- FST (R269) -/
  | fst (c : CtxId) (f : MForm)
  /-- FSTK (R281) -/
  | fstk (c : CtxId) (f : MForm)
  /-- FATOM (R273) -/
  | fatom (c : CtxId) (f : MForm)
  /-- FACC (R275) -/
  | facc (c : CtxId) (f : MForm)
  /-- FFENCE (R282) -/
  | ffence (c : CtxId) (f : MForm)
  /-- FFENCE_COMPLETE (R282) -/
  | ffenceComplete (c : CtxId)
  /-- LSEND (R140) -/
  | lsend (c : CtxId) (f : MForm)
  /-- LRECV (R141) -/
  | lrecv (c : CtxId) (f : MForm)
  /-- LSENDD (R142) -/
  | lsendd (c : CtxId) (f : MForm)
  /-- LRECVD (R142) -/
  | lrecvd (c : CtxId) (f : MForm)
  /-- GRANULE_ARRIVE (R140) -/
  | granuleArrive (stack bench link : Nat) (bad : Bool)
  /-- CREDIT_RETURN (R140) -/
  | creditReturn (stack bench link : Nat)
  /-- VADD (R114) -/
  | vadd (c : CtxId) (f : VForm)
  /-- VSUB (R114) -/
  | vsub (c : CtxId) (f : VForm)
  /-- VMUL (R114) -/
  | vmul (c : CtxId) (f : VForm)
  /-- VFMA (R584) -/
  | vfma (c : CtxId) (f : VForm)
  /-- VDIV (R585) -/
  | vdiv (c : CtxId) (f : VForm)
  /-- VSQRT (R585) -/
  | vsqrt (c : CtxId) (f : VForm)
  /-- VMIN (R114) -/
  | vmin (c : CtxId) (f : VForm)
  /-- VMAX (R114) -/
  | vmax (c : CtxId) (f : VForm)
  /-- VCMPEQ (R112) -/
  | vcmpeq (c : CtxId) (f : VForm)
  /-- VCMPLT (R112) -/
  | vcmplt (c : CtxId) (f : VForm)
  /-- VCMPLE (R112) -/
  | vcmple (c : CtxId) (f : VForm)
  /-- VSEL (R111) -/
  | vsel (c : CtxId) (f : VForm)
  /-- VABS (R585) -/
  | vabs (c : CtxId) (f : VForm)
  /-- VNEG (R585) -/
  | vneg (c : CtxId) (f : VForm)
  /-- VAND (R110) -/
  | vand (c : CtxId) (f : VForm)
  /-- VOR (R110) -/
  | vor (c : CtxId) (f : VForm)
  /-- VXOR (R110) -/
  | vxor (c : CtxId) (f : VForm)
  /-- VSHL (R110) -/
  | vshl (c : CtxId) (f : VForm)
  /-- VSHR (R110) -/
  | vshr (c : CtxId) (f : VForm)
  /-- VMOVS (R105) -/
  | vmovs (c : CtxId) (f : VForm)
  /-- VPERM (R105) -/
  | vperm (c : CtxId) (f : VForm)
  /-- VBCAST (R105) -/
  | vbcast (c : CtxId) (f : VForm)
  /-- VRSUM (R113) -/
  | vrsum (c : CtxId) (f : VForm)
  /-- VRMAX (R113) -/
  | vrmax (c : CtxId) (f : VForm)
  /-- VEXP2 (R115) -/
  | vexp2 (c : CtxId) (f : VForm)
  /-- VLOG2 (R115) -/
  | vlog2 (c : CtxId) (f : VForm)
  /-- VRCPA (R115) -/
  | vrcpa (c : CtxId) (f : VForm)
  /-- VRSQA (R115) -/
  | vrsqa (c : CtxId) (f : VForm)
  /-- VTANH (R115) -/
  | vtanh (c : CtxId) (f : VForm)
  /-- VSIGM (R115) -/
  | vsigm (c : CtxId) (f : VForm)
  /-- VEXT (R105) -/
  | vext (c : CtxId) (f : VForm)
  /-- AZERO (R105) -/
  | azero (c : CtxId) (f : AForm)
  /-- AMMA (R117) -/
  | amma (c : CtxId) (f : AForm)
  /-- ADRAIN (R122) -/
  | adrain (c : CtxId) (f : AForm)
  /-- ALOAD (R591) -/
  | aload (c : CtxId) (f : AForm)
  /-- CTX_WATCHDOG_EXPIRE (R128) -/
  | ctxWatchdogExpire (c : CtxId)
  /-- WDOG_INTERVAL_WRITE (R128) -/
  | wdogIntervalWrite (who : Requester) (stack : Nat) (value : Word)
  /-- RESUME (R129) -/
  | resume (who : Requester) (c : CtxId)
  /-- KILL (R130) -/
  | kill (who : Requester) (c : CtxId)
  /-- KILLED_DRAINED (R299) -/
  | killedDrained (c : CtxId)
  /-- FABRIC_REPLY_TO_CONTEXT (R100) -/
  | fabricReplyToContext (stack req : Nat)
  /-- JOB_WRITE (R143) -/
  | jobWrite (who : Requester) (stack bench : Nat) (value : Word)
  /-- CLOCK_EVALUATION (R152) -/
  | clockEvaluation (temps : List Nat)
  /-- APPLY_CLOCK_STEP (R154) -/
  | applyClockStep (stack : Nat)
  /-- RESEAT_GO (R162) -/
  | reseatGo (who : Requester) (stack : Nat)
  /-- RESEAT_DONE (R162) -/
  | reseatDone (stack : Nat)
  /-- RUNTIME_GO (R167) -/
  | runtimeGo (who : Requester) (stack : Nat) (value : Word)
  /-- RUNTIME_COPY_DONE (R167) -/
  | runtimeCopyDone (stack : Nat)
  /-- CORE_ACCESS (R172) -/
  | coreAccess (stack core : Nat) (op : CoreOp) (addr bytes : Nat) (value compare : Word)
  /-- CORE_WDOG_WARN (R187) -/
  | coreWdogWarn (stack core : Nat)
  /-- CORE_WDOG_HUNG (R187) -/
  | coreWdogHung (stack core : Nat)
  /-- KICK (R186) -/
  | kick (who : Requester) (stack core : Nat)
  /-- RESTART (R188) -/
  | restart (who : Requester) (stack core : Nat)
  /-- DRING_CFG_WRITE (R191) -/
  | dringCfgWrite (who : Requester) (stack ring : Nat) (value : Word)
  /-- DRING_DOORBELL (R181) -/
  | dringDoorbell (who : Requester) (stack ring : Nat) (value : Word)
  /-- RING_ENABLE (R199) -/
  | ringEnable (who : Requester) (ring : Nat) (value : Word)
  /-- RING_DISABLE (R200) -/
  | ringDisable (who : Requester) (ring : Nat) (value : Word)
  /-- DOORBELL_SNOOP (R204) -/
  | doorbellSnoop (ring : Nat) (written : List Host.Cell)
  /-- DOORBELL_READ_DONE (R204) -/
  | doorbellReadDone (ring : Nat) (cxlErr : Bool)
  /-- DOORBELL_POLL (R205) -/
  | doorbellPoll (ring : Nat)
  /-- DESCRIPTOR_FETCH (R195) -/
  | descriptorFetch (ring : RingId) (cxlErr : Bool)
  /-- DESCRIPTOR_START (R208) -/
  | descriptorStart (desc : Nat)
  /-- COPY (R218) -/
  | copy (desc : Nat)
  /-- FILL (R218) -/
  | fill (desc : Nat)
  /-- LAUNCH (R134) -/
  | launch (desc : Nat)
  /-- LAUNCH_COMPLETE (R135) -/
  | launchComplete (desc : Nat)
  /-- COLLECTIVE (R388) -/
  | collective (desc : Nat)
  /-- FENCE (R218) -/
  | fence (desc : Nat)
  /-- KEYSTONE (R218) -/
  | keystone (desc : Nat)
  /-- WAIT_BEAT (R218) -/
  | waitBeat (desc : Nat)
  /-- WAIT_BEAT_RELEASE (R39) -/
  | waitBeatRelease (desc : Nat)
  /-- AT_BEAT (R218) -/
  | atBeat (desc : Nat)
  /-- AT_BEAT_RELEASE (R39) -/
  | atBeatRelease (desc : Nat)
  /-- SPAN_OPEN (R316) -/
  | spanOpen (desc : Nat)
  /-- SPAN_CLOSE (R317) -/
  | spanClose (desc : Nat)
  /-- SNAPSHOT (R221) -/
  | snapshot (desc : Nat)
  /-- SNAPSHOT_START (R221) -/
  | snapshotStart (desc : Nat)
  /-- ATTEST (R512) -/
  | attest (desc : Nat)
  /-- INVALIDATE (R253) -/
  | invalidate (desc : Nat)
  /-- NOP_DESCRIPTOR (R218) -/
  | nopDescriptor (desc : Nat)
  /-- COMPLETION_WRITE (R225) -/
  | completionWrite (desc : Nat) (cxlErr : Bool)
  /-- WALK_START (R243) -/
  | walkStart (stack req : Nat)
  /-- WALK_COMPLETE (R236) -/
  | walkComplete (stack ctx page : Nat)
  /-- HELD_FAULT_WRITE (R262) -/
  | heldFaultWrite (stack : Nat)
  /-- FAULT_RETRY (R260) -/
  | faultRetry (who : Requester) (stack : Nat) (seq : BitVec 16)
  /-- FAULT_FAIL (R260) -/
  | faultFail (who : Requester) (stack : Nat) (seq : BitVec 16)
  /-- FQ_CFG_WRITE (R265) -/
  | fqCfgWrite (who : Requester) (stack : Nat) (value : Word)
  /-- CONTEXT_WRITE (R266) -/
  | contextWrite (who : Requester) (stack ctx : Nat) (value : Word)
  /-- SHOOTDOWN_DRAIN_DONE (R250) -/
  | shootdownDrainDone (stack id : Nat)
  /-- LOAD (R280) -/
  | load (stack : Nat) (pkt : Packet)
  /-- STORE (R280) -/
  | store (stack : Nat) (pkt : Packet)
  /-- ROUTED_KEYSTONE (R281) -/
  | routedKeystone (stack : Nat) (pkt : Packet)
  /-- ATOMIC (R273) -/
  | atomic (stack : Nat) (pkt : Packet)
  /-- ACCUM (R275) -/
  | accum (stack : Nat) (pkt : Packet)
  /-- LINE_SERVE (R292) -/
  | lineServe (stack line : Nat)
  /-- ACK (R280) -/
  | ack (stack : Nat) (pkt : Packet)
  /-- DATA (R284) -/
  | data (stack : Nat) (pkt : Packet)
  /-- ATOMIC_REPLY (R284) -/
  | atomicReply (stack : Nat) (pkt : Packet)
  /-- KEYSTONE_RELEASE (R281) -/
  | keystoneRelease (stack req : Nat)
  /-- RESEND_TIMER (R285) -/
  | resendTimer (stack req : Nat)
  /-- DEAD_TIMER (R294) -/
  | deadTimer (stack req : Nat)
  /-- DEAD (R294) -/
  | dead (stack : Nat) (pkt : Packet)
  /-- CWIN_CFG_WRITE (R307) -/
  | cwinCfgWrite (who : Requester) (stack : Nat) (value : Word)
  /-- CWIN_DRAIN_DONE (R307) -/
  | cwinDrainDone (stack : Nat)
  /-- INVAL_ACK (R304) -/
  | invalAck (stack : Nat) (pkt : Packet)
  /-- INVAL_RESEND_TIMER (R355) -/
  | invalResendTimer (stack : Nat) (number : BitVec 32)
  /-- RESET_MAX (R306) -/
  | resetMax (who : Requester) (stack : Nat)
  /-- PACKET_FORWARD (R323) -/
  | packetForward (port : Nat)
  /-- EGRESS_CHARGE (R348) -/
  | egressCharge (port queue : Nat)
  /-- REQUEST_INJECT (R330) -/
  | requestInject (stack req : Nat)
  /-- THROTTLE_ADJUST (R332) -/
  | throttleAdjust (stack : Nat)
  /-- SPAN_GRANT (R316) -/
  | spanGrant (src : BitVec 16) (stack : Nat) (span label : BitVec 16) (epoch : BitVec 8)
  /-- SPAN_REFUSE (R316) -/
  | spanRefuse (src : BitVec 16) (stack : Nat) (span : BitVec 16) (reason : Byte)
  /-- SPAN_GRANT_TIMEOUT (R316) -/
  | spanGrantTimeout (stack : Nat) (span : BitVec 16)
  /-- SPAN_ACTIVATE (R315) -/
  | spanActivate (stack : Nat) (span : BitVec 16)
  /-- SPAN_CLOSE_BEAT (R317) -/
  | spanCloseBeat (stack : Nat) (span : BitVec 16)
  /-- SPAN_ENTRY_SET (R318) -/
  | spanEntrySet (src : BitVec 16) (m : SpanEntrySet)
  /-- SPAN_ENTRY_CLEAR (R319) -/
  | spanEntryClear (src : BitVec 16) (inPort label : Nat)
  /-- SPAN_FRAME_FORWARD (R314) -/
  | spanFrameForward (inPort : Nat) (frame : Frame)
  /-- SPAN_FRAME (R313) -/
  | spanFrame (stack : Nat) (frame : Frame) (poisoned : Bool)
  /-- DRAIN_MARKER (R337) -/
  | drainMarker (stack : Nat) (marker : Marker)
  /-- SPAN_ACK_TIMER (R334) -/
  | spanAckTimer (stack : Nat) (src span : BitVec 16)
  /-- SPAN_ACK (R334) -/
  | spanAck (stack : Nat) (pkt : Packet)
  /-- SPAN_SYNC_TIMER (R335) -/
  | spanSyncTimer (stack : Nat) (span : BitVec 16)
  /-- SPAN_SYNC (R339) -/
  | spanSync (stack : Nat) (pkt : Packet)
  /-- SYNC_REPLY (R339) -/
  | syncReply (stack : Nat) (pkt : Packet)
  /-- SPAN_REROUTE (R336) -/
  | spanReroute (src : BitVec 16) (stack : Nat) (span label : BitVec 16) (epoch planned : Byte)
  /-- SPAN_BROKEN (R338) -/
  | spanBroken (stack : Nat) (pkt : Packet)
  /-- SPAN_PAUSE_TIMEOUT (R340) -/
  | spanPauseTimeout (stack : Nat) (span : BitVec 16)
  /-- AUDIT_PASS_END (R356): what has gone wrong in the cells since the last pass: cells that their owners have lost; cells
  that stand on the free list though a packet or frame holds them; one more wrong bit in a stored word of a packet or
  frame (R350); free cells that the free list has lost -/
  | auditPassEnd (lost : List (Nat × CellOwner)) (doubled : List (Nat × (Packet ⊕ Frame)))
    (wrong : List ((Packet ⊕ Frame) × Nat)) (unlisted : List Nat)
  /-- TRESTLE_ENTRY_SET (R368) -/
  | trestleEntrySet (src : BitVec 16) (at_ : Nat) (m : TrestleSet)
  /-- TRESTLE_ENTRY_CLEAR (R366) -/
  | trestleEntryClear (src : BitVec 16) (at_ entry : Nat)
  /-- FENCE_SET (R373) -/
  | fenceSet (src node : BitVec 16)
  /-- FENCE_CLEAR (R373) -/
  | fenceClear (src node : BitVec 16)
  /-- MULTICAST_FRAME (R369) -/
  | multicastFrame (entry : Nat) (frame : Frame)
  /-- TRESTLE_INPUT_FRAME (R371) -/
  | trestleInputFrame (at_ entry num : Nat) (frame : Frame)
  /-- REDUCTION_EVALUATE (R370) -/
  | reductionEvaluate (at_ entry : Nat)
  /-- GROUP_GRANT (R385) -/
  | groupGrant (src : BitVec 16) (stack : Nat) (group up down : BitVec 16)
  /-- GROUP_REFUSE (R385) -/
  | groupRefuse (src : BitVec 16) (stack : Nat) (group : BitVec 16) (reason : Byte)
  /-- GROUP_REQUEST_TIMEOUT (R385) -/
  | groupRequestTimeout (stack : Nat) (group : BitVec 16)
  /-- GROUP_CLEAR (R387) -/
  | groupClear (src : BitVec 16) (stack : Nat) (group : BitVec 16)
  /-- HEADER_RESULT (R388) -/
  | headerResult (stack : Nat) (frame : Frame)
  /-- DATA_ROUND_START (R388) -/
  | dataRoundStart (stack : Nat) (group : BitVec 16)
  /-- CHUNK_FRAME (R402) -/
  | chunkFrame (stack : Nat) (frame : Frame)
  /-- TALLY_SEND (R388) -/
  | tallySend (stack : Nat) (group : BitVec 16)
  /-- TALLY_RESULT (R404) -/
  | tallyResult (stack : Nat) (frame : Frame)
  /-- COLLECTIVE_LIMIT_EXPIRE (R406) -/
  | collectiveLimitExpire (stack : Nat) (group : BitVec 16)
  /-- ROW_REPAIR (R422) -/
  | rowRepair (row : RowId)
  /-- ROW_REPAIR_DONE (R422) -/
  | rowRepairDone (row : RowId) (lines bad : List Nat)
  /-- PATROL_SCRUB (R424); `wrong` is how many 16-bit symbols of the line have become wrong since it was last read -/
  | patrolScrub (stack : Nat) (far : Bool) (line wrong : Nat)
  /-- ZERO_SCRUB_DONE (R425) -/
  | zeroScrubDone (stack : Nat)
  /-- FLIT_RECEIVE (R433) -/
  | flitReceive (port : Nat) (flit : Flit)
  /-- REPLAY (R434) -/
  | replay (port : Nat)
  /-- KEY_CHANGE (R436) -/
  | keyChange (port : Nat)
  /-- KEY_CHANGE_TIMEOUT (R436) -/
  | keyChangeTimeout (port : Nat)
  /-- ERROR_RATE_WINDOW (R435) -/
  | errorRateWindow (port : Nat)
  /-- PORT_TRAIN_START (R438) -/
  | portTrainStart (port : Nat)
  /-- CABLE_BRINGUP_DONE (R449) -/
  | cableBringupDone (port : Nat) (cable : CableAnswer)
  /-- DC_CHECK (R439) -/
  | dcCheck (port : Nat) (pairs : List PairDc) (crossed : Bool)
  /-- CROSS_RECHECK (R439) -/
  | crossRecheck (port : Nat) (waited : Nat) (found : DcResult)
  /-- EQUALISE_DONE (R440) -/
  | equaliseDone (port : Nat) (lanes : List LaneResult)
  /-- PARAMS_DONE (R441): what the far end has sent, whether its chain and signature verify, and its ephemeral key -/
  | paramsDone (port : Nat) (farMin farMax : Nat) (farNode : BitVec 16) (farPort : Nat) (farVariant : Variant)
      (authOk : Bool) (farKey : List Byte)
  /-- CHECK_DONE (R24) -/
  | checkDone (port latency : Nat)
  /-- TRAIN_STATE_TIMEOUT (R442) -/
  | trainStateTimeout (port : Nat)
  /-- TRAIN_BACKOFF_EXPIRE (R442) -/
  | trainBackoffExpire (port : Nat)
  /-- PORT_DOWN (R444) -/
  | portDown (port : Nat) (reason : Nat)
  /-- RETRAIN (R445) -/
  | retrain (who : Requester) (port : Nat) (value : Word)
  /-- HOLD (R438) -/
  | hold (who : Requester) (port : Nat) (value : Word)
  /-- CABLE_FLAG_POLL (R450) -/
  | cableFlagPoll (port : Nat) (lossOfSignal moduleFault : Bool) (alarms : BitVec 32)
  /-- POWER_GOOD (R474); the input voltage here and in the rows below is in units of 10 mV -/
  | powerGood (volts ms : Nat) (tray : BitVec 5) (slot : BitVec 3)
  /-- KEEPER_BOOT (R455) -/
  | keeperBoot (keysOk descriptorOk firmwareOk : Bool) (fwDigest : List Byte)
  /-- STACKS_OUT_OF_RESET (R452) -/
  | stacksOutOfReset
  /-- KNOWN_ANSWER_TESTS_DONE (R459) -/
  | knownAnswerTestsDone (failed : List UnitId) (switchFailed : Bool)
  /-- DEFECT_MERGE_DONE (R465) -/
  | defectMergeDone (copyA copyB : Bool)
  /-- TIER_TRAINING_DONE (R452) -/
  | tierTrainingDone (results : List TierResult)
  /-- PORT_TRAINING_STEP_END (R452) -/
  | portTrainingStepEnd (budget : Bool)
  /-- MEASUREMENTS_RECORDED (R452) -/
  | measurementsRecorded
  /-- CAP_RECOVERY_GO (R456) -/
  | capRecoveryGo (who : Requester) (value : Word)
  /-- RECOVERY_IMAGE_CHECK (R457) -/
  | recoveryImageCheck (size : Nat) (signatureOk flashOk : Bool)
  /-- UNIT_FAILURE (R471) -/
  | unitFailure (unit : UnitId)
  /-- DEFECT_ENTRY_WRITTEN (R469) -/
  | defectEntryWritten
  /-- SWITCH_FAIL (R472) -/
  | switchFail
  /-- SAG_SET (R474) -/
  | sagSet (volts us : Nat)
  /-- SAG_CLEAR (R474) -/
  | sagClear (volts us : Nat)
  /-- UNDERVOLTAGE_RESET (R474) -/
  | undervoltageReset (volts us : Nat)
  /-- EPO (R475) -/
  | epo (us : Nat)
  /-- EPO_RELEASE (R475) -/
  | epoRelease
  /-- SHED_ASSERT (R476) -/
  | shedAssert (us : Nat)
  /-- SHED_RELEASE (R488) -/
  | shedRelease
  /-- POWER_EVALUATION (R479): the average power of the window just ended and the power that running work demands; the
  benches that ballast can run on, in the order in which it takes them; the input voltage; the hottest junction of each
  stack; and the power that running work draws at each of the steps 16 to 63. Power is in milliwatts. -/
  | powerEvaluation (powerMw demandMw : Nat) (ballast : List BallastBench) (input : Nat) (temps stepMw : List Nat)
  /-- CAP_AT (R483) -/
  | capAt (msg : I3cWrite) (parityErr : Bool)
  /-- RAMP_AT (R483) -/
  | rampAt (msg : I3cWrite) (parityErr : Bool)
  /-- LEASE (R485) -/
  | lease (msg : I3cWrite) (parityErr : Bool)
  /-- CAP_TAKES_EFFECT (R483) -/
  | capTakesEffect (order : Nat)
  /-- RAMP_TAKES_EFFECT (R484) -/
  | rampTakesEffect (order : Nat)
  /-- LEASE_LAPSE (R485) -/
  | leaseLapse
  /-- THERMAL_TRIP (R487) -/
  | thermalTrip (celsius : Nat)
  /-- STATUS_READ (R572): a private read at an address of the module -/
  | statusRead
  /-- I3C_CCC (R569) -/
  | i3cCcc (ccc : I3cCcc)
  /-- BIND (R497) -/
  | bind (value : Word)
  /-- RELEASE (R505) -/
  | release (value : Word)
  /-- RELEASE_DONE (R505) -/
  | releaseDone (stack : Nat)
  /-- CERTS (R496) -/
  | certs (value : Word)
  /-- WEIGHTS_GO (R509) -/
  | weightsGo (who : Requester) (stack : Nat) (value : Word)
  /-- WEIGHTS_DIGEST_DONE (R509) -/
  | weightsDigestDone (stack : Nat)
  /-- THROTTLE_WINDOW_END (R513) -/
  | throttleWindowEnd (hottest : Nat)
  /-- DEBUG_OPEN (R517) -/
  | debugOpen (way : DebugWay) (ir : BitVec 8)
  /-- DEBUG_CLOSE (R517) -/
  | debugClose (way : DebugWay) (ir : BitVec 8)
  /-- DEBUG_REGISTER_ACCESS (R554) -/
  | debugRegisterAccess (ctl : Word)
  /-- DEBUG_TIER_ACCESS (R554) -/
  | debugTierAccess (ctl : Word)
  /-- DEBUG_CONTEXT_STOP (R556) -/
  | debugContextStop (ctl : Word)
  /-- DEBUG_CONTEXT_RELEASE (R556) -/
  | debugContextRelease (ctl : Word)
  /-- DEBUG_CONTEXT_READ (R554) -/
  | debugContextRead (ctl : Word)
  /-- JTAG_UPDATE_DR (R557) -/
  | jtagUpdateDr (ctl data : Word)
  /-- NOTICE_RESEND_TIMER (R520) -/
  | noticeResendTimer
  /-- NOTICE_ACK (R520) -/
  | noticeAck (src : BitVec 16) (number : BitVec 32)
  /-- TEARDOWN (R531) -/
  | teardown (src : BitVec 16) (job : BitVec 16) (stackMask : BitVec 8)
  /-- TEARDOWN_COMPLETE (R529) -/
  | teardownComplete (stack : Nat) (job : BitVec 16)
  /-- CLEAR_DEAD (R532) -/
  | clearDead (src node : BitVec 16) (stackMask : BitVec 8)
  /-- SHADOW_SET (R534) -/
  | shadowSet (src : BitVec 16) (m : ShadowSet)
  /-- SHADOW_DIGEST (R537) -/
  | shadowDigest (stack : Nat) (src : BitVec 16) (step : BitVec 32) (digest : Word)
  /-- SHADOW_SWAP (R539) -/
  | shadowSwap (src : BitVec 16) (stack : Nat) (beat : BitVec 48)
  /-- SHADOW_SWAP_BEAT (R539) -/
  | shadowSwapBeat (stack : Nat)
  /-- REBUILD (R541) -/
  | rebuild (src : BitVec 16) (m : RegionReq)
  /-- REBUILD_DONE (R541) -/
  | rebuildDone (stack : Nat) (request : BitVec 32)
  /-- DIGEST_REQ (R541) -/
  | digestReq (src : BitVec 16) (m : RegionReq)
  /-- DIGEST_DONE (R541) -/
  | digestDone (stack : Nat) (request : BitVec 32)
  /-- QUIET_CLEAR (R524) -/
  | quietClear (who : Requester) (value : Word)
  /-- REG_WRITE (R559) -/
  | regWrite (src : BitVec 16) (tag offset : BitVec 32) (value : Word)
  /-- UCIE_MODULE_DROP (R552) -/
  | ucieModuleDrop (module : Nat)
  /-- HART_START (R167) -/
  | hartStart (stack core : Nat) (args : HartArgs)
  /-- FLIT_SEND (R432) -/
  | flitSend (port : Nat)
  /-- SPAN_FRAME_SEND (R320) -/
  | spanFrameSend (stack : Nat) (span : BitVec 16)
  /-- CHUNK_REFETCH (R400) -/
  | chunkRefetch (port label : Nat)
  /-- UNKNOWN_SIDEBAND_MESSAGE (R570) -/
  | unknownSidebandMessage (code : Byte) (msg : I3cWrite) (parityErr : Bool)
  deriving DecidableEq, Repr

end Sys2Proof
end

