-- ==== Sys2Proof/Config.lean ====
section
/-! DEFINITION. What an implementation fixes and what the spec leaves open: constants without a
body. No proof can see a value of one of them, so a claim holds whatever they are. -/

namespace Sys2Proof

/-- A free value: what the spec does not fix, at the n-th time the module takes one
(`State.free` counts). Log entry 5. -/
opaque Config.freeNat : Nat → Nat

/-- SHA-512 of a byte string (17_security_and_tenancy.md R508, R511): a published standard that the
spec names and does not define. Log entry 6. -/
opaque Config.sha512 : List Byte → List Byte

/-- HKDF-SHA-512 (17_security_and_tenancy.md R493, R498, R499): input key, salt, info, length. -/
opaque Config.hkdf : List Byte → List Byte → List Byte → Nat → List Byte

/-- The AES-256-GCM tag (07_rings_and_doorbells.md R214): key, IV, additional data. -/
opaque Config.gcmTag : List Byte → List Byte → List Byte → List Byte

/-- AES-256-GCM (14_links_and_cables.md R431; 17_security_and_tenancy.md R494): key, IV, additional data, plaintext;
the ciphertext and the 16 bytes of the tag. Log entry 6. -/
opaque Config.gcmSeal : List Byte → List Byte → List Byte → List Byte → List Byte × List Byte

/-- The ECDSA P-521 signature r and s of the keeper's identity key over a digest
(17_security_and_tenancy.md R511). -/
opaque Config.signature : List Byte → List Byte × List Byte

/-- Whether a 133-byte key is a point of P-521 (17_security_and_tenancy.md Table 17-2, result 2). -/
opaque Config.onCurve : List Byte → Bool

/-- The keeper's n-th fresh ephemeral key pair: its public half, and the ECDH secret with a peer's
public key (17_security_and_tenancy.md R498). -/
opaque Config.ephemeralPublic : Nat → List Byte
opaque Config.ecdh : Nat → List Byte → List Byte

/-- The n-th 32-byte tenant nonce of the keeper's random source (17_security_and_tenancy.md R499). -/
opaque Config.tenantNonce : Nat → List Byte

/-- The memory root key, the identity public key and the digest of the module descriptor
(17_security_and_tenancy.md Table 17-1, Table 17-4). -/
opaque Config.memoryRoot : List Byte
opaque Config.identityPublic : List Byte
opaque Config.descriptorDigest : List Byte

/-- The certificates of the chain in flash, leaf first, each in DER (17_security_and_tenancy.md Table 17-2). -/
opaque Config.certificates : List (List Byte)

/-- The bytes of a message between the two ends of a link: the spec gives its contents and no layout
(14_links_and_cables.md R440, R441). Log entry 235. -/
opaque Config.linkMessage : LinkMsg → List Byte

/-- The identification word of the TAP, and whether a boundary register drives ALERT_N or I3C_SDA low: the spec gives neither the
word nor the order of the cells (20_module_connector.md R575). Log entry 227. -/
opaque Config.idcode : BitVec 32
opaque Config.boundaryAlert : Word × Word → Bool
opaque Config.boundarySda : Word × Word → Bool

/-- The binary32 value that an approximate vector operation first computes, as a function of its opcode, the format
of its input and the input's bits (04_benches.md R115). Log entry 7. -/
opaque Config.approx : Nat → Nat → Nat → BitVec 32

/-- The AES-256-XTS ciphertext of one line: key, tweak, plaintext (13_memory_tiers.md R415): a published
standard that the spec names. Log entry 178. -/
opaque Config.xts : List Byte → List Byte → List Byte → List Byte

/-- The 16 check bytes of a line: its ciphertext and its mark (13_memory_tiers.md R415, R419). Log entry 178. -/
opaque Config.lineCheck : List Byte → Nat → List Byte

/-- The bank and the row, within its channel, that hold a line: stack, tier, line index
(13_memory_tiers.md R421 counts per row; the spec gives no map of lines to rows). Log entry 8. -/
opaque Config.rowOf : Nat → Bool → Nat → Nat

/-- Whether a node of another module is that of an absent stack (00_scope.md R9): nothing tells the source, which
counts the access all the same (09_fabric_memory.md Table 09-6). Log entry 59. -/
opaque Config.absentNode : BitVec 16 → Bool

/-- Whether a line of a node of another module lies in a coherent window (09_fabric_memory.md R303): the windows of
another module are set in its own registers. Log entry 63. -/
opaque Config.remoteWindow : BitVec 16 → Nat → Bool

/-- The look-aside entry that a full buffer drops for a new one (08_translation.md R240). -/
opaque Config.tlbVictim : Nat → Nat

/-- The owner tag of a cell as a notice carries it (11_switch_die.md R357, R358): the spec gives its parts and no
encoding. Log entry 171. -/
opaque Config.ownerTag : CellOwner → BitVec 32

/-- Bytes less one that a unit of weight adds in the deficit round robins of an egress port
(10_spans_and_routing.md R321). -/
opaque Config.drrQuantum : Nat

end Sys2Proof
end

