-- ==== Sys2Proof/Machine/Tab.lean ====
section
/-! DEFINITION. Reading and writing the sparse tables, memory as bytes and little-endian words, and
the bit-field and sign-extension helpers that every family uses. -/

namespace Sys2Proof.Machine

/-- The value at key `k`, or the table's default. -/
def Tab.get {α : Type} (dflt : α) : Tab α → Nat → α
  | [], _ => dflt
  | (j, v) :: t, k => if j = k then v else Tab.get dflt t k

/-- The table without key `k`. -/
def Tab.erase {α : Type} : Tab α → Nat → Tab α
  | [], _ => []
  | (j, v) :: t, k => if j = k then Tab.erase t k else (j, v) :: Tab.erase t k

/-- Insert a pair before the first larger key. -/
def Tab.insert {α : Type} : Tab α → Nat → α → Tab α
  | [], k, v => [(k, v)]
  | (j, w) :: t, k, v => if k < j then (k, v) :: (j, w) :: t else (j, w) :: Tab.insert t k v

/-- Write key `k`; the entry is listed whatever its value. -/
def Tab.put {α : Type} (t : Tab α) (k : Nat) (v : α) : Tab α :=
  Tab.insert (Tab.erase t k) k v

/-- Write key `k` in canonical form: writing the default removes the entry. -/
def Tab.set {α : Type} [DecidableEq α] (dflt : α) (t : Tab α) (k : Nat) (v : α) : Tab α :=
  if v = dflt then Tab.erase t k else Tab.insert (Tab.erase t k) k v

/-- Change the value at key `k`. -/
def Tab.modify {α : Type} (dflt : α) (t : Tab α) (k : Nat) (f : α → α) : Tab α :=
  Tab.put t k (f (Tab.get dflt t k))

/-- The keys of a table. -/
def Tab.keys {α : Type} (t : Tab α) : List Nat := t.map Prod.fst

/-- Every key listed is above `lo`, and the keys rise. -/
def Tab.rising {α : Type} : Nat → Tab α → Bool
  | _, [] => true
  | lo, (k, _) :: t => decide (lo ≤ k) && Tab.rising (k + 1) t

/-! ### Memory -/

/-- What an unlisted byte reads as: zero. After start-up every line of every tier, every drawer and
every SRAM reads as zero (15_startup_and_defects.md R460, R470); for host memory it is the
model's choice (log entry 9). -/
def Mem.unlisted : Byte := 0

/-- The canonical form: addresses strictly rising, no entry equal to an unlisted byte. -/
def Mem.wf (m : Mem) : Bool :=
  Tab.rising 0 m && m.all (fun c => decide (c.2 ≠ Mem.unlisted))

def Mem.read (m : Mem) (a : Nat) : Byte := Tab.get Mem.unlisted m a

def Mem.write (m : Mem) (a : Nat) (b : Byte) : Mem := Tab.set Mem.unlisted m a b

/-- `n` bytes from address `a`. -/
def Mem.readBytes (m : Mem) (a : Nat) : Nat → List Byte
  | 0 => []
  | n + 1 => Mem.read m a :: Mem.readBytes m (a + 1) n

/-- Store bytes from address `a` upwards. -/
def Mem.writeBytes (m : Mem) (a : Nat) : List Byte → Mem
  | [] => m
  | b :: bs => Mem.writeBytes (Mem.write m a b) (a + 1) bs

/-- Drop every entry of [lo, hi). -/
def Mem.clear (m : Mem) (lo hi : Nat) : Mem :=
  m.filter (fun c => decide (c.1 < lo) || decide (hi ≤ c.1))

/-! ### Little-endian words (03_number_formats.md R49) -/

/-- The value of a little-endian byte string. -/
def leNat : List Byte → Nat
  | [] => 0
  | b :: bs => b.toNat + 256 * leNat bs

/-- `n` little-endian bytes of a number. -/
def leBytes : Nat → Nat → List Byte
  | 0, _ => []
  | n + 1, v => BitVec.ofNat 8 v :: leBytes n (v / 256)

def leWord (bs : List Byte) : Word := BitVec.ofNat 64 (leNat bs)

/-- `n` big-endian bytes (SEC1 keys, IVs, SHA inputs where the spec says so). -/
def beBytes (n v : Nat) : List Byte := (leBytes n v).reverse

def Mem.readWord (m : Mem) (a : Nat) : Word := leWord (Mem.readBytes m a 8)

def Mem.writeWord (m : Mem) (a : Nat) (w : Word) : Mem := Mem.writeBytes m a (leBytes 8 w.toNat)

/-! ### Bit fields -/

/-- Bits [hi:lo] of a number. -/
def bitsOf (w : Nat) (hi lo : Nat) : Nat := (w >>> lo) % 2 ^ (hi + 1 - lo)

def bitOf (w : Nat) (i : Nat) : Bool := (w >>> i) % 2 == 1

/-- Sign-extend the low `n` bits of a number to 64 bits. -/
def signExtend64 (n : Nat) (v : Nat) : Word := BitVec.ofInt 64 (Int.bmod (v : Int) (2 ^ n))

/-- The two's-complement value of the low `n` bits. -/
def toSigned (n : Nat) (v : Nat) : Int :=
  let r := v % 2 ^ n
  if 2 * r < 2 ^ n then (r : Int) else (r : Int) - (2 ^ n : Nat)

/-- The low `n` bits of an integer's two's-complement form. -/
def ofSigned (n : Nat) (v : Int) : Nat := (v % ((2 ^ n : Nat) : Int)).toNat

/-- The lesser of a count plus `n` and its largest value: the saturating counters of the registers. -/
def satAdd (max a n : Nat) : Nat := Nat.min max (a + n)

/-- Elements of a list by position, with a default. -/
def nth {α : Type} (dflt : α) : List α → Nat → α
  | [], _ => dflt
  | x :: _, 0 => x
  | _ :: t, i + 1 => nth dflt t i

def sumNat (l : List Nat) : Nat := l.foldl (· + ·) 0

/-- Insert before the first element that it need not follow. -/
def insertBy {α : Type} (le : α → α → Bool) (x : α) : List α → List α
  | [] => [x]
  | y :: t => if le x y then x :: y :: t else y :: insertBy le x t

/-- A list in ascending order; equal elements keep their order. -/
def sortBy {α : Type} (le : α → α → Bool) (l : List α) : List α := l.foldr (insertBy le) []

/-- Split a byte string into pieces of at most `n` bytes (n > 0), by fuel. -/
def chunksOf {α : Type} (n : Nat) : Nat → List α → List (List α)
  | 0, _ => []
  | _, [] => []
  | fuel + 1, l => l.take n :: chunksOf n fuel (l.drop n)

/-- The pieces of `len` bytes from address `va`, cut where the address is a multiple of `n`: their offsets and
lengths. A cut at a multiple of 8 splits no naturally aligned word (09_fabric_memory.md R277), and one at every
page boundary leaves no request across two pages (R272). -/
def pieces (n va len : Nat) : List (Nat × Nat) :=
  let at_ := va % n
  (List.range ((at_ + len + n - 1) / n)).map (fun i =>
    (i * n - at_, Nat.min len ((i + 1) * n - at_) - (i * n - at_)))

end Sys2Proof.Machine
end

