-- ==== Sys2Proof/Machine/NumFmt.lean ====
section
/-! DEFINITION. The element formats, rounding, and exact arithmetic on decoded values
(03_number_formats.md). A finite value is kept exactly, as an integer mantissa and a power of two,
until the one rounding that the spec gives the operation. -/

namespace Sys2Proof.Machine

/-- A decoded element: a NaN (signalling or quiet), an infinity, or the exact value ±m × 2^e. -/
inductive Val where
  | nan (signalling : Bool)
  | inf (neg : Bool)
  | num (neg : Bool) (m : Nat) (e : Int)
  deriving DecidableEq, Repr

/-- A floating-point format (Table 03-1): mantissa bits, bias, total width, the code of its largest
finite value, its canonical NaN, and whether it has infinities. -/
structure FloatFmt where
  mbits : Nat
  bias : Nat
  width : Nat
  maxCode : Nat
  nan : Nat
  hasInf : Bool
  deriving DecidableEq, Repr

def fmtK8 : FloatFmt := ⟨3, 7, 8, 0x7F, 0x80, false⟩
def fmtK8w : FloatFmt := ⟨2, 15, 8, 0x7B, 0x80, false⟩
def fmtB16 : FloatFmt := ⟨10, 15, 16, 0x7BFF, 0x7E00, true⟩
def fmtBf16 : FloatFmt := ⟨7, 127, 16, 0x7F7F, 0x7FC0, true⟩
def fmtB32 : FloatFmt := ⟨23, 127, 32, 0x7F7FFFFF, 0x7FC00000, true⟩

/-- What a format code of Table 03-1 names. A scaled code names its element format (log entry 14). -/
inductive Fmt where
  | float (f : FloatFmt)
  | int (width : Nat)
  deriving DecidableEq, Repr

/-- A number of its own for each format. -/
def Fmt.tag : Fmt → Nat
  | .float f => 2 * f.maxCode + 1
  | .int w => 2 * w

/-- The format of a code; codes 0xA to 0xF are reserved. -/
def fmtOf (code : Nat) : Option Fmt :=
  match code with
  | 0 => some (.float fmtK8)
  | 1 => some (.float fmtK8w)
  | 2 => some (.float fmtB16)
  | 3 => some (.float fmtBf16)
  | 4 => some (.float fmtB32)
  | 5 => some (.int 8)
  | 6 => some (.int 16)
  | 7 => some (.int 32)
  | 8 => some (.float fmtK8)
  | 9 => some (.float fmtK8w)
  | _ => none

/-- Element width in bits of a format code (Table 03-1); 0 for a reserved code. -/
def fmtWidth (code : Nat) : Nat :=
  match fmtOf code with
  | some (.float f) => f.width
  | some (.int w) => w
  | none => 0

def isIntFmt (code : Nat) : Bool := code == 5 || code == 6 || code == 7
def isScaledFmt (code : Nat) : Bool := code == 8 || code == 9
def isFloatFmt (code : Nat) : Bool := decide (code ≤ 4)

/-! ### Decoding (R50 to R57) -/

/-- Decode a floating-point code. K8 has no special exponent; K8w reads exponent field 31 as NaN
(R56); in the IEEE formats the top exponent field is an infinity or a NaN, quiet when its highest
mantissa bit is set. -/
def decodeFloat (f : FloatFmt) (code : Nat) : Val :=
  let c := code % 2 ^ f.width
  let neg := bitOf c (f.width - 1)
  let mag := c % 2 ^ (f.width - 1)
  let ef := mag / 2 ^ f.mbits
  let mf := mag % 2 ^ f.mbits
  if f.hasInf then
    if ef = 2 ^ (f.width - 1 - f.mbits) - 1 then
      if mf = 0 then .inf neg else .nan (!bitOf mf (f.mbits - 1))
    else if ef = 0 then .num neg mf (1 - (f.bias : Int) - f.mbits)
    else .num neg (2 ^ f.mbits + mf) ((ef : Int) - f.bias - f.mbits)
  else if c = 0x80 then .nan false
  else if mag > f.maxCode then .nan false
  else if ef = 0 then .num neg mf (1 - (f.bias : Int) - f.mbits)
  else .num neg (2 ^ f.mbits + mf) ((ef : Int) - f.bias - f.mbits)

/-- Decode an element of any format. -/
def decodeVal (f : Fmt) (code : Nat) : Val :=
  match f with
  | .float g => decodeFloat g code
  | .int w =>
    let v := toSigned w code
    .num (decide (v < 0)) v.natAbs 0

/-! ### Rounding (R66 to R72) -/

/-- rnd of Table 03-8. -/
inductive Rnd where
  | rne | rz | sr
  deriving DecidableEq, Repr

/-- The mode that an rnd field names; 0b11 is reserved. -/
def rndOf (r : BitVec 2) : Option Rnd :=
  if r = 0 then some .rne else if r = 1 then some .rz else if r = 2 then some .sr else none

/-- Whether a magnitude between adjacent representable values goes up: `rem` of `2^sh` parts lies
above the lower one, whose mantissa is `q`; `r` holds the lane's 16 random bits (R71). -/
def roundsUp (rnd : Rnd) (q rem sh r : Nat) : Bool :=
  match rnd with
  | .rne => decide (2 * rem > 2 ^ sh) || (decide (2 * rem = 2 ^ sh) && decide (q % 2 = 1))
  | .rz => false
  | .sr => decide (rem ≠ 0) && decide (2 ^ 16 ≤ rem * 2 ^ 16 / 2 ^ sh + r)

/-- Round m × 2^e to a multiple of 2^u: the multiple, and whether it is inexact. -/
def roundUnit (rnd : Rnd) (m : Nat) (e u : Int) (r : Nat) : Nat × Bool :=
  if u ≤ e then (m * 2 ^ (e - u).toNat, false)
  else
    let sh := (u - e).toNat
    let q := m / 2 ^ sh
    let rem := m % 2 ^ sh
    (if roundsUp rnd q rem sh r then q + 1 else q, decide (rem ≠ 0))

/-- The number of bits of a natural number. -/
def bitLen (m : Nat) : Nat := if m = 0 then 0 else Nat.log2 m + 1

/-- The sticky flags of R77, laid out as GETF returns them (04_benches.md R116). -/
def fInvalid : BitVec 5 := 16
def fDivZero : BitVec 5 := 8
def fOverflow : BitVec 5 := 4
def fUnderflow : BitVec 5 := 2
def fInexact : BitVec 5 := 1

/-- A floating result: its code, and the flags it raises in strict mode. -/
abbrev Rounded := Nat × BitVec 5

/-- A sign put on a magnitude code; K8 and K8w have no negative zero (R69). -/
def signed (f : FloatFmt) (neg : Bool) (mag : Nat) : Nat :=
  if neg && (f.hasInf || mag != 0) then mag + 2 ^ (f.width - 1) else mag

/-- The code of an infinite result (Table 03-5). -/
def infCode (f : FloatFmt) (ovf neg : Bool) : Nat :=
  if f.hasInf then signed f neg (f.maxCode + 1)
  else if ovf then f.nan else signed f neg f.maxCode

/-- The code of a finite result that passes the largest finite value (Table 03-5). -/
def overCode (f : FloatFmt) (rnd : Rnd) (ovf neg : Bool) : Nat :=
  if rnd = .rz || !ovf then signed f neg f.maxCode else infCode f true neg

/-- Round an exact finite value to a format. `conv` is a conversion, for which R582 raises overflow
for every value beyond the largest finite one under RZ. -/
def roundFloat (f : FloatFmt) (rnd : Rnd) (ovf conv : Bool) (r : Nat) (neg : Bool) (m : Nat) (e : Int) :
    Rounded :=
  if m = 0 then (signed f neg 0, 0)
  else
    let emin : Int := 1 - (f.bias : Int) - f.mbits
    let lead : Int := e + (bitLen m : Int) - 1 - f.mbits
    let u := max emin lead
    let (q, nx) := roundUnit rnd m e u r
    let code := (u - emin).toNat * 2 ^ f.mbits + q
    let maxM := f.maxCode % 2 ^ f.mbits + 2 ^ f.mbits
    let maxE : Int := emin + ((f.maxCode / 2 ^ f.mbits : Nat) : Int) - 1
    -- beyond the largest finite value, compared exactly
    let beyond := if e ≤ maxE then decide (maxM * 2 ^ (maxE - e).toNat < m)
      else decide (maxM < m * 2 ^ (e - maxE).toNat)
    let tooBig := decide (f.maxCode < code) || (conv && rnd = .rz && beyond)
    if tooBig then
      (overCode f rnd ovf neg, fOverflow ||| fInexact)
    else
      let (q', _) := roundUnit rnd m e lead r
      let tiny := lead < emin && decide (q' < 2 ^ (f.mbits + (emin - lead).toNat))
      (signed f neg code, if nx then (if tiny then fInexact ||| fUnderflow else fInexact) else 0)

/-- Bring an exact integer into `w` bits (R65). -/
def fitInt (w : Nat) (wrap : Bool) (v : Int) : Nat :=
  let hi : Int := 2 ^ (w - 1) - 1
  let lo : Int := -(2 ^ (w - 1))
  if wrap then ofSigned w v else ofSigned w (if hi < v then hi else if v < lo then lo else v)

/-- An exact value rounded to an integer (R84). -/
def roundInt (rnd : Rnd) (r : Nat) (neg : Bool) (m : Nat) (e : Int) : Int :=
  let q := (roundUnit rnd m e 0 r).1
  if neg then -(q : Int) else (q : Int)

/-- A value brought to a format under rnd and ovf (R66 to R69, R84, Table 03-5), with the flags
of R582 and R84. -/
def toFmt (f : Fmt) (rnd : Rnd) (ovf conv : Bool) (r : Nat) (v : Val) : Rounded :=
  match f, v with
  | .float g, .nan sig => (g.nan, if sig then fInvalid else 0)
  | .float g, .inf neg => (infCode g ovf neg, if g.hasInf then 0 else fInvalid)
  | .float g, .num neg m e => roundFloat g rnd ovf conv r neg m e
  | .int _, .nan _ => (0, fInvalid)
  | .int w, .inf neg => (fitInt w false (if neg then -(2 ^ 64) else 2 ^ 64), fInvalid)
  | .int w, .num neg m e =>
    let v := roundInt rnd r neg m e
    (fitInt w ovf v, if toSigned w (fitInt w false v) = v then 0 else fInvalid)

/-! ### Exact arithmetic -/

def Val.isNan : Val → Bool
  | .nan _ => true
  | _ => false

def Val.isSig : Val → Bool
  | .nan s => s
  | _ => false

def Val.isInf : Val → Bool
  | .inf _ => true
  | _ => false

def Val.isZero : Val → Bool
  | .num _ 0 _ => true
  | _ => false

/-- The sign of a value; a NaN counts as positive. -/
def Val.neg? : Val → Bool
  | .nan _ => false
  | .inf n => n
  | .num n _ _ => n

def Val.flip : Val → Val
  | .nan s => .nan s
  | .inf n => .inf (!n)
  | .num n m e => .num (!n) m e

def Val.abs : Val → Val
  | .nan s => .nan s
  | .inf _ => .inf false
  | .num _ m e => .num false m e

/-- The signed mantissa at exponent `u`, for u no higher than the value's own exponent. -/
def scaleTo (neg : Bool) (m : Nat) (e u : Int) : Int :=
  let v : Int := ((m * 2 ^ (e - u).toNat : Nat) : Int)
  if neg then -v else v

/-- An exact value from a signed mantissa; a zero takes the given sign. -/
def ofMant (v : Int) (u : Int) (zeroNeg : Bool) : Val :=
  if v = 0 then .num zeroNeg 0 0 else .num (decide (v < 0)) v.natAbs u

/-- The exact sum of two finite values; the sign of a zero sum is that of R583. -/
def addNum (n1 : Bool) (m1 : Nat) (e1 : Int) (n2 : Bool) (m2 : Nat) (e2 : Int) : Val :=
  let u := min e1 e2
  ofMant (scaleTo n1 m1 e1 u + scaleTo n2 m2 e2 u) u (n1 && n2 && decide (m1 = 0) && decide (m2 = 0))

/-- The exact sum of two values: opposite infinities give a NaN. -/
def addVal (a b : Val) : Val :=
  match a, b with
  | .nan s, .nan t => .nan (s || t)
  | .nan s, _ => .nan s
  | _, .nan s => .nan s
  | .inf x, .inf y => if x = y then .inf x else .nan false
  | .inf x, _ => .inf x
  | _, .inf y => .inf y
  | .num n1 m1 e1, .num n2 m2 e2 => addNum n1 m1 e1 n2 m2 e2

/-- The exact product. -/
def mulVal (a b : Val) : Val :=
  match a, b with
  | .nan s, .nan t => .nan (s || t)
  | .nan s, _ => .nan s
  | _, .nan s => .nan s
  | .inf x, .inf y => .inf (x != y)
  | .inf x, .num n m _ => if m = 0 then .nan false else .inf (x != n)
  | .num n m _, .inf x => if m = 0 then .nan false else .inf (x != n)
  | .num n1 m1 e1, .num n2 m2 e2 => .num (n1 != n2) (m1 * m2) (e1 + e2)

/-- Bits kept of a quotient or a root, more than any rounding looks at; the last one is sticky. -/
def keepBits : Nat := 400

/-- The quotient of two finite values, the divisor not zero, exact up to a sticky last bit. -/
def divNum (n1 : Bool) (m1 : Nat) (e1 : Int) (n2 : Bool) (m2 : Nat) (e2 : Int) : Val :=
  let a := m1 * 2 ^ keepBits
  let q := a / m2
  let st := if a % m2 = 0 then 0 else 1
  .num (n1 != n2) (2 * q + st) (e1 - e2 - keepBits - 1)

/-- The integer square root, by bits from `i` down. -/
def isqrtFrom (m : Nat) : Nat → Nat → Nat
  | 0, r => if (r + 1) * (r + 1) ≤ m then r + 1 else r
  | i + 1, r =>
    let t := r + 2 ^ (i + 1)
    isqrtFrom m i (if t * t ≤ m then t else r)

def isqrt (m : Nat) : Nat := isqrtFrom m (bitLen m / 2 + 1) 0

/-- The square root of a non-negative finite value, exact up to a sticky last bit. -/
def sqrtNum (m : Nat) (e : Int) : Val :=
  let (m', e') := if e % 2 = 0 then (m, e) else (2 * m, e - 1)
  let a := m' * 2 ^ (2 * keepBits)
  let q := isqrt a
  let st := if q * q = a then 0 else 1
  .num false (2 * q + st) (e' / 2 - keepBits - 1)

/-- Compare two values that are not NaN, −0 below +0 (R114, R275). -/
def ltTotal (a b : Val) : Bool :=
  match a, b with
  | .inf x, .inf y => x && !y
  | .inf x, _ => x
  | _, .inf y => !y
  | .num n1 m1 e1, .num n2 m2 e2 =>
    let u := min e1 e2
    let x := scaleTo n1 m1 e1 u
    let y := scaleTo n2 m2 e2 u
    decide (x < y) || (decide (x = y) && n1 && !n2)
  | _, _ => false

/-- Compare two values that are not NaN as numbers: zeros are equal. -/
def ltNum (a b : Val) : Bool :=
  match a, b with
  | .num n1 m1 e1, .num n2 m2 e2 =>
    decide (scaleTo n1 m1 e1 (min e1 e2) < scaleTo n2 m2 e2 (min e1 e2))
  | _, _ => ltTotal a b

def eqNum (a b : Val) : Bool := !ltNum a b && !ltNum b a

/-- MIN and MAX with the one-NaN rule (R114, R275, R363). -/
def minVal (a b : Val) : Val :=
  if a.isNan then (if b.isNan then .nan false else b)
  else if b.isNan then a else if ltTotal b a then b else a

def maxVal (a b : Val) : Val :=
  if a.isNan then (if b.isNan then .nan false else b)
  else if b.isNan then a else if ltTotal a b then b else a

/-- The exact sum of many values: NaN and infinities as R74, the zero sign as R583. -/
def sumVals (vs : List Val) : Val :=
  if vs.any Val.isNan then .nan false
  else if vs.any (fun v => v.isInf && !v.neg?) then
    (if vs.any (fun v => v.isInf && v.neg?) then .nan false else .inf false)
  else if vs.any Val.isInf then .inf true
  else
    let allNegZero := !vs.isEmpty && vs.all (fun v => v.isZero && v.neg?)
    match vs.foldl addVal (.num true 0 0) with
    | .num _ 0 _ => .num allNegZero 0 0
    | v => v

/-- binary32 code of a value, rounded with RNE, overflow to infinity. -/
def toB32 (v : Val) : Nat := (toFmt (.float fmtB32) .rne true false 0 v).1

def ofB32 (c : Nat) : Val := decodeFloat fmtB32 c

/-! ### Stochastic draws (R72) -/

def sm64 : Word := 0x9E3779B97F4A7C15

/-- The random bits of lane `i` from a generator state. -/
def srBits (state : Word) (i : Nat) : Nat :=
  let z := state + BitVec.ofNat 64 (i + 1) * sm64
  let z := (z ^^^ (z >>> 30)) * 0xBF58476D1CE4E5B9
  let z := (z ^^^ (z >>> 27)) * 0x94D049BB133111EB
  let z := z ^^^ (z >>> 31)
  (z >>> 48).toNat

/-- The generator state after one draw. -/
def srNext (state : Word) : Word := state + 64 * sm64

/-- The state of context `c` of logical bench `b` at LAUNCH. -/
def srSeed (seed : Word) (b c : Nat) : Word := seed + BitVec.ofNat 64 ((8 * b + c) * 2 ^ 32)

/-! ### Scaled blocks (R60, R62) -/

/-- The scale code of a block, from its values. -/
def blockScale (f : FloatFmt) (ovf : Bool) (vs : List Val) : Nat :=
  let fin := vs.filterMap (fun v => match v with
    | .num _ 0 _ => none
    | .num _ m e => some (m, e)
    | _ => none)
  let emax : Int := if f.mbits = 3 then 8 else 15
  let maxM : Nat := if f.mbits = 3 then 480 else 57344
  let scale1 (m : Nat) (e : Int) : Int :=
    let s := e + (bitLen m : Int) - 1 - emax + 127
    -- a × 2^(127 − s) against the largest finite value
    let k := e + 127 - s
    let big := if 0 ≤ k then decide (maxM < m * 2 ^ k.toNat) else decide (maxM * 2 ^ (-k).toNat < m)
    if big then s + 1 else s
  let raw := fin.foldl (fun (acc : Option Int) (p : Nat × Int) =>
    let s := scale1 p.1 p.2
    some (match acc with | none => s | some t => max s t)) none
  let s : Int := match raw with | none => 127 | some s => s
  if vs.any Val.isInf && !ovf then 254 else (min (max s 0) 254).toNat

/-- A value divided by a block's scale, exactly. -/
def unscale (s : Nat) (v : Val) : Val :=
  match v with
  | .num n m e => .num n m (e + 127 - s)
  | w => w

/-- A value multiplied by a block's scale; code 255 makes every element NaN (R60). -/
def rescale (s : Nat) (v : Val) : Val :=
  if s = 255 then .nan false
  else match v with
    | .num n m e => .num n m (e + s - 127)
    | w => w

end Sys2Proof.Machine
end

