-- ==== Sys2Proof/Machine/Elementary.lean ====
section
/-! DEFINITION. The exact results of VEXP2, VLOG2, VTANH and VSIGM, kept to far more bits than binary32
holds, and the test that a binary32 value lies within some units in the last place of one of them
(04_benches.md R115, Table 04-9). Fixed-point numbers carry 200 fraction bits. -/

namespace Sys2Proof.Machine

def fixBits : Nat := 200
def fixOne : Nat := 2 ^ fixBits

/-- log2 e, rounded down. -/
def fixLog2e : Nat := 0x171547652b82fe1777d0ffda0d23a7d11d6aef551bad2b4b116

/-- A value as a fixed-point number, rounded down; magnitudes of 2^11 and more are brought to 2^11. -/
def toFix (v : Val) : Int :=
  match v with
  | .num n m e =>
    let x : Nat := if 0 ≤ e then Nat.min (m * 2 ^ Nat.min e.toNat 2048 * fixOne) (2 ^ 11 * fixOne)
      else Nat.min (m * fixOne / 2 ^ (-e).toNat) (2 ^ 11 * fixOne)
    if n then -(x : Int) else (x : Int)
  | _ => 0

/-- The product of 2^(2^-i) over the set bits of a fraction, from the bit of weight 2^-i on; `root` is the
power before. -/
def exp2Bits : Nat → Nat → Nat → Nat → Nat
  | 0, _, _, acc => acc
  | k + 1, frac, root, acc =>
    let r := isqrt (root * fixOne)
    let up := decide (fixOne ≤ 2 * frac)
    exp2Bits k (2 * frac % fixOne) r (if up then acc * r / fixOne else acc)

/-- 2 to a fixed-point power. -/
def exp2Fix (x : Int) : Val :=
  let one : Int := (fixOne : Int)
  let n := x.fdiv one
  .num false (exp2Bits 120 (x - n * one).toNat (2 * fixOne) fixOne) (n - fixBits)

def exp2Val (v : Val) : Val := exp2Fix (toFix v)

/-- e to a fixed-point power. -/
def expFix (x : Int) : Val := exp2Fix ((x * (fixLog2e : Int)).fdiv (fixOne : Int))

/-- Bits of the logarithm of a fixed-point number from 1 to 2, by repeated squaring. -/
def log2Bits : Nat → Nat → Nat → Nat
  | 0, _, acc => acc
  | k + 1, z, acc =>
    let y := z * z / fixOne
    if 2 * fixOne ≤ y then log2Bits k (y / 2) (2 * acc + 1) else log2Bits k y (2 * acc)

/-- The binary logarithm of a positive value, to 100 fraction bits. -/
def log2Val (v : Val) : Val :=
  match v with
  | .num _ m e =>
    let b := bitLen m - 1
    let z := m * fixOne / 2 ^ b
    ofMant ((e + b) * 2 ^ 100 + (log2Bits 100 z 0 : Int)) (-100) false
  | w => w

/-- The hyperbolic tangent: x − x³/3 below 2^-20, 1 from 64 on, else from the exponential. -/
def tanhVal (v : Val) : Val :=
  match v with
  | .num n m e =>
    let one : Val := .num false 1 0
    let x := toFix (.num false m e)
    let t : Val :=
      if x < 2 ^ 180 then
        match mulVal (.num false m e) (addVal (.num false 3 0) (mulVal (.num true m e) (.num false m e))) with
        | .num _ a b => divNum false a b false 3 0
        | w => w
      else if 64 * (fixOne : Int) ≤ x then one
      else
        let y := expFix (2 * x)
        match addVal y (.num true 1 0), addVal y one with
        | .num _ a b, .num _ c d => divNum false a b false c d
        | w, _ => w
    if n then t.flip else t
  | w => w

/-- The logistic function 1 / (1 + e^-x). -/
def sigmVal (v : Val) : Val :=
  match v with
  | .num n m e =>
    let y := expFix (-(toFix (.num false m e)))
    match addVal (.num false 1 0) y, (if n then y else .num false 1 0) with
    | .num _ c d, .num _ a b => divNum false a b false c d
    | w, _ => w
  | w => w

/-- y lies within `k` units in the last place of v, a unit being binary32's at v. An infinity counts as the next
power of two. The margin of 2^-60 unit covers the error of the values of this file. -/
def withinUlp (k : Nat) (v y : Val) : Bool :=
  let fin (w : Val) : Val := match w with
    | .inf n => .num n 1 128
    | w => w
  match v, fin y with
  | .num n1 m1 e1, .num n2 m2 e2 =>
    let ulp : Int := if m1 = 0 then -149 else max (e1 + bitLen m1 - 1) (-126) - 23
    let b := min (min e1 e2) (ulp - 60)
    decide ((scaleTo n1 m1 e1 b - scaleTo n2 m2 e2 b).natAbs
      ≤ k * 2 ^ (ulp - b).toNat + 2 ^ (ulp - 60 - b).toNat)
  | _, _ => false

end Sys2Proof.Machine
end

