-- ==== Sys2Proof/Machine/State.lean ====
section
/-! DEFINITION. The state of the module: every register, memory, queue, counter, mode and pin the
spec gives it, as plain data, with the state right after reset. The registers of Table 19-2 live in
`State.regs` under their own names; a register that is not listed there holds its reset value
(`Reg.reset` in Machine/Regs.lean). RO fields that only report other state (a fill count, a number
of entries) are computed from that state when the register is read (Machine/RegRead.lean). -/

namespace Sys2Proof.Machine

/-- The set-up registers of 19_register_map.md Table 19-2, with their indices: n stack, b logical
bench, c context, core or translation context, p port, r ring, rack or row, k counter or profile. -/
inductive Reg where
  | CAP_ID
  | CAP_UNITS
  | CAP_START
  | CAP_DEFECT_COUNT
  | CAP_RECOVERY
  | CAP_POSITION
  | CAP_DEFECT (i : Nat)
  | HOSTIF_LINK
  | HOSTIF_RING_CFG (r : Nat)
  | HOSTIF_RING_DESC (r : Nat)
  | HOSTIF_RING_CPL (r : Nat)
  | HOSTIF_RING_DB (r : Nat)
  | HOSTIF_RING_IDX (r : Nat)
  | HOSTIF_RING_STATUS (r : Nat)
  | HOSTIF_RING_SEQ (r : Nat)
  | HOSTIF_RING_CIDX (r : Nat)
  | HOSTIF_NOTIFY
  | HOSTIF_NOTICE_STATUS
  | BEAT_NOW
  | BEAT_STATUS
  | PWR_STATUS
  | PWR_EVENTS
  | PWR_LIMITS
  | PWR_PENDING
  | PWR_STEP (n : Nat)
  | SEC_CMD
  | SEC_STATUS
  | SEC_DEBUG
  | SEC_STACK
  | SEC_DEBUG_ACCESS_CTL
  | SEC_DEBUG_ACCESS_DATA
  | SEC_TENANT (t : Nat)
  | SWC_CELL_CFG
  | SWC_CELL_STATUS
  | SWC_AUDIT
  | SWC_COMBINE_STATUS
  | SWC_ROUTE_CFG
  | SWC_TENANT_Q
  | SWC_RACK_ROUTE_GW (r : Nat)
  | SWC_RACK_ROUTE_VIA (r : Nat)
  | SWC_TRESTLE_STATUS
  | SWC_FENCE_STATUS
  | SWC_QUIET (r k : Nat)
  | SWC_QUIET_CLEAR
  | PORT_CTRL (p : Nat)
  | PORT_STATUS (p : Nat)
  | PORT_LANES (p : Nat)
  | PORT_ERR (p : Nat)
  | PORT_FEC_CORR (p : Nat)
  | PORT_SHARE (p : Nat)
  | PORT_RED (p k : Nat)
  | PORT_FWD (p : Nat)
  | ABT_CWIN_CFG (n : Nat)
  | ABT_CWIN_STATUS (n : Nat)
  | ABT_DEAD_STATUS (n : Nat)
  | ABT_LINE_STATUS (n : Nat)
  | ABT_METER (n : Nat)
  | ABT_THROTTLE (n : Nat)
  | ABT_SPAN_STATUS (n : Nat)
  | ABT_COLL_CFG (n : Nat)
  | ABT_COLL_STATUS (n : Nat)
  | ABT_LAGGARD (n : Nat)
  | ABT_ARRIVAL (n : Nat)
  | ABT_RECOVERY (n : Nat)
  | XLT_CFG (n : Nat)
  | XLT_FQ_IDX (n : Nat)
  | XLT_FQ_RESOLVE (n : Nat)
  | XLT_STATUS (n : Nat)
  | XLT_CTX (n c : Nat)
  | BCH_WDOG_CFG (n : Nat)
  | BCH_RESEAT (n : Nat)
  | BCH_CLOCK (n : Nat)
  | BCH_ROW_MAP (n y : Nat)
  | BCH_CTX_STATUS (n b c : Nat)
  | BCH_CTX_CTRL (n b c : Nat)
  | BCH_BENCH_CFG (n b : Nat)
  | BCH_LINK_STATUS (n b : Nat)
  | HCORE_BOOT (n : Nat)
  | HCORE_CFG (n : Nat)
  | HCORE_EVT_IDX (n : Nat)
  | HCORE_CORE (n c : Nat)
  | HCORE_DRING_CFG (n r : Nat)
  | HCORE_DRING_IDX (n r : Nat)
  | HCORE_WEIGHTS_ADDR (n : Nat)
  | HCORE_WEIGHTS_CTRL (n : Nat)
  | HCORE_SEC_STATE (n : Nat)
  | MEM_CFG (n : Nat)
  | MEM_STATUS (n : Nat)
  | MEM_ERR_COUNT (n : Nat)
  | MEM_ERR_LOG (n : Nat)
  deriving DecidableEq, Repr

/-- The states of a bench context (04_benches.md Table 04-2). -/
inductive CtxSt where
  | idle | run | waitRemote | waitFault | waitFlag | waitBeat | waitLink
  | halted | hung | killed | stopped
  deriving DecidableEq, Repr

/-- What a context in WAIT_LINK, WAIT_FLAG, WAIT_BEAT or in a wait of FFENCE or HALT waits for
(04_benches.md R125, R126, R142; 09_fabric_memory.md R282). -/
inductive Wait where
  | flag (addr : Nat) (least : Word)
  | beat (b : BitVec 48)
  | send (link : Nat) (data : List (List Byte))
  | recvV (link : Nat) (v : Nat)
  | recvD (link : Nat) (addr left : Nat)
  | sendD (link : Nat) (addr left : Nat)
  | fence
  | halt
  deriving DecidableEq, Repr

/-- One hardware context (04_benches.md R86, Tables 04-1, 04-2, 04-13). -/
structure Ctx where
  /-- STATE of BCH_CTX_STATUS; reset IDLE -/
  st : CtxSt
  /-- the state a HUNG context left, to which RESUME returns it (R129) -/
  hungFrom : CtxSt
  /-- CAUSE of the last stop (Table 04-13); reset 0 -/
  cause : BitVec 4
  /-- the next bundle; bundle_count once the last bundle has been issued (R133); reset 0 -/
  pc : Nat
  /-- s0 to s31, 64 bits (Table 04-1); unlisted reads 0 (R88) -/
  sregs : Tab Word
  /-- v0 to v63, lane i of v at key 64 v + i (Table 04-1); unlisted reads 0 -/
  vregs : Tab Lane
  /-- k0 to k15 (Table 04-1); unlisted reads 0; k0 is never listed (R87) -/
  kregs : Tab Word
  /-- the accumulator tile, element (i, j) at key 64 i + j (Table 04-1); unlisted reads 0 -/
  tile : Tab Lane
  /-- the tile carries int32 (R591); reset binary32 -/
  tileInt : Bool
  /-- stochastic generator state (R72); 64 bits, reset 0 -/
  rng : Word
  /-- strict flags [4] invalid, [3] division by zero, [2] overflow, [1] underflow, [0] inexact (R116) -/
  flags : BitVec 5
  /-- translation context of its fabric accesses (08_translation.md R231) -/
  xctx : Nat
  /-- handle of the LAUNCH that started it (04_benches.md R135); 0 none -/
  launch : Nat
  /-- progress timer: ticks counted before `timerFrom` (R127) -/
  timerAcc : Nat
  /-- the moment from which the timer runs -/
  timerFrom : Nat
  /-- stopped by debug (19_register_map.md R556) -/
  dbgStop : Bool
  /-- what it waits for before its next bundle; empty when nothing. A bundle with a wait in slot 0
  and another in slot 1 leaves two. -/
  waits : List Wait
  /-- a job teardown reached it since its LAUNCH (R135) -/
  torn : Bool
  /-- registers whose result is not ready: register key to the bench cycle at which it is
  (04_benches.md R89, R124); keys 0 to 31 s, 32 to 95 v, 96 to 111 k -/
  ready : Tab Nat
  /-- bench cycle at which the tile's result is ready (R89) -/
  tileReady : Nat
  /-- bench cycle at which its last array operation, and its last drain, has finished (R98) -/
  arrDone : Nat
  /-- its previous bundle held an access that leaves the bench, or YIELD (R90, R91) -/
  left : Bool
  /-- the CAUSE of a stop that has met it in HUNG and waits for RESUME (18_faults_and_recovery.md R525); 0 none -/
  stopDue : Nat
  deriving DecidableEq, Repr

/-- One logical bench (04_benches.md R86; 05_spatial_pipelines.md R140). JOB and CLOSED_USE are in
its registers. -/
structure Bench where
  /-- its eight contexts -/
  ctxs : Tab Ctx
  /-- program store, 64-bit instruction words (Table 04-1): word 4 i + slot of bundle i; unlisted 0 -/
  prog : Tab Word
  /-- bundle_count of the loaded image (R133); reset 0 -/
  bundles : Nat
  /-- arithmetic cycles so far; the model's own -/
  cycle : Nat
  /-- context that issued last (R90); reset 7, so that the first search starts at context 0 -/
  last : Nat
  /-- bundles it has issued in a row (R90) -/
  inRow : Nat
  /-- the last cycle issued a bundle (R90) -/
  issued : Bool
  /-- cycle until which the vector engine is held (R124) -/
  vecHeld : Nat
  /-- cycle until which the array is held (R124) -/
  arrHeld : Nat
  /-- receive buffer of each link, oldest granule first (R140); at most 6 granules of 256 bytes;
  a granule with an uncorrectable error (R145) is held as no bytes -/
  rx : Tab (List (List Byte))
  /-- granules under way on each outgoing link -/
  flight : Tab (List (List Byte))
  /-- credits this bench has used on each outgoing link (R140): credit count is 6 less this -/
  used : Tab Nat
  /-- freed entries whose credit is on its way back to this sender, per outgoing link -/
  creditBack : Tab Nat
  /-- the context that owns each send direction, plus 1; 0 none (R142) -/
  txOwner : Tab Nat
  /-- the context that owns each receive direction, plus 1 (R142) -/
  rxOwner : Tab Nat
  /-- contexts waiting on a send direction in issue order (R142) -/
  txQueue : Tab (List Nat)
  /-- contexts waiting on a receive direction in issue order (R142) -/
  rxQueue : Tab (List Nat)
  deriving DecidableEq, Repr

/-- Who issued an access: a bench context, a descriptor, or an engine of the stack
(09_fabric_memory.md, before R278; 07_rings_and_doorbells.md R210). -/
inductive Src where
  | ctx (bench ctx : Nat)
  | ring (ring : RingId) (desc : Nat)
  | rebuild (request : Nat)
  deriving DecidableEq, Repr

/-- Where a request of a source abutment stands. -/
inductive ReqSt where
  | walking   -- its translation is not known yet (08_translation.md R244)
  | held      -- translated, waiting at the abutment (09_fabric_memory.md R278)
  | sent      -- sent and unanswered (R285)
  | done      -- answered, its reply not yet delivered to its context (04_benches.md R100)
  deriving DecidableEq, Repr

/-- One request, or one page piece of an access (09_fabric_memory.md R272). -/
structure Req where
  /-- the model's own number for it -/
  id : Nat
  src : Src
  /-- number of the instruction or descriptor operand it is a piece of (R272, 04_benches.md R92) -/
  acc : Nat
  /-- op of Table 10-3: 1 LOAD, 2 STORE, 3 KEYSTONE, 4 ATOMIC, 5 ACCUM -/
  op : BitVec 8
  param : BitVec 8
  xctx : Nat
  va : Nat
  len : Nat
  payload : List Byte
  st : ReqSt
  node : BitVec 16
  offset : Nat
  seq : BitVec 32
  firstSent : Nat
  resends : Nat
  /-- register that the result goes to: key as in `Ctx.ready`; 0 none -/
  dest : Nat
  /-- first byte of the result within that register -/
  destOff : Nat
  /-- the span that carries it, plus 1; 0 routed (05_spatial_pipelines.md R147) -/
  span : Nat
  /-- the spans that were active at the abutment and admitted its bench when it issued (R147) -/
  offers : List (BitVec 16)
  /-- the access breaks the alignment or length rules of Table 09-6 -/
  bad : Bool
  /-- the reply, once it has come -/
  reply : List Byte
  /-- the reply was poisoned (R100) -/
  poisoned : Bool
  deriving DecidableEq, Repr

/-- A translation: an aligned block of pages (08_translation.md R242). -/
structure TlbEntry where
  ctx : Nat
  /-- first virtual byte of the block -/
  va : Nat
  /-- bytes covered: its run of pages -/
  size : Nat
  /-- bytes of one page of the run (R272) -/
  page : Nat
  node : BitVec 16
  base : Nat
  /-- rights A, W, R as Table 08-3 orders them: bit 2 A, bit 1 W, bit 0 R -/
  rights : BitVec 3
  /-- bench and context of each access translated through it (R250) -/
  users : List (Nat × Nat)
  deriving DecidableEq, Repr

/-- A pointer entry held by the walk cache (08_translation.md R240): the table of `level` for `va`. -/
structure WalkPtr where
  ctx : Nat
  level : Nat
  va : Nat
  table : Nat
  deriving DecidableEq, Repr

/-- A waiter of a walk or a fault (08_translation.md Table 08-9). -/
inductive Waiter where
  | ctx (bench ctx req : Nat)
  | desc (ring : RingId) (desc word : Nat)
  deriving DecidableEq, Repr

/-- A walk in progress on a walker (08_translation.md R243, R244). -/
structure Walk where
  ctx : Nat
  page : Nat
  access : BitVec 2
  waiters : List Waiter
  deriving DecidableEq, Repr

/-- An open fault (08_translation.md R258, R262). -/
structure Fault8 where
  ctx : Nat
  page : Nat
  cause : BitVec 4
  level : BitVec 3
  access : BitVec 2
  entry : Word
  beat : BitVec 48
  waiters : List Waiter
  /-- its seq once written; none while held (R262) -/
  seq : Option (BitVec 16)
  deriving DecidableEq, Repr

/-- A shootdown in its drain step (08_translation.md R250). -/
structure Shoot where
  id : Nat
  ctx : Nat
  lo : Nat
  len : Nat
  /-- descriptors that must complete -/
  descs : List Nat
  /-- accesses (`Req.acc`) that must be answered or abandoned -/
  reqs : List Nat
  /-- the INVALIDATE that asked for it; none for a write of XLT_CTX (R266) -/
  asker : Option Nat
  deriving DecidableEq, Repr

/-- An applied sequence number and the reply of an atomic (09_fabric_memory.md R286). -/
structure Applied where
  src : BitVec 16
  seq : BitVec 32
  reply : List Byte
  poison : Bool
  deriving DecidableEq, Repr

/-- The window of a destination (10_spans_and_routing.md R333). -/
structure Window where
  w : Nat
  unmarked : Nat
  /-- beat of the last halving, plus 1; 0 never -/
  halvedAt : Nat
  deriving DecidableEq, Repr

/-- A line the home directory tracks (09_fabric_memory.md R304). -/
structure DirLine where
  line : Nat
  holders : List (BitVec 16)
  deriving DecidableEq, Repr

/-- A request that a target abutment holds until its turn has come on each of its lines: how many of them, from the
lowest, it has come on (09_fabric_memory.md R292). -/
structure LineHold where
  pkt : Packet
  lines : Nat
  deriving DecidableEq, Repr

/-- An invalidation under way (09_fabric_memory.md R304, 11_switch_die.md R355). -/
structure Inval where
  number : BitVec 32
  line : Nat
  holder : BitVec 16
  firstSent : Nat
  resends : Nat
  deriving DecidableEq, Repr

/-- Span states at the source (10_spans_and_routing.md Table 10-6). -/
inductive SpanSt where
  | requested | armed | active | draining | paused | closing | closed
  deriving DecidableEq, Repr

/-- A frame kept at the source until it is acknowledged (10_spans_and_routing.md R313, R334). -/
structure SentFrame where
  count : Nat
  req : Nat
  frame : Frame
  sentAt : Nat
  deriving DecidableEq, Repr

/-- An outgoing span (10_spans_and_routing.md R315). -/
structure SpanOut where
  id : BitVec 16
  st : SpanSt
  openDesc : Nat
  dstNode : BitVec 16
  dstBase : Nat
  dstLen : Nat
  share : Nat
  cells : Nat
  openBeat : BitVec 48
  first : Nat
  last : Nat
  label : BitVec 16
  epoch : BitVec 4
  /-- data frames sent so far, modulo 2^32 (R313) -/
  count : Nat
  /-- count acknowledged so far -/
  acked : Nat
  /-- frames waiting to be sent, oldest first (R320) -/
  queue : List SentFrame
  /-- frames sent and not acknowledged -/
  sent : List SentFrame
  /-- N of the drain marker (R336) -/
  drainAt : Nat
  /-- moment the request or the pause began -/
  since : Nat
  /-- moment the SPAN_SYNC of a re-route or of the end of a pause was first sent (R335, R339, R340) -/
  syncAt : Nat
  syncs : Nat
  /-- job of the context that opened it, for R529 -/
  xctx : Nat
  /-- a drain marker that waits for room on the old path (R336) -/
  marker : Option Frame
  /-- what a SYNC_REPLY is for: 0 the recovery of R335, 1 a re-route (R339), 2 the end of a pause (R340) -/
  sync : Nat
  deriving DecidableEq, Repr

/-- An incoming span record (10_spans_and_routing.md R313, R337). -/
structure SpanIn where
  src : BitVec 16
  id : BitVec 16
  /-- its dst_base -/
  base : Nat
  epoch : BitVec 4
  applied : Nat
  sinceAck : Nat
  /-- moment of the earliest applied frame not yet acknowledged, plus 1; 0 none -/
  ackFrom : Nat
  /-- drain marker received: its count -/
  drain : Option Nat
  /-- frames received and not yet applied: those of the next epoch wait (R337) -/
  waiting : List Frame
  /-- a frame of its epoch was lost to a cell error (11_switch_die.md R351): none after it is applied -/
  broken : Bool
  deriving DecidableEq, Repr

/-- A bound group (12_collectives.md R385). -/
structure Group where
  id : BitVec 16
  bound : Bool
  broken : Bool
  members : Nat
  rank : Nat
  up : BitVec 16
  down : BitVec 16
  /-- collectives started since it was bound, modulo 256 -/
  count : Nat
  /-- moment the GROUP_REQUEST was sent -/
  since : Nat
  /-- failed checks of each frame on the down label (R400): key chunk index × 32 + position × 4 + round -/
  refetched : Tab Nat
  deriving DecidableEq, Repr

/-- A collective in progress on one member (12_collectives.md R388). -/
structure Coll where
  desc : Nat
  group : BitVec 16
  inst : BitVec 8
  started : Nat
  /-- 0 waiting for its group to be bound, 1 header sent, 2 header result taken, 3 data round, 4 tally sent;
  complete at its header result with its tally to be sent (5) or sent (6) (R408) -/
  phase : Nat
  arrival : BitVec 48
  aMin : Nat
  latest : Nat
  headerIncomplete : Bool
  mismatch : Bool
  /-- data frames still expected -/
  expected : Nat
  /-- data frames that failed for the fourth time before the header result came (R388, R400) -/
  lostEarly : Nat
  /-- chunks recorded as failed (R401) -/
  failedChunks : List Nat
  /-- tally result lanes: present, holding a failed chunk, lowest failed chunk, key; and seen mask -/
  tally : Tab Nat
  tallyIncomplete : Bool
  /-- data frames that have passed their checks before the header result came, oldest first (R388, R400) -/
  early : List Frame
  deriving DecidableEq, Repr

/-- The shadowing role of a stack (18_faults_and_recovery.md R534 to R539). ROLE, MATCHES and STEP
are in ABT_RECOVERY. -/
structure Shadow where
  peer : BitVec 16
  job : BitVec 16
  stepAddr : Nat
  stepBench : Nat
  stepCtx : Nat
  k : Nat
  /-- the sum of d over the outputs of the present step, in the order of issue as far as their addresses are known -/
  digest : Word
  /-- outputs that an earlier one without a fabric address keeps out of the digest: number of the access, d, and whether
  it closes the step, in the order of issue (R535) -/
  late : List (Nat × Word × Bool)
  own : List (BitVec 32 × Word)
  theirs : List (BitVec 32 × Word)
  swapAt : Option (BitVec 48)
  deriving DecidableEq, Repr

/-- A REBUILD or DIGEST_REQ in progress (18_faults_and_recovery.md R541). -/
structure Rebuild where
  req : RegionReq
  copy : Bool
  /-- the DMA engine that carries it, plus 1; 0 none -/
  engine : Nat
  /-- the copy has begun: it has found a free engine (07_rings_and_doorbells.md R588) -/
  begun : Bool
  result : Nat
  digest : Word
  deriving DecidableEq, Repr

/-- A weights declaration in progress (17_security_and_tenancy.md R509). -/
structure Weights where
  offset : Nat
  pages : Nat
  deriving DecidableEq, Repr

/-- A job teardown in progress (18_faults_and_recovery.md R528, R529). -/
structure Tear where
  job : BitVec 16
  cause : Nat
  /-- a TEARDOWN message waits for TEARDOWN_DONE (R531) -/
  answer : Bool
  deriving DecidableEq, Repr

/-- The privilege modes of a host core (06_host_cores.md R166): the firmware's, and the runtime's two. -/
inductive CoreMode where
  | machine | supervisor | user
  deriving DecidableEq, Repr

/-- What a host core was last started with (06_host_cores.md R166, R167, R188): its first three argument registers and
the address it starts at; and the mode in which it is. -/
structure CoreStart where
  a0 : Nat
  a1 : Nat
  a2 : Nat
  at_ : Nat
  mode : CoreMode
  deriving DecidableEq, Repr

/-- A core that has not been started: machine mode, in the firmware (06_host_cores.md R166). -/
def CoreStart.reset : CoreStart := ⟨0, 0, 0, 0, .machine⟩

/-- An access of a host core within the node windows that its stack's abutment holds: for a row repair
(13_memory_tiers.md R422) or for the invalidation of copies (09_fabric_memory.md R304). -/
structure CoreAcc where
  core : Nat
  op : CoreOp
  off : Nat
  bytes : Nat
  value : Word
  compare : Word
  deriving DecidableEq, Repr

/-- One compute stack with its base die, abutment and tiers. -/
structure Stack where
  benches : Tab Bench
  /-- drawers, byte a of logical bench b at key 0x100000 b + a (04_benches.md R94); unlisted 0 -/
  drawer : Mem
  /-- drawer words (key divided by 8) that hold an uncorrectable error (R100) -/
  drawerBad : List Nat
  /-- drawer words that hold a single-bit error (R100) -/
  drawerSoft : List Nat
  /-- single-bit errors corrected and counted; no register shows the count (R100) -/
  drawerFixed : Nat
  /-- runtime SRAM, 8 MiB (06_host_cores.md R165); unlisted 0 -/
  sram : Mem
  /-- near tier by near-tier offset (09_fabric_memory.md R267); unlisted 0 -/
  near : Mem
  /-- far tier by offset within the tier; unlisted 0 -/
  far : Mem
  /-- line marks of the near tier: 0 BLANK, 1 DATA, 2 POISON (13_memory_tiers.md R417) -/
  nearMark : Tab Nat
  farMark : Tab Nat
  /-- 16-bit symbols in error that a read of a line will find (R419, R420) -/
  nearErr : Tab Nat
  farErr : Tab Nat
  /-- moment and line of the reads that found a correctable error, latest first, per row (R421); the row key is
  rowKey -/
  rowReads : Tab (List (Nat × Nat))
  /-- rows whose repair is due and has not begun (R421) -/
  rowsDue : List Nat
  /-- rows being repaired (R422) -/
  repairing : List RowId
  /-- line indices that the patrol's present pass has read, as ascending ranges [lo, hi), per tier (R424) -/
  patrolNear : List (Nat × Nat)
  patrolFar : List (Nat × Nat)
  /-- moment from which that pass reads (R424) -/
  patrolFrom : Nat
  -- translation (08_translation.md)
  tlb : List TlbEntry
  walkCache : List WalkPtr
  /-- the requests and descriptors that wait for a walker, in the order they missed (R244) -/
  misses : List Waiter
  walks : List Walk
  faults : List Fault8
  shoots : List Shoot
  /-- owner job of each translation context (18_faults_and_recovery.md R527); 0 none -/
  owner : Tab Nat
  -- abutment, source side
  reqs : List Req
  /-- next sequence number to each node (09_fabric_memory.md R284) -/
  seqTo : Tab Nat
  dead : List (BitVec 16)
  fenced : List (BitVec 16)
  /-- moment of the last answer from each node (R294) -/
  heard : Tab Nat
  windows : Tab Window
  tc : Nat
  te : Nat
  meterAt : Nat
  -- abutment, target side
  applied : List Applied
  /-- source served last on a line (R292) -/
  lineTurn : Tab Nat
  /-- requests whose turn has come on some of their lines (R292) -/
  lineHolds : List LineHold
  /-- the operations that have come to the abutment for lines of its memory, in arrival order (R292, R293) -/
  lineOrder : List Packet
  dir : List DirLine
  invals : List Inval
  invalNext : BitVec 32
  /-- the former window while ABT_CWIN_CFG.BUSY is set (R307): base and size, GiB -/
  oldWindow : Option (Nat × Nat)
  spansOut : List SpanOut
  spansIn : List SpanIn
  groups : List Group
  colls : List Coll
  shadow : Shadow
  rebuilds : List Rebuild
  tears : List Tear
  -- clock and re-seat (05_spatial_pipelines.md)
  /-- applied step evaluated and not yet in effect (R154) -/
  nextStep : Option Nat
  nextNeighbour : Bool × Bool
  /-- logical benches that run ballast (16_power.md R481) -/
  ballast : List Nat
  /-- rows that a running re-seat changes: row and new bypass (R162) -/
  reseat : List (Nat × Nat)
  -- host cores
  /-- a copy of a runtime image under way (R167): its near-tier offset and its pages -/
  booting : Option (Nat × Nat)
  /-- moment each core's watchdog last restarted (06_host_cores.md R186) -/
  kicked : Tab Nat
  /-- what each core was last started with, and its mode (R166, R167, R188) -/
  coreArgs : Tab CoreStart
  /-- records of the events for which the ring had no room, latest last: a step that posts several ranks those that it
  has added here among those that it has written (R180) -/
  unposted : List (List Byte)
  /-- ring that the stack's descriptor arbiter took last: 0 to 7 device-side, 8 + r host ring r (06_host_cores.md R185) -/
  lastRing : Nat
  weights : Option Weights
  /-- accesses of its cores that the abutment holds, oldest first -/
  coreHeld : List CoreAcc
  /-- frames of its members and hosted entries that wait for cells of their label's entry, oldest first
  (11_switch_die.md R349, R370) -/
  upWait : List Frame
  -- security
  nearKey : List Byte
  farKey : List Byte
  measCore : List Byte
  measBench : List Byte
  measWeights : List Byte
  /-- step of R505 that a release has reached; 0 none -/
  releasing : Nat
  /-- the stack is out of reset (15_startup_and_defects.md R452 step 3) -/
  up : Bool
  deriving DecidableEq, Repr

/-- Where a descriptor stands (07_rings_and_doorbells.md R208, R211). -/
inductive DescSt where
  | waitFault     -- an operand waits on a page fault, or on a walk in progress (R211; 08_translation.md R244)
  | waitSegs      -- the segment store lacks room, or no walker is free (08_translation.md R248)
  | waitHeader    -- the header of its program image is being read: it gives the extent of the operand (08_translation.md R246)
  | fetched       -- checked and translated, or failed; not started
  | started       -- started, its operation to come
  | armed         -- waits for its beat
  | running       -- its work is under way
  | finished      -- its effects are acknowledged, its record to be written
  deriving DecidableEq, Repr

/-- A segment: a range of an operand on consecutive fabric addresses (08_translation.md R246). -/
structure Seg where
  word : Nat
  va : Nat
  len : Nat
  node : BitVec 16
  offset : Nat
  rights : BitVec 3
  /-- bytes of its smallest page (09_fabric_memory.md R272) -/
  page : Nat
  deriving DecidableEq, Repr

/-- What a running descriptor is doing. -/
inductive DescPhase where
  | idle
  | header    -- its program image is longer than at its fetch: the rest of it is being translated
  | source    -- reading its source
  | dest      -- writing its destination
  | flag      -- its last keystone or digest store is under way
  | held      -- runs until something else ends: contexts, shootdowns, a collective, a span
  | ending    -- has failed; its sent accesses are still unanswered
  deriving DecidableEq, Repr

/-- A fetched descriptor (07_rings_and_doorbells.md R207). -/
structure Desc where
  handle : Nat
  ring : RingId
  index : Nat
  words : List Word
  stack : Nat
  /-- translation context of its operands (08_translation.md R231) -/
  xctx : Nat
  st : DescSt
  phase : DescPhase
  /-- bytes it has read -/
  data : List Byte
  /-- accesses a FENCE covers, or shootdowns an INVALIDATE waits for -/
  waits : List Nat
  status : BitVec 8
  detail : BitVec 32
  segs : List Seg
  /-- segments of a program image before the page that it waits for (R10) -/
  before : List Seg
  /-- order of acceptance over the module (02_rack_beat.md R39) -/
  order : Nat
  /-- DMA engine that carries it, plus 1; 0 none (R588) -/
  engine : Nat
  /-- its place among the started descriptors (R208); 0 not started -/
  startNo : Nat
  /-- moment a request to the fabric manager was sent -/
  since : Nat
  deriving DecidableEq, Repr

/-- A scheduled sideband message (16_power.md R483). -/
structure Held where
  isCap : Bool
  value : Nat
  beat : BitVec 48
  order : Nat
  deriving DecidableEq, Repr

/-- The in-band beat check of a link (02_rack_beat.md R33). -/
structure LinkCheck where
  part : Bool
  agrees : Bool
  /-- difference at the last check, in 1/256 beat -/
  d : Int
  /-- beats passed (`Beat.total`) at the last check received -/
  heardAt : Nat
  /-- beats passed at the last check sent, plus 1; 0 none -/
  sentAt : Nat
  deriving DecidableEq, Repr

/-- The beat block (02_rack_beat.md). -/
structure Beat where
  /-- the count; 48 bits, reset 0 (Table 02-3) -/
  count : BitVec 48
  /-- a beat number has been loaded (R30) -/
  loaded : Bool
  /-- the last delivery: upper 28 bits of the next marker, and M (R30, R574) -/
  delivered : Option (BitVec 28 × BitVec 8)
  /-- edges have come -/
  edges : Bool
  lastEdge : Nat
  /-- consecutive beats whose own length is in tolerance, give or take the jitter of Table 20-4 (R31) -/
  inTol : Nat
  /-- moments of the last 1,025 edges, latest first: the ends of the last 1,024 beats (R28, R31, R46) -/
  recent : List Nat
  /-- beats since the last load (R31) -/
  sinceLoad : Nat
  /-- start and edges of the present window of 1,024 beats (R42) -/
  winStart : Nat
  winEdges : Nat
  /-- last good edge and the count there (R42) -/
  goodAt : Nat
  goodCount : BitVec 48
  /-- beats passed since reset, while LOST up to the last good edge; no load changes it; the model's own -/
  total : Nat
  /-- ticks of 1,024 beats, as the last window found within the range of R42 measured them: the rate of the local
  estimate (R43) -/
  span : Nat
  /-- LOST has been set for more than 100 ms (R44) -/
  lostLong : Bool
  /-- comparison of R46: edges compared, largest phase error in 1/256 beat, all in tolerance -/
  cmpEdges : Nat
  cmpErr : Nat
  cmpCount : BitVec 48
  /-- beat number since which a load has been made while MISMATCH was set (R35) -/
  reloaded : Bool
  /-- in-band check per external port (R33) -/
  links : Tab LinkCheck
  deriving DecidableEq, Repr

/-- A notice held for the fabric manager (18_faults_and_recovery.md R519, R520). -/
structure Notice where
  number : BitVec 32
  cause : BitVec 8
  stack : BitVec 8
  beat : BitVec 48
  fields : List Byte
  sentAt : Nat
  deriving DecidableEq, Repr

/-- A host ring's engine (07_rings_and_doorbells.md R204). Its counts are in its registers. -/
structure Ring where
  /-- SIZE in force since the ring was last enabled (R195, R224) -/
  size : Nat
  /-- the doorbell line is held in CXL.cache -/
  lineHeld : Bool
  /-- a read of the line is under way -/
  reading : Bool
  deriving DecidableEq, Repr

/-- The host interface. -/
structure HostIf where
  rings : Tab Ring
  descs : List Desc
  nextHandle : Nat
  nextOrder : Nat
  notices : List Notice
  /-- MSI-X table, 32-bit words (19_register_map.md R553) -/
  msixTable : Tab (BitVec 32)
  msixPending : Word
  deriving DecidableEq, Repr

/-- Power control (16_power.md). -/
structure Power where
  held : List Held
  /-- last CAP_AT to take effect; none before the first (Table 16-2) -/
  cap : Option Nat
  /-- the safe cap is in force (R485, Table 16-2) -/
  safe : Bool
  /-- moment of the last message that refreshes the lease -/
  leaseAt : Nat
  /-- the power limit in force -/
  lastLimit : Nat
  /-- the greatest limit in force during the present window of 64 beats (R477) -/
  peak : Nat
  /-- the highest limit of that window, moved with each change that SHED_N or SAG alone has caused (R478) -/
  slopeFrom : Nat
  /-- moment and new limit of each fall of the limit that the power has not yet been measured at or below (R478) -/
  falls : List (Nat × Nat)
  /-- the power that running work demanded at the last evaluation, in milliwatts (R489) -/
  demand : Nat
  /-- lower and upper bounds of the next window, in milliwatts (R479) -/
  lower : Nat
  upper : Nat
  /-- hottest junction of each stack at the last evaluation, degrees Celsius (R486) -/
  temp : Tab Nat
  /-- temperature-held pairs (05_spatial_pipelines.md R153) -/
  tempHeld : List (Nat × Nat)
  /-- a condition of R489 or R155 held during the present window (17_security_and_tenancy.md R513) -/
  throttled : Bool
  /-- the window of 1,024 beats that runs, the number of the last completed one modulo 65,536, and the temperature band
  recorded at its end (R513) -/
  winNow : Nat
  winLast : Nat
  band : Nat
  /-- throttle bits of the windows before the one now running, the latest at bit 0 -/
  hist : BitVec 32
  deriving DecidableEq, Repr

/-- One tenant's binding (17_security_and_tenancy.md R497). Its flags and stacks are in SEC_TENANT. -/
structure Tenant where
  ringKey : List Byte
  /-- peer map: module positions admitted (Table 17-3) -/
  peers : List Nat
  debugSeen : Bool
  deriving DecidableEq, Repr

/-- A debug access to a tier that a row repair holds (19_register_map.md R554), as its GO asked for it. -/
structure DebugAcc where
  write : Bool
  stack : Nat
  far : Bool
  addr : Nat
  data : Word
  deriving DecidableEq, Repr

/-- The keeper (17_security_and_tenancy.md). -/
structure Keeper where
  tenants : Tab Tenant
  /-- RELEASE in progress: stacks mask -/
  releaseMask : BitVec 8
  /-- debug-state digest D (R510), 64 bytes, reset zeros -/
  digest : List Byte
  reports : BitVec 32
  /-- JTAG instruction register (R516); reset IDCODE 0x01 (R575) -/
  jtagIr : BitVec 8
  /-- the boundary register as it was last shifted in (20_module_connector.md R575) -/
  boundary : Word × Word
  /-- a debug access that waits for the end of a row repair -/
  debugHeld : Option DebugAcc
  fwDigest : List Byte
  deriving DecidableEq, Repr

/-- A packet waiting in its ingress reserve with the egress port it is bound for (11_switch_die.md R348). -/
structure Waiting where
  egress : Nat
  pkt : Packet
  deriving DecidableEq, Repr

/-- A cell at odds with the lists of the switch (11_switch_die.md R356 to R359). Every other cell has the owner tag of
the list that holds it and the stamp of the last pass, and stands on the free list once when no owner holds it: these
follow from the queues. -/
structure Stray where
  cell : Nat
  owner : CellOwner
  /-- what the cell holds, where its owner's list reaches it -/
  item : Option (Packet ⊕ Frame)
  /-- how often it stands on the free list -/
  listed : Nat
  /-- audit passes in a row that ended with it held under the tag and not stamped -/
  missed : Nat
  /-- off the free list until its owner releases it (R358) -/
  quarantined : Bool
  deriving DecidableEq, Repr

/-- A merge of the atomic combiner (11_switch_die.md R360, R362): its requests in arrival order. -/
structure Merge where
  port : Nat
  reqs : List Packet
  deriving DecidableEq, Repr

/-- A span table entry (10_spans_and_routing.md R318). -/
structure SpanEntry where
  inPort : Nat
  label : Nat
  outPort : Nat
  nextLabel : Nat
  share : Nat
  cells : Nat
  srcNode : BitVec 16
  spanId : BitVec 16
  /-- SPAN_BROKEN has been sent for it (11_switch_die.md R375) -/
  broken : Bool
  deriving DecidableEq, Repr

/-- What a reduction entry holds of one input: one position of one chunk, its elements as partials
(11_switch_die.md R370; 12_collectives.md R392, R393). -/
structure HeldInput where
  num : Nat
  /-- word 1 of the chunk frame, its position and its incomplete and failed bits clear -/
  chunk : Word
  position : Nat
  /-- first element of the position in its vector -/
  e0 : Nat
  redop : Nat
  isInt : Bool
  incomplete : Bool
  failed : Bool
  tenant : BitVec 3
  /-- binary32 codes or int32 values; none of a frame that has failed its check for the fourth time -/
  elems : List Lane
  /-- elements that the position covers -/
  len : Nat
  /-- the position ends its chunk; partial frames do not say -/
  isLast : Option Bool
  /-- cells of the frame that brought it, on the frame's last position -/
  cells : Nat
  deriving DecidableEq, Repr

/-- A frame that a hop has sent and still keeps for a refetch (12_collectives.md R400): by its sender,
a member or hosted entry (the port it was sent from), or a branch of the switch. -/
structure Kept where
  fromMember : Bool
  port : Nat
  label : Nat
  frame : Frame
  deriving DecidableEq, Repr

/-- A trestle entry (11_switch_die.md R366). `owner` is 8 for the switch, or the stack of a hosted entry. -/
structure Trestle where
  owner : Nat
  entry : Nat
  reduction : Bool
  root : Bool
  committed : Bool
  port : Nat
  label : Nat
  items : List TrestleItem
  combiner : Nat
  /-- pruned inputs, and branches by index (R376) -/
  prunedIn : List Nat
  prunedOut : List Nat
  /-- cells discarded so far per pruned item: key input, or 64 + branch (PRUNED) -/
  discarded : Tab Nat
  inputs : List HeldInput
  /-- failed checks of each frame (12_collectives.md R400): key input + 16 × its word 1 -/
  refetch : Tab Nat
  /-- positions of inputs whose frame has failed for the fourth time, without their elements (R401) -/
  failedIn : List HeldInput
  /-- the collective that the root serves, learned from its header result (Table 12-3): op, format, count -/
  op : Nat
  fmt : Nat
  count : Nat
  /-- the members of its group: the header result does not carry them, and the vector of a REDUCE_SCATTER is that many
  times `count` (Table 12-1); a free value from the header result on -/
  members : Nat
  /-- evaluated positions of the chunks that the root assembles, in order of evaluation (R393) -/
  acc : List HeldInput
  /-- chunk and position of what every input held when a prune took effect, with the inputs then not pruned (R376) -/
  whole : List ((Word × Nat) × List Nat)
  deriving DecidableEq, Repr

/-- The switch core die (11_switch_die.md). -/
structure Switch where
  /-- packets received and not yet routed, per ingress port; ports numbered as R343; 81 the switch itself -/
  arrived : Tab (List Packet)
  /-- ingress reserves, key 16 port + queue index (R346, R348) -/
  ingress : Tab (List Waiting)
  /-- egress queues, key 16 port + queue index -/
  egress : Tab (List Packet)
  /-- span frames: queued per egress port, and received and not yet taken at key 100 + ingress port -/
  frames : Tab (List Frame)
  /-- chunk frames kept for a refetch, oldest first -/
  kept : List Kept
  /-- frames that a receiver has asked for again, with the code of the hop that sent them (12_collectives.md R400) -/
  asked : List (Nat × Frame)
  spanTab : List SpanEntry
  trestles : List Trestle
  fences : List (BitVec 16)
  merges : List Merge
  /-- requests of served merges whose replies occupy their cells, by the queue that holds the cell (R362) -/
  replyCells : List (Nat × Packet)
  /-- wrong bits in the words of 8 bytes of what the switch holds, by word (R350) -/
  cellErr : List (((Packet ⊕ Frame) × Nat) × Nat)
  /-- cells whose owner tag, stamp and place disagree with the lists of the owners (R356 to R359) -/
  strays : List Stray
  /-- deficit counters and turns of the round robins of R321 (10_spans_and_routing.md): key 16 port + 0, 1, 2
  for P, D and Q and 3 for the turn; 16 (100 + port) + tenant, and 8 for the turn, within Q -/
  deficit : Tab Nat
  /-- poisoned packets discarded at a destination, packets truncated (R350, R354) -/
  discarded : Nat
  truncated : Nat
  /-- route errors counted (10_spans_and_routing.md R310) -/
  routeErrors : Nat
  /-- class S frames dropped with a port (R338) -/
  frameDrops : Nat
  /-- last reason of a SPAN_REFUSE or GROUP_REFUSE (Table 10-7) -/
  refuseReason : Nat
  /-- the atomic combiner has failed (15_startup_and_defects.md Table 15-6) -/
  noMerge : Bool
  deriving DecidableEq, Repr

/-- A flit in the replay buffer (14_links_and_cables.md R432). -/
structure TxFlit where
  seq : BitVec 12
  sends : Nat
  ack : BitVec 12
  nak : Bool
  /-- credit class, 15 for none, and credit cells (Table 14-2) -/
  creditClass : Nat
  credits : Nat
  /-- payload bytes that carry traffic -/
  fill : Nat
  /-- offset of the first packet or frame that begins in it; 0x1FF none -/
  start : Nat
  /-- it ends a truncated packet or frame -/
  endError : Bool
  /-- packets and frames that begin in it -/
  items : List (Packet ⊕ Frame)
  /-- its bytes on the link (14_links_and_cables.md Table 14-1): those of its first sending (R431) -/
  wire : List Byte
  deriving DecidableEq, Repr

/-- One external port (14_links_and_cables.md). STATE, WIDTH, REASON and the lanes are in its registers. -/
structure Port where
  /-- present failed attempts' backoff exponent (R442) -/
  backoff : Nat
  /-- moment the present state was entered -/
  since : Nat
  txSeq : BitVec 12
  replay : List TxFlit
  ackAt : Nat
  rxSeq : BitVec 12
  nak : Bool
  /-- the far end asks for a replay (R434) -/
  farNak : Bool
  /-- distinct flits since the last key change, each direction (R431) -/
  txCount : Nat
  rxCount : Nat
  txKey : List Byte
  rxKey : List Byte
  uncorr : Nat
  /-- link latency measured at training, ticks (02_rack_beat.md R33) -/
  latency : Nat
  farVariant : Variant
  /-- JFP version settled in PARAMS (R441) -/
  jfp : Nat
  /-- what the last DC_CHECK measured, and the pairs, transmit or not, whose drivers are off for it (R439) -/
  pairs : List PairDc
  driversOff : List (Bool × BitVec 3)
  crossedAt : Nat
  /-- JFP_MAX and MIN_WIDTH as the present attempt took them (R451) -/
  maxJfp : Nat
  minWidth : Nat
  /-- the number of this end's ephemeral key (17_security_and_tenancy.md R493) -/
  eph : Nat
  /-- a key change under way: the number of its ephemeral key, what the far end has sent for it, and what control flits
  are to carry (R432, R436) -/
  keyWork : Option Nat
  farShare : Option FarShare
  msgs : List LinkMsg
  /-- credits in cells at the far end, per index of R347: Q 0 to 2, P 3 and 4, M 5 and 6, D 7 and 8 -/
  credit : Tab Nat
  /-- cells of a span's reservation at the next hop that hold what this port has sent, by label
  (10_spans_and_routing.md R327) -/
  spanUsed : Tab Nat
  /-- cells freed in the ingress reserves and not yet returned to the far end, per index of R347 -/
  owed : Tab Nat
  /-- the packet or frame that is being sent, and how many of its bytes are still to go -/
  txItem : Option (Packet ⊕ Frame)
  txLeft : Nat
  /-- its rest will not come: the next data flit ends it (11_switch_die.md R354) -/
  txCut : Bool
  /-- the packet or frame of which a part has arrived, and how many of its bytes are still to come -/
  rxItem : Option (Packet ⊕ Frame)
  rxLeft : Nat
  deriving DecidableEq, Repr

/-- Start-up (15_startup_and_defects.md). STEP, CAUSE and HALTED are in CAP_START. -/
structure Boot where
  /-- the power stages are closed -/
  powered : Bool
  /-- a thermal trip holds the module off (16_power.md R487) -/
  tripped : Bool
  /-- EPO_N and SHED_N as the pins stand; true is released -/
  epoHigh : Bool
  shedHigh : Bool
  /-- TRST_N as the pin stands; low, as its pull-down leaves it, holds the TAP in reset (20_module_connector.md R575) -/
  trstHigh : Bool
  /-- ALERT_N asserted by R472 or R487 -/
  alert : Bool
  tray : BitVec 5
  slot : BitVec 3
  /-- BAR0 answers (R455) -/
  bar0 : Bool
  descriptorOk : Bool
  /-- the I3C target answers (20_module_connector.md R569) -/
  i3cOn : Bool
  i3cDyn : Option (BitVec 7)
  i3cResult : BitVec 8
  i3cCode : BitVec 8
  /-- the first copy of the defect list in flash (R464): the list that the module goes by -/
  defects : List Word
  /-- its second copy, which every change reaches after the first (R464, R469) -/
  secondCopy : List Word
  /-- entries recorded and not yet written (R469) -/
  unwritten : List Word
  /-- units held failed though the list is full (R466) -/
  unlisted : List Word
  startCount : BitVec 16
  /-- the defect list has been merged (R455) -/
  merged : Bool
  revCompute : BitVec 8
  revSwitch : BitVec 8
  /-- known-answer failures found and not yet merged -/
  katFailed : List UnitId
  /-- moment at which step 7 of start-up began (15_startup_and_defects.md R452) -/
  portsFrom : Nat
  /-- the boot ROM fetches a recovery image (15_startup_and_defects.md R456) -/
  recovering : Bool
  /-- flash does not hold the image that a recovery started: its write failed (15_startup_and_defects.md R457) -/
  imageBad : Bool
  /-- the image that a recovery has last written to flash; none while flash holds the one it was made with (R457) -/
  flashImage : Option (List Byte)
  deriving DecidableEq, Repr

/-- What the module puts out: its pins, its writes to the host, its messages. -/
inductive Output where
  | readData (value : Word)
  | coreData (value : Word)
  /-- a load access fault, or a store/AMO access fault (06_host_cores.md R589) -/
  | coreFault (stack core : Nat) (amo : Bool)
  | msix (vector : Nat)
  | i3cAck
  | i3cNack
  | i3cData (bytes : List Byte)
  /-- the host is notified that a UCIe module has dropped out (19_register_map.md R552) -/
  | ucieDrop (module : Nat)
  | beatCheck (port : Nat) (beat : BitVec 48) (phase : Nat)
  | flit (port : Nat) (f : TxFlit)
  /-- a message to the far end of a link: in training, or in a control flit (14_links_and_cables.md R432) -/
  | link (port : Nat) (msg : LinkMsg)
  | control (port : Nat) (ack : BitVec 12) (nak : Bool) (creditClass credits : Nat) (wire : List Byte)
  | mgmt (src dst : BitVec 16) (type : BitVec 8) (fields : List Byte)
  | jtag (ctl data : Word)
  /-- what the boundary register captures of the sideband pins (20_module_connector.md R575): EPO_N, SHED_N and ALERT_N,
  high, the straps, and I3C_SCL and I3C_SDA, high -/
  | boundary (epo shed alert : Bool) (tray : BitVec 5) (slot : BitVec 3) (scl sda : Bool)
  /-- the identification word that IDCODE captures, and the bit that BYPASS captures -/
  | idcode (w : BitVec 32)
  | bypass
  | refetch (port label : Nat)
  deriving DecidableEq, Repr

/-- The whole module and what it sees of the outside. -/
structure State where
  /-- time since reset in ticks of 1/75.2 GHz: 80 to an arithmetic cycle, 47 to a switch cycle,
  75,200 to a beat (00_scope.md, Conventions); the model's own -/
  now : Nat
  /-- fixed at assembly (00_scope.md, The variants) -/
  variant : Variant
  /-- the set-up registers (19_register_map.md Table 19-2); an unlisted one holds its reset value -/
  regs : List (Reg × Word)
  /-- lower halves latched per requester and offset (19_register_map.md R547) -/
  latches : List ((Requester × Nat) × BitVec 32)
  boot : Boot
  beat : Beat
  host : HostIf
  power : Power
  keeper : Keeper
  sw : Switch
  ports : Tab Port
  stackTab : Tab Stack
  /-- host memory as CXL.cache reads and writes it (07_rings_and_doorbells.md R193) -/
  hostMem : Mem
  /-- what has been put out, latest first; the model's own -/
  out : List Output
  /-- advances at each free value the step takes; the model's own -/
  free : Nat
  /-- the model's own counter of requests and accesses -/
  nextId : Nat
  /-- commands that wait, first in first out -/
  pending : List Instr
  deriving DecidableEq, Repr

/-- Why a step stops with a fault. -/
inductive Fault where
  /-- A command names a stack, bench, context, port, ring, core or node entry that no module has
  (01_module_overview.md Table 01-1): there is no such unit on any variant, so no such event can
  occur. Raised by every meaning through `onStack`, `onBench`, `onCtx`, `onPort` and `onRing` of
  Machine/Ops.lean. Safe: the model stops where no hardware event exists. -/
  | noSuchUnit
  deriving DecidableEq, Repr

/-- Why a step has no meaning. -/
inductive Refusal where
  /-- A command whose meaning has not been written. Raised only by an arm of `exec`. Safe. -/
  | notModelled (mnemonic : String)
  deriving DecidableEq, Repr

/-- A context at reset: IDLE, every register zero (04_benches.md Tables 04-2, 04-13). -/
def Ctx.reset : Ctx where
  st := .idle
  hungFrom := .run
  cause := 0
  pc := 0
  sregs := []
  vregs := []
  kregs := []
  tile := []
  tileInt := false
  rng := 0
  flags := 0
  xctx := 0
  launch := 0
  timerAcc := 0
  timerFrom := 0
  dbgStop := false
  waits := []
  torn := false
  ready := []
  tileReady := 0
  arrDone := 0
  left := false
  stopDue := 0

/-- A bench at reset (15_startup_and_defects.md R460). -/
def Bench.reset : Bench where
  ctxs := []
  prog := []
  bundles := 0
  cycle := 0
  last := 7
  inRow := 0
  issued := false
  vecHeld := 0
  arrHeld := 0
  rx := []
  flight := []
  used := []
  creditBack := []
  txOwner := []
  rxOwner := []
  txQueue := []
  rxQueue := []

/-- No shadowing role (18_faults_and_recovery.md R534). -/
def Shadow.reset : Shadow where
  peer := 0
  job := 0
  stepAddr := 0
  stepBench := 0
  stepCtx := 0
  k := 0
  digest := 0
  late := []
  own := []
  theirs := []
  swapAt := none

/-- A stack at reset: nothing translated, nothing outstanding, memory with nothing listed. -/
def Stack.reset : Stack where
  benches := []
  drawer := []
  drawerBad := []
  drawerSoft := []
  drawerFixed := 0
  sram := []
  near := []
  far := []
  nearMark := []
  farMark := []
  nearErr := []
  farErr := []
  rowReads := []
  rowsDue := []
  repairing := []
  patrolNear := []
  patrolFar := []
  patrolFrom := 0
  tlb := []
  walkCache := []
  misses := []
  walks := []
  faults := []
  shoots := []
  owner := []
  reqs := []
  seqTo := []
  dead := []
  fenced := []
  heard := []
  windows := []
  tc := 0
  te := 0
  meterAt := 0
  applied := []
  lineTurn := []
  lineHolds := []
  lineOrder := []
  dir := []
  invals := []
  invalNext := 0
  oldWindow := none
  spansOut := []
  spansIn := []
  groups := []
  colls := []
  shadow := Shadow.reset
  rebuilds := []
  tears := []
  nextStep := none
  nextNeighbour := (false, false)
  ballast := []
  reseat := []
  booting := none
  kicked := []
  coreArgs := []
  unposted := []
  lastRing := 71
  weights := none
  coreHeld := []
  upWait := []
  nearKey := []
  farKey := []
  measCore := List.replicate 64 0
  measBench := List.replicate 64 0
  measWeights := List.replicate 64 0
  releasing := 0
  up := false

/-- A host ring at reset: disabled, its line not held. -/
def Ring.reset : Ring where
  size := 0
  lineHeld := false
  reading := false

/-- A port at reset: OFF, never trained. -/
def Port.reset : Port where
  backoff := 0
  since := 0
  txSeq := 0
  replay := []
  ackAt := 0
  rxSeq := 0xFFF
  nak := false
  farNak := false
  txCount := 0
  rxCount := 0
  txKey := []
  rxKey := []
  uncorr := 0
  latency := 0
  farVariant := .x
  jfp := 0
  pairs := []
  driversOff := []
  crossedAt := 0
  maxJfp := 4
  minWidth := 0
  eph := 0
  keyWork := none
  farShare := none
  msgs := []
  credit := []
  spanUsed := []
  owed := []
  txItem := none
  txLeft := 0
  txCut := false
  rxItem := none
  rxLeft := 0

/-- The module right after reset: before power good (15_startup_and_defects.md Table 15-1). -/
def State.reset : State where
  now := 0
  variant := .x
  regs := []
  latches := []
  boot :=
    { powered := false, tripped := false, epoHigh := true, shedHigh := true, trstHigh := false, alert := false,
      tray := 0, slot := 0, bar0 := false, descriptorOk := false, i3cOn := false, i3cDyn := none,
      i3cResult := 0, i3cCode := 0, defects := [], secondCopy := [], unwritten := [], unlisted := [], startCount := 0,
      merged := false, revCompute := 0, revSwitch := 0, katFailed := [], portsFrom := 0,
      recovering := false, imageBad := false, flashImage := none }
  beat :=
    { count := 0, loaded := false, delivered := none, edges := false, lastEdge := 0, inTol := 0, recent := [],
      sinceLoad := 0, winStart := 0, winEdges := 0, goodAt := 0, goodCount := 0, total := 0,
      span := 77004800, lostLong := false,
      cmpEdges := 0, cmpErr := 0, cmpCount := 0, reloaded := false, links := [] }
  host :=
    { rings := [], descs := [], nextHandle := 1, nextOrder := 0, notices := [], msixTable := [],
      msixPending := 0 }
  power :=
    { held := [], cap := none, safe := true, leaseAt := 0, lastLimit := 0, peak := 0, slopeFrom := 0, falls := [], demand := 0,
      lower := 0, upper := 0, temp := [], tempHeld := [], throttled := false, winNow := 0, winLast := 0, band := 0,
      hist := 0 }
  keeper :=
    { tenants := [], releaseMask := 0, digest := List.replicate 64 0, reports := 0, jtagIr := 0x01,
      boundary := (0, 0), debugHeld := none, fwDigest := [] }
  sw :=
    { arrived := [], ingress := [], egress := [], frames := [], kept := [], asked := [], spanTab := [], trestles := [],
      fences := [], merges := [], replyCells := [], cellErr := [], strays := [], deficit := [], discarded := 0, truncated := 0,
      routeErrors := 0, frameDrops := 0, refuseReason := 0, noMerge := false }
  ports := []
  stackTab := []
  hostMem := []
  out := []
  free := 0
  nextId := 1
  pending := []

end Sys2Proof.Machine
end

