-- ==== Sys2Proof/Machine/Regs.lean ====
section
/-! DEFINITION. The set-up registers: the place of every field of every register table, which bits
a write takes (RW), clears (W1C) or triggers (WO), every reset value, and where each register lies
in BAR0 (19_register_map.md Tables 19-1 and 19-2). -/

namespace Sys2Proof.Machine

/-- A field [hi:lo] of a register. -/
structure Field where
  hi : Nat
  lo : Nat
  deriving DecidableEq, Repr

/-- The value of a field. -/
def getF (w : Word) (f : Field) : Nat := (w.extractLsb' f.lo (f.hi + 1 - f.lo)).toNat

/-- The bits of a field, as a mask. -/
def Field.mask (f : Field) : Word := (BitVec.allOnes 64 >>> (63 + f.lo - f.hi)) <<< f.lo

/-- The word with a field replaced by the low bits of `v`. -/
def setF (w : Word) (f : Field) (v : Nat) : Word :=
  (w &&& ~~~f.mask) ||| ((BitVec.ofNat 64 v <<< f.lo) &&& f.mask)

/-! CAP_ID: 19_register_map.md R550, Table 19-3. -/

def CAP_ID_DESC_VER_MAX : Field := ⟨55, 52⟩
def CAP_ID_DESC_VER_MIN : Field := ⟨51, 48⟩
def CAP_ID_JFP_MAX : Field := ⟨47, 44⟩
def CAP_ID_JFP_MIN : Field := ⟨43, 40⟩
def CAP_ID_REV_COMPUTE : Field := ⟨31, 24⟩
def CAP_ID_REV_SWITCH : Field := ⟨23, 16⟩
def CAP_ID_VARIANT : Field := ⟨3, 0⟩

/-! CAP_UNITS: 00_scope.md R5, Table 00-2. -/

def CAP_UNITS_CWD_PRESENT : Field := ⟨37, 37⟩
def CAP_UNITS_STRICT_PRESENT : Field := ⟨36, 36⟩
def CAP_UNITS_INT_PRESENT : Field := ⟨35, 35⟩
def CAP_UNITS_IODIE_PRESENT : Field := ⟨34, 32⟩
def CAP_UNITS_FAR_PRESENT : Field := ⟨31, 24⟩
def CAP_UNITS_HBM_PRESENT : Field := ⟨23, 8⟩
def CAP_UNITS_STACK_PRESENT : Field := ⟨7, 0⟩

/-! CAP_START: 15_startup_and_defects.md R473, Table 15-7. -/

def CAP_START_STACK_FAILED : Field := ⟨55, 48⟩
def CAP_START_CAUSE : Field := ⟨39, 32⟩
def CAP_START_STEP : Field := ⟨11, 8⟩
def CAP_START_RECOVERED : Field := ⟨3, 3⟩
def CAP_START_DEFECT_FULL : Field := ⟨2, 2⟩
def CAP_START_HALTED : Field := ⟨1, 1⟩
def CAP_START_READY : Field := ⟨0, 0⟩

/-! CAP_DEFECT_COUNT: 15_startup_and_defects.md R473, Table 15-8. -/

def CAP_DEFECT_COUNT_NEW : Field := ⟨47, 32⟩
def CAP_DEFECT_COUNT_COUNT : Field := ⟨12, 0⟩

/-! CAP_RECOVERY: 15_startup_and_defects.md R473, Table 15-9. -/

def CAP_RECOVERY_ADDR : Field := ⟨63, 12⟩
def CAP_RECOVERY_GO : Field := ⟨0, 0⟩

/-! CAP_POSITION: 19_register_map.md R551, Table 19-4. -/

def CAP_POSITION_BASE_NODE : Field := ⟨63, 48⟩
def CAP_POSITION_RACK_VALID : Field := ⟨40, 40⟩
def CAP_POSITION_RACK : Field := ⟨37, 32⟩
def CAP_POSITION_TRAY_ID : Field := ⟨12, 8⟩
def CAP_POSITION_SLOT_ID : Field := ⟨2, 0⟩

/-! CAP_DEFECT: 15_startup_and_defects.md R473, Table 15-10. -/

def CAP_DEFECT_ENTRY : Field := ⟨63, 0⟩

/-! HOSTIF_LINK: 19_register_map.md R551, Table 19-5. -/

def HOSTIF_LINK_MODULES : Field := ⟨51, 48⟩
def HOSTIF_LINK_RATE : Field := ⟨39, 32⟩
def HOSTIF_LINK_CXL_MEM : Field := ⟨2, 2⟩
def HOSTIF_LINK_CXL_CACHE : Field := ⟨1, 1⟩
def HOSTIF_LINK_CXL_IO : Field := ⟨0, 0⟩

/-! HOSTIF_RING_CFG: 07_rings_and_doorbells.md R198, Table 07-1. -/

def HOSTIF_RING_CFG_SEALED : Field := ⟨63, 63⟩
def HOSTIF_RING_CFG_TENANT : Field := ⟨58, 56⟩
def HOSTIF_RING_CFG_CTX : Field := ⟨55, 48⟩
def HOSTIF_RING_CFG_STACKS : Field := ⟨47, 40⟩
def HOSTIF_RING_CFG_VER_REQ : Field := ⟨39, 36⟩
def HOSTIF_RING_CFG_VER : Field := ⟨35, 32⟩
def HOSTIF_RING_CFG_MSIX : Field := ⟨23, 18⟩
def HOSTIF_RING_CFG_SIZE : Field := ⟨16, 0⟩

/-! HOSTIF_RING_DESC: 07_rings_and_doorbells.md R198, Table 07-2. -/

def HOSTIF_RING_DESC_ADDR : Field := ⟨63, 12⟩

/-! HOSTIF_RING_CPL: 07_rings_and_doorbells.md R198, Table 07-2. -/

def HOSTIF_RING_CPL_ADDR : Field := ⟨63, 12⟩

/-! HOSTIF_RING_DB: 07_rings_and_doorbells.md R198, Table 07-3. -/

def HOSTIF_RING_DB_ADDR : Field := ⟨63, 6⟩

/-! HOSTIF_RING_IDX: 07_rings_and_doorbells.md R198, Table 07-4. -/

def HOSTIF_RING_IDX_POSTED : Field := ⟨63, 32⟩
def HOSTIF_RING_IDX_HEAD : Field := ⟨31, 0⟩

/-! HOSTIF_RING_STATUS: 07_rings_and_doorbells.md R198, Table 07-5. -/

def HOSTIF_RING_STATUS_OUTSTANDING : Field := ⟨48, 32⟩
def HOSTIF_RING_STATUS_ERROR_CODE : Field := ⟨15, 8⟩
def HOSTIF_RING_STATUS_ERROR : Field := ⟨1, 1⟩
def HOSTIF_RING_STATUS_DRAINED : Field := ⟨0, 0⟩

/-! HOSTIF_RING_SEQ: 07_rings_and_doorbells.md R198, Table 07-6. -/

def HOSTIF_RING_SEQ_SEQ : Field := ⟨63, 0⟩

/-! HOSTIF_RING_CIDX: 07_rings_and_doorbells.md R198, Table 07-7. -/

def HOSTIF_RING_CIDX_CONSUMED : Field := ⟨63, 32⟩
def HOSTIF_RING_CIDX_COMPLETED : Field := ⟨31, 0⟩

/-! HOSTIF_NOTIFY: 18_faults_and_recovery.md R543, Table 18-7. -/

def HOSTIF_NOTIFY_ENABLE : Field := ⟨63, 63⟩
def HOSTIF_NOTIFY_MSIX : Field := ⟨55, 50⟩
def HOSTIF_NOTIFY_SWITCH_FAIL : Field := ⟨6, 6⟩
def HOSTIF_NOTIFY_NOTICE_DROPPED : Field := ⟨5, 5⟩
def HOSTIF_NOTIFY_JOB_TORN_DOWN : Field := ⟨4, 4⟩
def HOSTIF_NOTIFY_UNIT_FAILED : Field := ⟨3, 3⟩
def HOSTIF_NOTIFY_NO_CORE : Field := ⟨2, 2⟩
def HOSTIF_NOTIFY_CORE_HUNG : Field := ⟨1, 1⟩
def HOSTIF_NOTIFY_BEAT : Field := ⟨0, 0⟩

/-! HOSTIF_NOTICE_STATUS: 18_faults_and_recovery.md R543, Table 18-8. -/

def HOSTIF_NOTICE_STATUS_NEXT : Field := ⟨63, 32⟩
def HOSTIF_NOTICE_STATUS_DROPPED : Field := ⟨31, 16⟩
def HOSTIF_NOTICE_STATUS_HELD : Field := ⟨8, 0⟩

/-! BEAT_NOW: 02_rack_beat.md R47, Table 02-3. -/

def BEAT_NOW_NOW : Field := ⟨47, 0⟩

/-! BEAT_STATUS: 02_rack_beat.md R47, Table 02-4. -/

def BEAT_STATUS_LEAD : Field := ⟨47, 32⟩
def BEAT_STATUS_MARGIN : Field := ⟨31, 24⟩
def BEAT_STATUS_IN_RACK_MISMATCH : Field := ⟨15, 11⟩
def BEAT_STATUS_MISMATCH_SEEN : Field := ⟨9, 9⟩
def BEAT_STATUS_LOST_SEEN : Field := ⟨8, 8⟩
def BEAT_STATUS_RELOCK : Field := ⟨4, 4⟩
def BEAT_STATUS_POD_SKEW : Field := ⟨3, 3⟩
def BEAT_STATUS_MISMATCH : Field := ⟨2, 2⟩
def BEAT_STATUS_LOST : Field := ⟨1, 1⟩
def BEAT_STATUS_LOCKED : Field := ⟨0, 0⟩

/-! PWR_STATUS: 16_power.md R490, Table 16-6. -/

def PWR_STATUS_INPUT : Field := ⟨63, 48⟩
def PWR_STATUS_POWER : Field := ⟨47, 32⟩
def PWR_STATUS_LIMIT : Field := ⟨31, 16⟩
def PWR_STATUS_BALLAST : Field := ⟨5, 5⟩
def PWR_STATUS_THERMAL : Field := ⟨4, 4⟩
def PWR_STATUS_LEASE_LOST : Field := ⟨3, 3⟩
def PWR_STATUS_SAG : Field := ⟨2, 2⟩
def PWR_STATUS_SHED : Field := ⟨1, 1⟩
def PWR_STATUS_CAPPING : Field := ⟨0, 0⟩

/-! PWR_EVENTS: 16_power.md R490, Table 16-7. -/

def PWR_EVENTS_VIOLATIONS : Field := ⟨31, 16⟩
def PWR_EVENTS_LAST_OFF : Field := ⟨11, 8⟩
def PWR_EVENTS_BALLAST_SHORT_SEEN : Field := ⟨5, 5⟩
def PWR_EVENTS_RAMP_VIOLATION_SEEN : Field := ⟨4, 4⟩
def PWR_EVENTS_LEASE_LOST_SEEN : Field := ⟨3, 3⟩
def PWR_EVENTS_SAG_SEEN : Field := ⟨2, 2⟩
def PWR_EVENTS_SHED_SEEN : Field := ⟨1, 1⟩
def PWR_EVENTS_THERMAL_SEEN : Field := ⟨0, 0⟩

/-! PWR_LIMITS: 16_power.md R490, Table 16-8. -/

def PWR_LIMITS_SAFE_CAP : Field := ⟨63, 48⟩
def PWR_LIMITS_SHED_LEVEL : Field := ⟨47, 32⟩
def PWR_LIMITS_FLOOR : Field := ⟨31, 16⟩
def PWR_LIMITS_RAMP : Field := ⟨15, 0⟩

/-! PWR_PENDING: 16_power.md R490, Table 16-9. -/

def PWR_PENDING_NEXT_CAP : Field := ⟨63, 48⟩
def PWR_PENDING_NEXT_BEAT : Field := ⟨47, 0⟩

/-! PWR_STEP: 16_power.md R490, Table 16-10. -/

def PWR_STEP_CAP_STEP : Field := ⟨14, 8⟩
def PWR_STEP_THERMAL_STEP : Field := ⟨6, 0⟩

/-! SEC_CMD: 17_security_and_tenancy.md R518, Table 17-6. -/

def SEC_CMD_ADDR : Field := ⟨63, 12⟩
def SEC_CMD_GO : Field := ⟨11, 11⟩
def SEC_CMD_BUSY : Field := ⟨10, 10⟩
def SEC_CMD_RESULT : Field := ⟨7, 4⟩
def SEC_CMD_CODE : Field := ⟨3, 0⟩

/-! SEC_STATUS: 17_security_and_tenancy.md R518, Table 17-7. -/

def SEC_STATUS_SEAL_FAIL : Field := ⟨63, 32⟩
def SEC_STATUS_DEBUG_JTAG : Field := ⟨1, 1⟩
def SEC_STATUS_DEBUG_OPEN : Field := ⟨0, 0⟩

/-! SEC_DEBUG: 17_security_and_tenancy.md R518, Table 17-8. -/

def SEC_DEBUG_OPEN : Field := ⟨0, 0⟩

/-! SEC_STACK: 17_security_and_tenancy.md R518, Table 17-9. -/

def SEC_STACK_TENANT_0 : Field := ⟨4, 2⟩
def SEC_STACK_TENANT_1 : Field := ⟨12, 10⟩
def SEC_STACK_TENANT_2 : Field := ⟨20, 18⟩
def SEC_STACK_TENANT_3 : Field := ⟨28, 26⟩
def SEC_STACK_TENANT_4 : Field := ⟨36, 34⟩
def SEC_STACK_TENANT_5 : Field := ⟨44, 42⟩
def SEC_STACK_TENANT_6 : Field := ⟨52, 50⟩
def SEC_STACK_TENANT_7 : Field := ⟨60, 58⟩
def SEC_STACK_STATE_0 : Field := ⟨1, 0⟩
def SEC_STACK_STATE_1 : Field := ⟨9, 8⟩
def SEC_STACK_STATE_2 : Field := ⟨17, 16⟩
def SEC_STACK_STATE_3 : Field := ⟨25, 24⟩
def SEC_STACK_STATE_4 : Field := ⟨33, 32⟩
def SEC_STACK_STATE_5 : Field := ⟨41, 40⟩
def SEC_STACK_STATE_6 : Field := ⟨49, 48⟩
def SEC_STACK_STATE_7 : Field := ⟨57, 56⟩

/-! SEC_DEBUG_ACCESS_CTL: 19_register_map.md R553, Table 19-6. -/

def SEC_DEBUG_ACCESS_CTL_GO : Field := ⟨63, 63⟩
def SEC_DEBUG_ACCESS_CTL_BUSY : Field := ⟨62, 62⟩
def SEC_DEBUG_ACCESS_CTL_ERR : Field := ⟨61, 61⟩
def SEC_DEBUG_ACCESS_CTL_WRITE : Field := ⟨60, 60⟩
def SEC_DEBUG_ACCESS_CTL_SPACE : Field := ⟨59, 58⟩
def SEC_DEBUG_ACCESS_CTL_STACK : Field := ⟨57, 55⟩
def SEC_DEBUG_ACCESS_CTL_TIER : Field := ⟨54, 54⟩
def SEC_DEBUG_ACCESS_CTL_ADDR : Field := ⟨47, 0⟩

/-! SEC_DEBUG_ACCESS_DATA: 19_register_map.md R553, Table 19-6. -/

def SEC_DEBUG_ACCESS_DATA_DATA : Field := ⟨63, 0⟩

/-! SEC_TENANT: 17_security_and_tenancy.md R518, Table 17-10. -/

def SEC_TENANT_BOUND : Field := ⟨63, 63⟩
def SEC_TENANT_GENERATION : Field := ⟨23, 16⟩
def SEC_TENANT_FORERUNNER : Field := ⟨9, 9⟩
def SEC_TENANT_SEALED_ONLY : Field := ⟨8, 8⟩
def SEC_TENANT_STACKS : Field := ⟨7, 0⟩

/-! SWC_CELL_CFG: 11_switch_die.md R378, Table 11-8. -/

def SWC_CELL_CFG_SPAN_MAX : Field := ⟨50, 32⟩
def SWC_CELL_CFG_ALPHA : Field := ⟨3, 0⟩

/-! SWC_CELL_STATUS: 11_switch_die.md R378, Table 11-9. -/

def SWC_CELL_STATUS_SPAN_RESERVED : Field := ⟨50, 32⟩
def SWC_CELL_STATUS_CORRECTED : Field := ⟨31, 20⟩
def SWC_CELL_STATUS_FREE_SHARED : Field := ⟨18, 0⟩

/-! SWC_AUDIT: 11_switch_die.md R378, Table 11-10. -/

def SWC_AUDIT_LEAKED : Field := ⟨63, 48⟩
def SWC_AUDIT_CONFLICTS : Field := ⟨47, 32⟩
def SWC_AUDIT_QUARANTINED : Field := ⟨31, 17⟩
def SWC_AUDIT_MISMATCH : Field := ⟨16, 16⟩
def SWC_AUDIT_PASSES : Field := ⟨15, 0⟩

/-! SWC_COMBINE_STATUS: 11_switch_die.md R378, Table 11-11. -/

def SWC_COMBINE_STATUS_MERGED : Field := ⟨63, 32⟩
def SWC_COMBINE_STATUS_RECORDS : Field := ⟨28, 16⟩
def SWC_COMBINE_STATUS_NO_RECORD : Field := ⟨15, 0⟩

/-! SWC_ROUTE_CFG: 10_spans_and_routing.md R341, Table 10-12. -/

def SWC_ROUTE_CFG_FM_NODE : Field := ⟨63, 48⟩
def SWC_ROUTE_CFG_NONMIN_BIAS : Field := ⟨39, 32⟩
def SWC_ROUTE_CFG_INT_MARK : Field := ⟨15, 8⟩
def SWC_ROUTE_CFG_MODE : Field := ⟨1, 0⟩

/-! SWC_TENANT_Q: 10_spans_and_routing.md R341, Table 10-13. -/

def SWC_TENANT_Q_W0 : Field := ⟨3, 0⟩
def SWC_TENANT_Q_W1 : Field := ⟨7, 4⟩
def SWC_TENANT_Q_W2 : Field := ⟨11, 8⟩
def SWC_TENANT_Q_W3 : Field := ⟨15, 12⟩
def SWC_TENANT_Q_W4 : Field := ⟨19, 16⟩
def SWC_TENANT_Q_W5 : Field := ⟨23, 20⟩
def SWC_TENANT_Q_W6 : Field := ⟨27, 24⟩
def SWC_TENANT_Q_W7 : Field := ⟨31, 28⟩

/-! SWC_RACK_ROUTE_GW: 10_spans_and_routing.md R341, Table 10-14. -/

def SWC_RACK_ROUTE_GW_GW : Field := ⟨63, 0⟩

/-! SWC_RACK_ROUTE_VIA: 10_spans_and_routing.md R341, Table 10-15. -/

def SWC_RACK_ROUTE_VIA_VALID : Field := ⟨63, 63⟩
def SWC_RACK_ROUTE_VIA_NONMIN_OK : Field := ⟨62, 62⟩
def SWC_RACK_ROUTE_VIA_VIA : Field := ⟨7, 0⟩

/-! SWC_TRESTLE_STATUS: 11_switch_die.md R378, Table 11-12. -/

def SWC_TRESTLE_STATUS_PRUNED_CELLS : Field := ⟨63, 48⟩
def SWC_TRESTLE_STATUS_ENTRIES : Field := ⟨44, 32⟩
def SWC_TRESTLE_STATUS_COMBINERS : Field := ⟨22, 16⟩
def SWC_TRESTLE_STATUS_PRUNED_BRANCHES : Field := ⟨15, 0⟩

/-! SWC_FENCE_STATUS: 11_switch_die.md R378, Table 11-13. -/

def SWC_FENCE_STATUS_LAST_NODE : Field := ⟨63, 48⟩
def SWC_FENCE_STATUS_ENTRIES : Field := ⟨40, 32⟩
def SWC_FENCE_STATUS_DISCARDS : Field := ⟨15, 0⟩

/-! SWC_QUIET: 18_faults_and_recovery.md R543, Table 18-9. -/

def SWC_QUIET_COUNT : Field := ⟨47, 0⟩

/-! SWC_QUIET_CLEAR: 18_faults_and_recovery.md R543, Table 18-10. -/

def SWC_QUIET_CLEAR_ROWS : Field := ⟨8, 0⟩

/-! PORT_CTRL: 14_links_and_cables.md R451, Table 14-5. -/

def PORT_CTRL_RETRAIN : Field := ⟨63, 63⟩
def PORT_CTRL_HOLD : Field := ⟨62, 62⟩
def PORT_CTRL_JFP_MAX : Field := ⟨51, 48⟩
def PORT_CTRL_MIN_WIDTH : Field := ⟨41, 40⟩
def PORT_CTRL_UNCORR_LIMIT : Field := ⟨15, 0⟩

/-! PORT_STATUS: 14_links_and_cables.md R451, Table 14-6. -/

def PORT_STATUS_FAR_NODE : Field := ⟨63, 48⟩
def PORT_STATUS_FAR_PORT : Field := ⟨45, 40⟩
def PORT_STATUS_REASON : Field := ⟨39, 32⟩
def PORT_STATUS_ATTEMPTS : Field := ⟨31, 24⟩
def PORT_STATUS_CABLE : Field := ⟨21, 20⟩
def PORT_STATUS_CROSSED : Field := ⟨19, 19⟩
def PORT_STATUS_JFP : Field := ⟨15, 12⟩
def PORT_STATUS_WIDTH : Field := ⟨6, 4⟩
def PORT_STATUS_STATE : Field := ⟨3, 0⟩

/-! PORT_LANES: 14_links_and_cables.md R451, Table 14-7. -/

def PORT_LANES_SHORT_0 : Field := ⟨6, 6⟩
def PORT_LANES_SHORT_1 : Field := ⟨14, 14⟩
def PORT_LANES_SHORT_2 : Field := ⟨22, 22⟩
def PORT_LANES_SHORT_3 : Field := ⟨30, 30⟩
def PORT_LANES_SHORT_4 : Field := ⟨38, 38⟩
def PORT_LANES_SHORT_5 : Field := ⟨46, 46⟩
def PORT_LANES_SHORT_6 : Field := ⟨54, 54⟩
def PORT_LANES_SHORT_7 : Field := ⟨62, 62⟩
def PORT_LANES_OPEN_0 : Field := ⟨5, 5⟩
def PORT_LANES_OPEN_1 : Field := ⟨13, 13⟩
def PORT_LANES_OPEN_2 : Field := ⟨21, 21⟩
def PORT_LANES_OPEN_3 : Field := ⟨29, 29⟩
def PORT_LANES_OPEN_4 : Field := ⟨37, 37⟩
def PORT_LANES_OPEN_5 : Field := ⟨45, 45⟩
def PORT_LANES_OPEN_6 : Field := ⟨53, 53⟩
def PORT_LANES_OPEN_7 : Field := ⟨61, 61⟩
def PORT_LANES_USED_0 : Field := ⟨4, 4⟩
def PORT_LANES_USED_1 : Field := ⟨12, 12⟩
def PORT_LANES_USED_2 : Field := ⟨20, 20⟩
def PORT_LANES_USED_3 : Field := ⟨28, 28⟩
def PORT_LANES_USED_4 : Field := ⟨36, 36⟩
def PORT_LANES_USED_5 : Field := ⟨44, 44⟩
def PORT_LANES_USED_6 : Field := ⟨52, 52⟩
def PORT_LANES_USED_7 : Field := ⟨60, 60⟩
def PORT_LANES_INV_0 : Field := ⟨3, 3⟩
def PORT_LANES_INV_1 : Field := ⟨11, 11⟩
def PORT_LANES_INV_2 : Field := ⟨19, 19⟩
def PORT_LANES_INV_3 : Field := ⟨27, 27⟩
def PORT_LANES_INV_4 : Field := ⟨35, 35⟩
def PORT_LANES_INV_5 : Field := ⟨43, 43⟩
def PORT_LANES_INV_6 : Field := ⟨51, 51⟩
def PORT_LANES_INV_7 : Field := ⟨59, 59⟩
def PORT_LANES_PAIR_0 : Field := ⟨2, 0⟩
def PORT_LANES_PAIR_1 : Field := ⟨10, 8⟩
def PORT_LANES_PAIR_2 : Field := ⟨18, 16⟩
def PORT_LANES_PAIR_3 : Field := ⟨26, 24⟩
def PORT_LANES_PAIR_4 : Field := ⟨34, 32⟩
def PORT_LANES_PAIR_5 : Field := ⟨42, 40⟩
def PORT_LANES_PAIR_6 : Field := ⟨50, 48⟩
def PORT_LANES_PAIR_7 : Field := ⟨58, 56⟩

/-! PORT_ERR: 14_links_and_cables.md R451, Table 14-8. -/

def PORT_ERR_FEC_UNCORR : Field := ⟨63, 48⟩
def PORT_ERR_REPLAYS : Field := ⟨47, 32⟩
def PORT_ERR_TAG_FAIL : Field := ⟨31, 24⟩
def PORT_ERR_RETRAINS : Field := ⟨23, 16⟩

/-! PORT_FEC_CORR: 14_links_and_cables.md R451, Table 14-9. -/

def PORT_FEC_CORR_SYMBOLS : Field := ⟨63, 0⟩

/-! PORT_SHARE: 10_spans_and_routing.md R341, Table 10-16. -/

def PORT_SHARE_USED : Field := ⟨55, 48⟩
def PORT_SHARE_LIMIT : Field := ⟨38, 32⟩
def PORT_SHARE_W_P : Field := ⟨23, 16⟩
def PORT_SHARE_W_D : Field := ⟨15, 8⟩
def PORT_SHARE_W_Q : Field := ⟨7, 0⟩

/-! PORT_RED: 10_spans_and_routing.md R341, Table 10-17. -/

def PORT_RED_MIN : Field := ⟨63, 48⟩
def PORT_RED_MAX : Field := ⟨47, 32⟩
def PORT_RED_PMAX : Field := ⟨23, 16⟩

/-! PORT_FWD: 11_switch_die.md R378, Table 11-14. -/

def PORT_FWD_SAF_S : Field := ⟨8, 8⟩
def PORT_FWD_SAF_D : Field := ⟨3, 3⟩
def PORT_FWD_SAF_M : Field := ⟨2, 2⟩
def PORT_FWD_SAF_P : Field := ⟨1, 1⟩
def PORT_FWD_SAF_Q : Field := ⟨0, 0⟩

/-! ABT_CWIN_CFG: 09_fabric_memory.md R306, Table 09-9. -/

def ABT_CWIN_CFG_ENABLE : Field := ⟨63, 63⟩
def ABT_CWIN_CFG_BUSY : Field := ⟨62, 62⟩
def ABT_CWIN_CFG_SIZE : Field := ⟨54, 48⟩
def ABT_CWIN_CFG_BASE : Field := ⟨47, 30⟩

/-! ABT_CWIN_STATUS: 09_fabric_memory.md R307, Table 09-10. -/

def ABT_CWIN_STATUS_ENTRIES : Field := ⟨40, 20⟩
def ABT_CWIN_STATUS_EVICTIONS : Field := ⟨19, 0⟩

/-! ABT_DEAD_STATUS: 09_fabric_memory.md R307, Table 09-11. -/

def ABT_DEAD_STATUS_LAST_NODE : Field := ⟨63, 48⟩
def ABT_DEAD_STATUS_LAST_JOB : Field := ⟨47, 32⟩
def ABT_DEAD_STATUS_COUNT : Field := ⟨31, 16⟩
def ABT_DEAD_STATUS_FENCED_SEEN : Field := ⟨2, 2⟩
def ABT_DEAD_STATUS_TIMER_SEEN : Field := ⟨1, 1⟩
def ABT_DEAD_STATUS_NOTICE_SEEN : Field := ⟨0, 0⟩

/-! ABT_LINE_STATUS: 09_fabric_memory.md R307, Table 09-12. -/

def ABT_LINE_STATUS_MAX_WAITING : Field := ⟨47, 32⟩
def ABT_LINE_STATUS_RESET_MAX : Field := ⟨0, 0⟩

/-! ABT_METER: 10_spans_and_routing.md R341, Table 10-18. -/

def ABT_METER_ENABLE : Field := ⟨63, 63⟩
def ABT_METER_RATE : Field := ⟨41, 32⟩
def ABT_METER_CB : Field := ⟨31, 16⟩
def ABT_METER_EB : Field := ⟨15, 0⟩

/-! ABT_THROTTLE: 10_spans_and_routing.md R341, Table 10-19. -/

def ABT_THROTTLE_LEVEL : Field := ⟨63, 61⟩
def ABT_THROTTLE_HI : Field := ⟨47, 32⟩
def ABT_THROTTLE_LO : Field := ⟨31, 16⟩
def ABT_THROTTLE_MARKS : Field := ⟨0, 0⟩

/-! ABT_SPAN_STATUS: 10_spans_and_routing.md R341, Table 10-19. -/

def ABT_SPAN_STATUS_DISCARDED : Field := ⟨63, 48⟩
def ABT_SPAN_STATUS_OUT : Field := ⟨42, 32⟩
def ABT_SPAN_STATUS_IN : Field := ⟨20, 10⟩
def ABT_SPAN_STATUS_INT_USED : Field := ⟨6, 0⟩

/-! ABT_COLL_CFG: 12_collectives.md R409, Table 12-6. -/

def ABT_COLL_CFG_HOST_OK : Field := ⟨63, 63⟩
def ABT_COLL_CFG_SCRATCH : Field := ⟨47, 22⟩
def ABT_COLL_CFG_LIMIT : Field := ⟨9, 0⟩

/-! ABT_COLL_STATUS: 12_collectives.md R409, Table 12-7. -/

def ABT_COLL_STATUS_REFETCHES : Field := ⟨63, 48⟩
def ABT_COLL_STATUS_FAILED : Field := ⟨47, 32⟩
def ABT_COLL_STATUS_GROUPS : Field := ⟨22, 16⟩
def ABT_COLL_STATUS_HOSTED : Field := ⟨10, 8⟩
def ABT_COLL_STATUS_LIMIT_SEEN : Field := ⟨1, 1⟩
def ABT_COLL_STATUS_BROKEN_SEEN : Field := ⟨0, 0⟩

/-! ABT_LAGGARD: 12_collectives.md R409, Table 12-8. -/

def ABT_LAGGARD_RANK : Field := ⟨63, 48⟩
def ABT_LAGGARD_LATENESS : Field := ⟨47, 16⟩
def ABT_LAGGARD_GROUP : Field := ⟨15, 0⟩

/-! ABT_ARRIVAL: 12_collectives.md R409, Table 12-9. -/

def ABT_ARRIVAL_ARRIVAL : Field := ⟨47, 0⟩

/-! ABT_RECOVERY: 18_faults_and_recovery.md R543, Table 18-11. -/

def ABT_RECOVERY_RECOVERY_OK : Field := ⟨63, 63⟩
def ABT_RECOVERY_ROLE : Field := ⟨61, 60⟩
def ABT_RECOVERY_MATCHES : Field := ⟨47, 32⟩
def ABT_RECOVERY_STEP : Field := ⟨31, 0⟩

/-! XLT_CFG: 08_translation.md R265, Table 08-10. -/

def XLT_CFG_FQ_BASE : Field := ⟨8, 2⟩
def XLT_CFG_FQ_ON : Field := ⟨0, 0⟩

/-! XLT_FQ_IDX: 08_translation.md R265, Table 08-11. -/

def XLT_FQ_IDX_TAIL : Field := ⟨63, 48⟩
def XLT_FQ_IDX_HEAD : Field := ⟨47, 32⟩
def XLT_FQ_IDX_HELD : Field := ⟨20, 16⟩
def XLT_FQ_IDX_OVERFLOW : Field := ⟨0, 0⟩

/-! XLT_FQ_RESOLVE: 08_translation.md R265, Table 08-12. -/

def XLT_FQ_RESOLVE_ACTION : Field := ⟨16, 16⟩
def XLT_FQ_RESOLVE_SEQ : Field := ⟨15, 0⟩

/-! XLT_STATUS: 08_translation.md R265, Table 08-13. -/

def XLT_STATUS_OPEN : Field := ⟨61, 49⟩
def XLT_STATUS_SEG_FREE : Field := ⟨48, 32⟩
def XLT_STATUS_WALKERS_BUSY : Field := ⟨20, 16⟩
def XLT_STATUS_SHOOTS : Field := ⟨15, 8⟩

/-! XLT_CTX: 08_translation.md R265, Table 08-14. -/

def XLT_CTX_ENABLE : Field := ⟨63, 63⟩
def XLT_CTX_BUSY : Field := ⟨62, 62⟩
def XLT_CTX_ROOT : Field := ⟨47, 12⟩

/-! BCH_WDOG_CFG: 04_benches.md R136, Table 04-12. -/

def BCH_WDOG_CFG_INTERVAL : Field := ⟨6, 0⟩

/-! BCH_RESEAT: 05_spatial_pipelines.md R164, Table 05-4. -/

def BCH_RESEAT_ROWS : Field := ⟨23, 8⟩
def BCH_RESEAT_DONE : Field := ⟨2, 2⟩
def BCH_RESEAT_BUSY : Field := ⟨1, 1⟩
def BCH_RESEAT_GO : Field := ⟨0, 0⟩

/-! BCH_CLOCK: 05_spatial_pipelines.md R164, Table 05-5. -/

def BCH_CLOCK_TJ : Field := ⟨31, 24⟩
def BCH_CLOCK_NEIGHBOUR_TEMP : Field := ⟨17, 17⟩
def BCH_CLOCK_NEIGHBOUR_CLOCK : Field := ⟨16, 16⟩
def BCH_CLOCK_REQUESTED : Field := ⟨14, 8⟩
def BCH_CLOCK_APPLIED : Field := ⟨6, 0⟩

/-! BCH_ROW_MAP: 05_spatial_pipelines.md R164, Table 05-6. -/

def BCH_ROW_MAP_VACANT : Field := ⟨52, 32⟩
def BCH_ROW_MAP_SPARE_OK : Field := ⟨16, 16⟩
def BCH_ROW_MAP_BYPASS : Field := ⟨12, 8⟩

/-! BCH_CTX_STATUS: 04_benches.md R136, Table 04-13. -/

def BCH_CTX_STATUS_CAUSE : Field := ⟨43, 40⟩
def BCH_CTX_STATUS_OUTSTANDING : Field := ⟨39, 32⟩
def BCH_CTX_STATUS_PC : Field := ⟨26, 16⟩
def BCH_CTX_STATUS_FLAGS : Field := ⟨8, 4⟩
def BCH_CTX_STATUS_STATE : Field := ⟨3, 0⟩

/-! BCH_CTX_CTRL: 04_benches.md R136, Table 04-14. -/

def BCH_CTX_CTRL_RESUME : Field := ⟨1, 1⟩
def BCH_CTX_CTRL_KILL : Field := ⟨0, 0⟩

/-! BCH_BENCH_CFG: 05_spatial_pipelines.md R164, Table 05-7. -/

def BCH_BENCH_CFG_JOB : Field := ⟨15, 0⟩

/-! BCH_LINK_STATUS: 05_spatial_pipelines.md R164, Table 05-8. -/

def BCH_LINK_STATUS_RX_FILL_W : Field := ⟨23, 21⟩
def BCH_LINK_STATUS_RX_FILL_S : Field := ⟨20, 18⟩
def BCH_LINK_STATUS_RX_FILL_E : Field := ⟨17, 15⟩
def BCH_LINK_STATUS_RX_FILL_N : Field := ⟨14, 12⟩
def BCH_LINK_STATUS_CLOSED_USE : Field := ⟨11, 8⟩
def BCH_LINK_STATUS_OPEN : Field := ⟨3, 0⟩

/-! HCORE_BOOT: 06_host_cores.md R190, Table 06-5. -/

def HCORE_BOOT_GO : Field := ⟨63, 63⟩
def HCORE_BOOT_RUNNING : Field := ⟨62, 62⟩
def HCORE_BOOT_SIZE : Field := ⟨58, 48⟩
def HCORE_BOOT_ADDR : Field := ⟨47, 12⟩

/-! HCORE_CFG: 06_host_cores.md R190, Table 06-6. -/

def HCORE_CFG_ROUTE : Field := ⟨39, 32⟩
def HCORE_CFG_WDOG_INTERVAL : Field := ⟨22, 16⟩
def HCORE_CFG_EVT_BASE : Field := ⟨8, 2⟩
def HCORE_CFG_OVERFLOW : Field := ⟨1, 1⟩
def HCORE_CFG_EVT_ENABLE : Field := ⟨0, 0⟩

/-! HCORE_EVT_IDX: 06_host_cores.md R190, Table 06-7. -/

def HCORE_EVT_IDX_TAIL : Field := ⟨63, 48⟩
def HCORE_EVT_IDX_HEAD : Field := ⟨47, 32⟩
def HCORE_EVT_IDX_DROPPED : Field := ⟨31, 16⟩

/-! HCORE_CORE: 06_host_cores.md R190, Table 06-8. -/

def HCORE_CORE_RESTART : Field := ⟨63, 63⟩
def HCORE_CORE_KICK : Field := ⟨62, 62⟩
def HCORE_CORE_RESETS : Field := ⟨23, 16⟩
def HCORE_CORE_STATE : Field := ⟨3, 0⟩

/-! HCORE_DRING_CFG: 06_host_cores.md R190, Table 06-9. -/

def HCORE_DRING_CFG_CPL_BASE : Field := ⟨55, 45⟩
def HCORE_DRING_CFG_DESC_BASE : Field := ⟨39, 29⟩
def HCORE_DRING_CFG_SIZE : Field := ⟨28, 16⟩
def HCORE_DRING_CFG_CTX : Field := ⟨15, 8⟩
def HCORE_DRING_CFG_IRQ : Field := ⟨0, 0⟩

/-! HCORE_DRING_IDX: 06_host_cores.md R190, Table 06-10. -/

def HCORE_DRING_IDX_TAIL : Field := ⟨63, 48⟩
def HCORE_DRING_IDX_HEAD : Field := ⟨47, 32⟩
def HCORE_DRING_IDX_CPL_HEAD : Field := ⟨31, 16⟩

/-! HCORE_WEIGHTS_ADDR: 17_security_and_tenancy.md R518, Table 17-11. -/

def HCORE_WEIGHTS_ADDR_OFFSET : Field := ⟨47, 12⟩

/-! HCORE_WEIGHTS_CTRL: 17_security_and_tenancy.md R518, Table 17-12. -/

def HCORE_WEIGHTS_CTRL_GO : Field := ⟨63, 63⟩
def HCORE_WEIGHTS_CTRL_BUSY : Field := ⟨62, 62⟩
def HCORE_WEIGHTS_CTRL_RESULT : Field := ⟨61, 60⟩
def HCORE_WEIGHTS_CTRL_PAGES : Field := ⟨24, 0⟩

/-! HCORE_SEC_STATE: 17_security_and_tenancy.md R518, Table 17-13. -/

def HCORE_SEC_STATE_THROTTLE : Field := ⟨63, 32⟩
def HCORE_SEC_STATE_WINDOW : Field := ⟨31, 16⟩
def HCORE_SEC_STATE_BAND : Field := ⟨15, 14⟩
def HCORE_SEC_STATE_GENERATION : Field := ⟨11, 4⟩
def HCORE_SEC_STATE_DEBUG_SEEN : Field := ⟨3, 3⟩
def HCORE_SEC_STATE_DEBUG_OPEN : Field := ⟨2, 2⟩
def HCORE_SEC_STATE_FORERUNNER : Field := ⟨1, 1⟩
def HCORE_SEC_STATE_SEALED_ONLY : Field := ⟨0, 0⟩

/-! MEM_CFG: 13_memory_tiers.md R426, Table 13-4. -/

def MEM_CFG_CE_ROW_LIMIT : Field := ⟨11, 8⟩
def MEM_CFG_SCRUB_PERIOD : Field := ⟨7, 0⟩

/-! MEM_STATUS: 13_memory_tiers.md R426, Table 13-5. -/

def MEM_STATUS_REPAIRS : Field := ⟨47, 32⟩
def MEM_STATUS_PATROL_PASSES : Field := ⟨31, 16⟩
def MEM_STATUS_KEYED_FAR : Field := ⟨2, 2⟩
def MEM_STATUS_KEYED_NEAR : Field := ⟨1, 1⟩
def MEM_STATUS_ZERO_BUSY : Field := ⟨0, 0⟩

/-! MEM_ERR_COUNT: 13_memory_tiers.md R426, Table 13-6. -/

def MEM_ERR_COUNT_CORR_NEAR : Field := ⟨63, 44⟩
def MEM_ERR_COUNT_CORR_FAR : Field := ⟨43, 24⟩
def MEM_ERR_COUNT_UNCORR : Field := ⟨23, 12⟩
def MEM_ERR_COUNT_POISON_HITS : Field := ⟨11, 0⟩

/-! MEM_ERR_LOG: 13_memory_tiers.md R426, Table 13-7. -/

def MEM_ERR_LOG_VALID : Field := ⟨63, 63⟩
def MEM_ERR_LOG_TIER : Field := ⟨62, 62⟩
def MEM_ERR_LOG_KIND : Field := ⟨61, 60⟩
def MEM_ERR_LOG_LINE : Field := ⟨47, 7⟩

/-- The bits of a register that a write replaces, clears when written 1, and acts on when written 1. -/
structure Access where
  rw : Word
  w1c : Word
  wo : Word
  deriving DecidableEq, Repr

/-- The access codes of the register tables (00_scope.md, Conventions); every other bit is RO or RZ. -/
def Reg.access : Reg → Access
  | .CAP_ID => ⟨0x0, 0x0, 0x0⟩
  | .CAP_UNITS => ⟨0x0, 0x0, 0x0⟩
  | .CAP_START => ⟨0x0, 0x0, 0x0⟩
  | .CAP_DEFECT_COUNT => ⟨0x0, 0x0, 0x0⟩
  | .CAP_RECOVERY => ⟨0xfffffffffffff000, 0x0, 0x1⟩
  | .CAP_POSITION => ⟨0x0, 0x0, 0x0⟩
  | .CAP_DEFECT _ => ⟨0x0, 0x0, 0x0⟩
  | .HOSTIF_LINK => ⟨0x0, 0x0, 0x0⟩
  | .HOSTIF_RING_CFG _ => ⟨0x87fffff000fdffff, 0x0, 0x0⟩
  | .HOSTIF_RING_DESC _ => ⟨0xfffffffffffff000, 0x0, 0x0⟩
  | .HOSTIF_RING_CPL _ => ⟨0xfffffffffffff000, 0x0, 0x0⟩
  | .HOSTIF_RING_DB _ => ⟨0xffffffffffffffc0, 0x0, 0x0⟩
  | .HOSTIF_RING_IDX _ => ⟨0x0, 0x0, 0x0⟩
  | .HOSTIF_RING_STATUS _ => ⟨0x0, 0x0, 0x0⟩
  | .HOSTIF_RING_SEQ _ => ⟨0x0, 0x0, 0x0⟩
  | .HOSTIF_RING_CIDX _ => ⟨0x0, 0x0, 0x0⟩
  | .HOSTIF_NOTIFY => ⟨0x80fc000000000000, 0x7f, 0x0⟩
  | .HOSTIF_NOTICE_STATUS => ⟨0x0, 0x0, 0x0⟩
  | .BEAT_NOW => ⟨0x0, 0x0, 0x0⟩
  | .BEAT_STATUS => ⟨0x0, 0x300, 0x0⟩
  | .PWR_STATUS => ⟨0x0, 0x0, 0x0⟩
  | .PWR_EVENTS => ⟨0x0, 0x3f, 0x0⟩
  | .PWR_LIMITS => ⟨0x0, 0x0, 0x0⟩
  | .PWR_PENDING => ⟨0x0, 0x0, 0x0⟩
  | .PWR_STEP _ => ⟨0x0, 0x0, 0x0⟩
  | .SEC_CMD => ⟨0xfffffffffffff00f, 0x0, 0x800⟩
  | .SEC_STATUS => ⟨0x0, 0x0, 0x0⟩
  | .SEC_DEBUG => ⟨0x1, 0x0, 0x0⟩
  | .SEC_STACK => ⟨0x0, 0x0, 0x0⟩
  | .SEC_DEBUG_ACCESS_CTL => ⟨0x1fc0ffffffffffff, 0x0, 0x8000000000000000⟩
  | .SEC_DEBUG_ACCESS_DATA => ⟨0xffffffffffffffff, 0x0, 0x0⟩
  | .SEC_TENANT _ => ⟨0x0, 0x0, 0x0⟩
  | .SWC_CELL_CFG => ⟨0x7ffff0000000f, 0x0, 0x0⟩
  | .SWC_CELL_STATUS => ⟨0x0, 0x0, 0x0⟩
  | .SWC_AUDIT => ⟨0x0, 0x10000, 0x0⟩
  | .SWC_COMBINE_STATUS => ⟨0x0, 0x0, 0x0⟩
  | .SWC_ROUTE_CFG => ⟨0xffff00ff0000ff03, 0x0, 0x0⟩
  | .SWC_TENANT_Q => ⟨0xffffffff, 0x0, 0x0⟩
  | .SWC_RACK_ROUTE_GW _ => ⟨0xffffffffffffffff, 0x0, 0x0⟩
  | .SWC_RACK_ROUTE_VIA _ => ⟨0xc0000000000000ff, 0x0, 0x0⟩
  | .SWC_TRESTLE_STATUS => ⟨0x0, 0x0, 0x0⟩
  | .SWC_FENCE_STATUS => ⟨0x0, 0x0, 0x0⟩
  | .SWC_QUIET _ _ => ⟨0x0, 0x0, 0x0⟩
  | .SWC_QUIET_CLEAR => ⟨0x0, 0x0, 0x1ff⟩
  | .PORT_CTRL _ => ⟨0x400f03000000ffff, 0x0, 0x8000000000000000⟩
  | .PORT_STATUS _ => ⟨0x0, 0x0, 0x0⟩
  | .PORT_LANES _ => ⟨0x0, 0x0, 0x0⟩
  | .PORT_ERR _ => ⟨0x0, 0x0, 0x0⟩
  | .PORT_FEC_CORR _ => ⟨0x0, 0x0, 0x0⟩
  | .PORT_SHARE _ => ⟨0x7f00ffffff, 0x0, 0x0⟩
  | .PORT_RED _ _ => ⟨0xffffffff00ff0000, 0x0, 0x0⟩
  | .PORT_FWD _ => ⟨0x10f, 0x0, 0x0⟩
  | .ABT_CWIN_CFG _ => ⟨0x807fffffc0000000, 0x0, 0x0⟩
  | .ABT_CWIN_STATUS _ => ⟨0x0, 0x0, 0x0⟩
  | .ABT_DEAD_STATUS _ => ⟨0x0, 0x7, 0x0⟩
  | .ABT_LINE_STATUS _ => ⟨0x0, 0x0, 0x1⟩
  | .ABT_METER _ => ⟨0x800003ffffffffff, 0x0, 0x0⟩
  | .ABT_THROTTLE _ => ⟨0xffffffff0001, 0x0, 0x0⟩
  | .ABT_SPAN_STATUS _ => ⟨0x0, 0x0, 0x0⟩
  | .ABT_COLL_CFG _ => ⟨0x8000ffffffc003ff, 0x0, 0x0⟩
  | .ABT_COLL_STATUS _ => ⟨0x0, 0x3, 0x0⟩
  | .ABT_LAGGARD _ => ⟨0x0, 0x0, 0x0⟩
  | .ABT_ARRIVAL _ => ⟨0x0, 0x0, 0x0⟩
  | .ABT_RECOVERY _ => ⟨0x8000000000000000, 0x0, 0x0⟩
  | .XLT_CFG _ => ⟨0x1fd, 0x0, 0x0⟩
  | .XLT_FQ_IDX _ => ⟨0xffff000000000000, 0x1, 0x0⟩
  | .XLT_FQ_RESOLVE _ => ⟨0x0, 0x0, 0x1ffff⟩
  | .XLT_STATUS _ => ⟨0x0, 0x0, 0x0⟩
  | .XLT_CTX _ _ => ⟨0x8000fffffffff000, 0x0, 0x0⟩
  | .BCH_WDOG_CFG _ => ⟨0x7f, 0x0, 0x0⟩
  | .BCH_RESEAT _ => ⟨0x0, 0x4, 0x1⟩
  | .BCH_CLOCK _ => ⟨0x0, 0x0, 0x0⟩
  | .BCH_ROW_MAP _ _ => ⟨0x0, 0x0, 0x0⟩
  | .BCH_CTX_STATUS _ _ _ => ⟨0x0, 0x0, 0x0⟩
  | .BCH_CTX_CTRL _ _ _ => ⟨0x0, 0x0, 0x3⟩
  | .BCH_BENCH_CFG _ _ => ⟨0xffff, 0x0, 0x0⟩
  | .BCH_LINK_STATUS _ _ => ⟨0x0, 0x0, 0x0⟩
  | .HCORE_BOOT _ => ⟨0x7fffffffffff000, 0x0, 0x8000000000000000⟩
  | .HCORE_CFG _ => ⟨0xff007f01fd, 0x2, 0x0⟩
  | .HCORE_EVT_IDX _ => ⟨0xffff000000000000, 0x0, 0x0⟩
  | .HCORE_CORE _ _ => ⟨0x0, 0x0, 0xc000000000000000⟩
  | .HCORE_DRING_CFG _ _ => ⟨0xffe0ffffffff01, 0x0, 0x0⟩
  | .HCORE_DRING_IDX _ _ => ⟨0xffff000000000000, 0x0, 0x0⟩
  | .HCORE_WEIGHTS_ADDR _ => ⟨0xfffffffff000, 0x0, 0x0⟩
  | .HCORE_WEIGHTS_CTRL _ => ⟨0x1ffffff, 0x0, 0x8000000000000000⟩
  | .HCORE_SEC_STATE _ => ⟨0x0, 0x0, 0x0⟩
  | .MEM_CFG _ => ⟨0xfff, 0x0, 0x0⟩
  | .MEM_STATUS _ => ⟨0x0, 0x0, 0x0⟩
  | .MEM_ERR_COUNT _ => ⟨0x0, 0x0, 0x0⟩
  | .MEM_ERR_LOG _ => ⟨0x0, 0x8000000000000000, 0x0⟩

/-- CAP_UNITS of each variant (00_scope.md R6). -/
def capUnits : Variant → Word
  | .x => 0x0000003FFFFFFFFF
  | .d => 0x00000017FF5555FF
  | .l => 0x000000030000FF0F

/-- The variant code of Table 09-2. -/
def variantCode : Variant → Nat
  | .x => 1
  | .d => 2
  | .l => 3

/-- The reset value of a register on a variant. CAP_UNITS is loaded before it can be read (R5), and
CAP_ID's revisions are added when it is read (RegRead.lean). -/
def Reg.reset (v : Variant) : Reg → Word
  | .CAP_ID => BitVec.ofNat 64 (0x0042420000000000 + variantCode v)
  | .CAP_UNITS => capUnits v
  | .CAP_START => 0x100
  | .HOSTIF_RING_STATUS _ => 1
  | .PWR_STEP _ => 0x4040
  | .PWR_LIMITS =>
    match v with
    | .x => 0x0960064002BC0064
    | .d => 0x089805DC028A0064
    | .l => 0x04B00320015E0064
  | .SWC_CELL_CFG => 0x0002000000000005
  | .SWC_ROUTE_CFG => 0xFFFF001000002000
  | .SWC_TENANT_Q => 0x11111111
  | .PORT_CTRL _ => 0x0004000000000040
  | .PORT_SHARE _ => 0x0000003000040103
  | .PORT_RED _ k => if k = 1 then 0x0200040000400000 else if k = 2 then 0x0080020000FF0000
      else 0x0100000000000000
  | .ABT_THROTTLE _ => 0x0000040002000001
  | .ABT_COLL_CFG _ => 0x64
  | .BCH_WDOG_CFG _ => 0xA
  | .BCH_CLOCK _ => 0x4040
  | .BCH_ROW_MAP _ _ => 0x1500
  | .HCORE_CFG _ => 0xA0000
  | .MEM_CFG _ => 0x318
  | _ => 0

/-- The BAR0 offset of a register (19_register_map.md Table 19-2). -/
def Reg.offset : Reg → Nat
  | .CAP_ID => 0x0
  | .CAP_UNITS => 0x8
  | .CAP_START => 0x10
  | .CAP_DEFECT_COUNT => 0x18
  | .CAP_RECOVERY => 0x20
  | .CAP_POSITION => 0x28
  | .CAP_DEFECT i => 0x8000 + 8 * i
  | .HOSTIF_LINK => 0x100000
  | .HOSTIF_RING_CFG r => 0x101000 + 0x40 * r + 0x0
  | .HOSTIF_RING_DESC r => 0x101000 + 0x40 * r + 0x8
  | .HOSTIF_RING_CPL r => 0x101000 + 0x40 * r + 0x10
  | .HOSTIF_RING_DB r => 0x101000 + 0x40 * r + 0x18
  | .HOSTIF_RING_IDX r => 0x101000 + 0x40 * r + 0x20
  | .HOSTIF_RING_STATUS r => 0x101000 + 0x40 * r + 0x28
  | .HOSTIF_RING_SEQ r => 0x101000 + 0x40 * r + 0x30
  | .HOSTIF_RING_CIDX r => 0x102000 + 8 * r
  | .HOSTIF_NOTIFY => 0x103000
  | .HOSTIF_NOTICE_STATUS => 0x103008
  | .BEAT_NOW => 0x200000
  | .BEAT_STATUS => 0x200008
  | .PWR_STATUS => 0x300000
  | .PWR_EVENTS => 0x300008
  | .PWR_LIMITS => 0x300010
  | .PWR_PENDING => 0x300018
  | .PWR_STEP n => 0x300100 + 8 * n
  | .SEC_CMD => 0x400000
  | .SEC_STATUS => 0x400008
  | .SEC_DEBUG => 0x400010
  | .SEC_STACK => 0x400018
  | .SEC_DEBUG_ACCESS_CTL => 0x400020
  | .SEC_DEBUG_ACCESS_DATA => 0x400028
  | .SEC_TENANT t => 0x400100 + 8 * t
  | .SWC_CELL_CFG => 0x500000
  | .SWC_CELL_STATUS => 0x500008
  | .SWC_AUDIT => 0x500010
  | .SWC_COMBINE_STATUS => 0x500018
  | .SWC_ROUTE_CFG => 0x501000
  | .SWC_TENANT_Q => 0x501008
  | .SWC_RACK_ROUTE_GW r => 0x502000 + 0x10 * r
  | .SWC_RACK_ROUTE_VIA r => 0x502008 + 0x10 * r
  | .SWC_TRESTLE_STATUS => 0x503000
  | .SWC_FENCE_STATUS => 0x503008
  | .SWC_QUIET r k => 0x504000 + 0x40 * r + 8 * k
  | .SWC_QUIET_CLEAR => 0x504400
  | .PORT_CTRL p => 0x600000 + 0x1000 * p + 0x0
  | .PORT_STATUS p => 0x600000 + 0x1000 * p + 0x8
  | .PORT_LANES p => 0x600000 + 0x1000 * p + 0x10
  | .PORT_ERR p => 0x600000 + 0x1000 * p + 0x18
  | .PORT_FEC_CORR p => 0x600000 + 0x1000 * p + 0x20
  | .PORT_SHARE p => 0x600000 + 0x1000 * p + 0x800
  | .PORT_RED p k => 0x600000 + 0x1000 * p + 0x810 + 8 * k
  | .PORT_FWD p => 0x600000 + 0x1000 * p + 0x840
  | .ABT_CWIN_CFG n => 0x1000000 + 0x400000 * n + 0x800
  | .ABT_CWIN_STATUS n => 0x1000000 + 0x400000 * n + 0x808
  | .ABT_DEAD_STATUS n => 0x1000000 + 0x400000 * n + 0x810
  | .ABT_LINE_STATUS n => 0x1000000 + 0x400000 * n + 0x818
  | .ABT_METER n => 0x1000000 + 0x400000 * n + 0x900
  | .ABT_THROTTLE n => 0x1000000 + 0x400000 * n + 0x908
  | .ABT_SPAN_STATUS n => 0x1000000 + 0x400000 * n + 0x910
  | .ABT_COLL_CFG n => 0x1000000 + 0x400000 * n + 0xa00
  | .ABT_COLL_STATUS n => 0x1000000 + 0x400000 * n + 0xa08
  | .ABT_LAGGARD n => 0x1000000 + 0x400000 * n + 0xa10
  | .ABT_ARRIVAL n => 0x1000000 + 0x400000 * n + 0xa18
  | .ABT_RECOVERY n => 0x1000000 + 0x400000 * n + 0xb00
  | .XLT_CFG n => 0x1000000 + 0x400000 * n + 0x100000
  | .XLT_FQ_IDX n => 0x1000000 + 0x400000 * n + 0x100008
  | .XLT_FQ_RESOLVE n => 0x1000000 + 0x400000 * n + 0x100010
  | .XLT_STATUS n => 0x1000000 + 0x400000 * n + 0x100018
  | .XLT_CTX n c => 0x1000000 + 0x400000 * n + 0x101000 + 8 * c
  | .BCH_WDOG_CFG n => 0x1000000 + 0x400000 * n + 0x200000
  | .BCH_RESEAT n => 0x1000000 + 0x400000 * n + 0x200008
  | .BCH_CLOCK n => 0x1000000 + 0x400000 * n + 0x200010
  | .BCH_ROW_MAP n y => 0x1000000 + 0x400000 * n + 0x200100 + 8 * y
  | .BCH_CTX_STATUS n b c => 0x1000000 + 0x400000 * n + 0x210000 + 0x800 * b + 0x40 * c
  | .BCH_CTX_CTRL n b c => 0x1000000 + 0x400000 * n + 0x210008 + 0x800 * b + 0x40 * c
  | .BCH_BENCH_CFG n b => 0x1000000 + 0x400000 * n + 0x210400 + 0x800 * b
  | .BCH_LINK_STATUS n b => 0x1000000 + 0x400000 * n + 0x210408 + 0x800 * b
  | .HCORE_BOOT n => 0x1000000 + 0x400000 * n + 0x300000
  | .HCORE_CFG n => 0x1000000 + 0x400000 * n + 0x300008
  | .HCORE_EVT_IDX n => 0x1000000 + 0x400000 * n + 0x300010
  | .HCORE_CORE n c => 0x1000000 + 0x400000 * n + 0x300100 + 8 * c
  | .HCORE_DRING_CFG n r => 0x1000000 + 0x400000 * n + 0x300200 + 0x10 * r
  | .HCORE_DRING_IDX n r => 0x1000000 + 0x400000 * n + 0x300208 + 0x10 * r
  | .HCORE_WEIGHTS_ADDR n => 0x1000000 + 0x400000 * n + 0x300300
  | .HCORE_WEIGHTS_CTRL n => 0x1000000 + 0x400000 * n + 0x300308
  | .HCORE_SEC_STATE n => 0x1000000 + 0x400000 * n + 0x300310
  | .MEM_CFG n => 0x1000000 + 0x400000 * n + 0x380000
  | .MEM_STATUS n => 0x1000000 + 0x400000 * n + 0x380008
  | .MEM_ERR_COUNT n => 0x1000000 + 0x400000 * n + 0x380010
  | .MEM_ERR_LOG n => 0x1000000 + 0x400000 * n + 0x380018

/-- An offset within a block is `base + stride * i` for an index below `count`. -/
def indexAt (o base stride count : Nat) : Option Nat :=
  if base ≤ o ∧ (o - base) % stride = 0 ∧ (o - base) / stride < count
  then some ((o - base) / stride) else none

/-- The first answer of a list of attempts. -/
def firstSome {α : Type} : List (Option α) → Option α
  | [] => none
  | some a :: _ => some a
  | none :: t => firstSome t

/-- The register of the module's own blocks at an offset (CAP to SWC). -/
def regAtModule (o : Nat) : Option Reg :=
  match o with
  | 0x0 => some .CAP_ID
  | 0x8 => some .CAP_UNITS
  | 0x10 => some .CAP_START
  | 0x18 => some .CAP_DEFECT_COUNT
  | 0x20 => some .CAP_RECOVERY
  | 0x28 => some .CAP_POSITION
  | 0x100000 => some .HOSTIF_LINK
  | 0x103000 => some .HOSTIF_NOTIFY
  | 0x103008 => some .HOSTIF_NOTICE_STATUS
  | 0x200000 => some .BEAT_NOW
  | 0x200008 => some .BEAT_STATUS
  | 0x300000 => some .PWR_STATUS
  | 0x300008 => some .PWR_EVENTS
  | 0x300010 => some .PWR_LIMITS
  | 0x300018 => some .PWR_PENDING
  | 0x400000 => some .SEC_CMD
  | 0x400008 => some .SEC_STATUS
  | 0x400010 => some .SEC_DEBUG
  | 0x400018 => some .SEC_STACK
  | 0x400020 => some .SEC_DEBUG_ACCESS_CTL
  | 0x400028 => some .SEC_DEBUG_ACCESS_DATA
  | 0x500000 => some .SWC_CELL_CFG
  | 0x500008 => some .SWC_CELL_STATUS
  | 0x500010 => some .SWC_AUDIT
  | 0x500018 => some .SWC_COMBINE_STATUS
  | 0x501000 => some .SWC_ROUTE_CFG
  | 0x501008 => some .SWC_TENANT_Q
  | 0x503000 => some .SWC_TRESTLE_STATUS
  | 0x503008 => some .SWC_FENCE_STATUS
  | 0x504400 => some .SWC_QUIET_CLEAR
  | _ => firstSome
    [ (indexAt o 0x8000 8 4096).map .CAP_DEFECT,
      (indexAt o 0x101000 0x40 64).map .HOSTIF_RING_CFG,
      (indexAt o 0x101008 0x40 64).map .HOSTIF_RING_DESC,
      (indexAt o 0x101010 0x40 64).map .HOSTIF_RING_CPL,
      (indexAt o 0x101018 0x40 64).map .HOSTIF_RING_DB,
      (indexAt o 0x101020 0x40 64).map .HOSTIF_RING_IDX,
      (indexAt o 0x101028 0x40 64).map .HOSTIF_RING_STATUS,
      (indexAt o 0x101030 0x40 64).map .HOSTIF_RING_SEQ,
      (indexAt o 0x102000 8 64).map .HOSTIF_RING_CIDX,
      (indexAt o 0x400100 8 8).map .SEC_TENANT,
      (indexAt o 0x502000 0x10 64).map .SWC_RACK_ROUTE_GW,
      (indexAt o 0x502008 0x10 64).map .SWC_RACK_ROUTE_VIA,
      (indexAt o 0x300100 8 8).map .PWR_STEP,
      (if 0x504000 ≤ o ∧ o < 0x504240 ∧ o % 8 = 0 then some (.SWC_QUIET ((o - 0x504000) / 0x40) ((o - 0x504000) % 0x40 / 8)) else none) ]

/-- The register of port `p` at an offset within its 4 KiB block. -/
def regAtPort (p o : Nat) : Option Reg :=
  match o with
  | 0x0 => some (.PORT_CTRL p)
  | 0x8 => some (.PORT_STATUS p)
  | 0x10 => some (.PORT_LANES p)
  | 0x18 => some (.PORT_ERR p)
  | 0x20 => some (.PORT_FEC_CORR p)
  | 0x800 => some (.PORT_SHARE p)
  | 0x840 => some (.PORT_FWD p)
  | _ => (indexAt o 0x810 8 6).map (.PORT_RED p)

/-- The register of stack `n` at an offset within its 4 MiB block. -/
def regAtStack (n o : Nat) : Option Reg :=
  match o with
  | 0x800 => some (.ABT_CWIN_CFG n)
  | 0x808 => some (.ABT_CWIN_STATUS n)
  | 0x810 => some (.ABT_DEAD_STATUS n)
  | 0x818 => some (.ABT_LINE_STATUS n)
  | 0x900 => some (.ABT_METER n)
  | 0x908 => some (.ABT_THROTTLE n)
  | 0x910 => some (.ABT_SPAN_STATUS n)
  | 0xa00 => some (.ABT_COLL_CFG n)
  | 0xa08 => some (.ABT_COLL_STATUS n)
  | 0xa10 => some (.ABT_LAGGARD n)
  | 0xa18 => some (.ABT_ARRIVAL n)
  | 0xb00 => some (.ABT_RECOVERY n)
  | 0x100000 => some (.XLT_CFG n)
  | 0x100008 => some (.XLT_FQ_IDX n)
  | 0x100010 => some (.XLT_FQ_RESOLVE n)
  | 0x100018 => some (.XLT_STATUS n)
  | 0x200000 => some (.BCH_WDOG_CFG n)
  | 0x200008 => some (.BCH_RESEAT n)
  | 0x200010 => some (.BCH_CLOCK n)
  | 0x300000 => some (.HCORE_BOOT n)
  | 0x300008 => some (.HCORE_CFG n)
  | 0x300010 => some (.HCORE_EVT_IDX n)
  | 0x300300 => some (.HCORE_WEIGHTS_ADDR n)
  | 0x300308 => some (.HCORE_WEIGHTS_CTRL n)
  | 0x300310 => some (.HCORE_SEC_STATE n)
  | 0x380000 => some (.MEM_CFG n)
  | 0x380008 => some (.MEM_STATUS n)
  | 0x380010 => some (.MEM_ERR_COUNT n)
  | 0x380018 => some (.MEM_ERR_LOG n)
  | _ => firstSome
    [ (indexAt o 0x101000 8 256).map (.XLT_CTX n),
      (indexAt o 0x200100 8 16).map (.BCH_ROW_MAP n),
      (indexAt o 0x300100 8 8).map (.HCORE_CORE n),
      (indexAt o 0x300200 0x10 8).map (.HCORE_DRING_CFG n),
      (indexAt o 0x300208 0x10 8).map (.HCORE_DRING_IDX n),
      (if 0x210000 ≤ o ∧ (o - 0x210000) / 0x800 < 336 then
        let b := (o - 0x210000) / 0x800
        let r := (o - 0x210000) % 0x800
        if r = 0x400 then some (.BCH_BENCH_CFG n b)
        else if r = 0x408 then some (.BCH_LINK_STATUS n b)
        else if r < 0x200 ∧ r % 0x40 = 0 then some (.BCH_CTX_STATUS n b (r / 0x40))
        else if r < 0x200 ∧ r % 0x40 = 8 then some (.BCH_CTX_CTRL n b (r / 0x40))
        else none
       else none) ]

/-- The register at a BAR0 offset; none where the offset names no register (R545). -/
def regAt (o : Nat) : Option Reg :=
  if 0x600000 ≤ o ∧ o < 0x624000 then regAtPort ((o - 0x600000) / 0x1000) ((o - 0x600000) % 0x1000)
  else if 0x1000000 ≤ o ∧ o < 0x3000000 then
    regAtStack ((o - 0x1000000) / 0x400000) ((o - 0x1000000) % 0x400000)
  else regAtModule o

/-! ### The register file -/

/-- The stored word of a register in a register file. -/
def regLookup (v : Variant) : List (Reg × Word) → Reg → Word
  | [], r => r.reset v
  | (q, w) :: t, r => if q = r then w else regLookup v t r

/-- The register file with one register replaced. -/
def regStore : List (Reg × Word) → Reg → Word → List (Reg × Word)
  | [], r, w => [(r, w)]
  | (q, x) :: t, r, w => if q = r then (r, w) :: t else (q, x) :: regStore t r w

/-- The stored word of a register. -/
def State.reg (s : State) (r : Reg) : Word := regLookup s.variant s.regs r

/-- Store a register's word. -/
def State.setReg (s : State) (r : Reg) (w : Word) : State := { s with regs := regStore s.regs r w }

/-- The value of a field of a register. -/
def State.fld (s : State) (r : Reg) (f : Field) : Nat := getF (s.reg r) f

/-- Set a field of a register. -/
def State.setFld (s : State) (r : Reg) (f : Field) (v : Nat) : State :=
  s.setReg r (setF (s.reg r) f v)

/-- A one-bit field. -/
def State.bit (s : State) (r : Reg) (f : Field) : Bool := s.fld r f == 1

/-- Set a one-bit field. -/
def State.setBit (s : State) (r : Reg) (f : Field) (b : Bool) : State :=
  s.setFld r f (if b then 1 else 0)

/-- Add to a counter field that saturates at its largest value. -/
def State.satFld (s : State) (r : Reg) (f : Field) (n : Nat) : State :=
  s.setFld r f (satAdd (2 ^ (f.hi + 1 - f.lo) - 1) (s.fld r f) n)

/-- Return a register to its reset value. -/
def State.resetReg (s : State) (r : Reg) : State := s.setReg r (r.reset s.variant)

end Sys2Proof.Machine
end

