-- ==== Sys2Proof/Machine/Ops.lean ====
section
/-! DEFINITION. The operations that every family shares: which units there are, access to a stack, a
bench and a context, the beat number, quiet counters, events, MSI-X messages, notices, and free
values. -/

namespace Sys2Proof.Machine

/-- The answer of a meaning. -/
abbrev Res := Host.Outcome State Fault Refusal

/-! ### Units -/

/-- A unit of the model exists on no variant: the command names nothing (log entry 3). -/
def noUnit : Res := .fault .noSuchUnit

/-- CAP_UNITS, bit by bit (00_scope.md Table 00-2). -/
def State.stackPresent (s : State) (n : Nat) : Bool :=
  decide (n < 8) && bitOf (s.fld .CAP_UNITS CAP_UNITS_STACK_PRESENT) n

/-- STACK_FAILED of CAP_START (15_startup_and_defects.md R462, R463). -/
def State.stackFailed (s : State) (n : Nat) : Bool :=
  bitOf (s.fld .CAP_START CAP_START_STACK_FAILED) n

/-- A present stack that has not failed. -/
def State.stackUp (s : State) (n : Nat) : Bool := s.stackPresent n && !s.stackFailed n

def State.farPresent (s : State) (n : Nat) : Bool :=
  bitOf (s.fld .CAP_UNITS CAP_UNITS_FAR_PRESENT) n

def State.hbmPresent (s : State) (m : Nat) : Bool :=
  bitOf (s.fld .CAP_UNITS CAP_UNITS_HBM_PRESENT) m

def State.intPresent (s : State) : Bool := s.bit .CAP_UNITS CAP_UNITS_INT_PRESENT
def State.strictPresent (s : State) : Bool := s.bit .CAP_UNITS CAP_UNITS_STRICT_PRESENT
def State.cwdPresent (s : State) : Bool := s.bit .CAP_UNITS CAP_UNITS_CWD_PRESENT

/-- The I/O die of external port `p` is present (00_scope.md Table 00-2: die n carries 12n to 12n + 11). -/
def State.portPresent (s : State) (p : Nat) : Bool :=
  decide (p < 36) && bitOf (s.fld .CAP_UNITS CAP_UNITS_IODIE_PRESENT) (p / 12)

def gib : Nat := 0x40000000

/-- Bytes of the near tier of stack `n` (13_memory_tiers.md Table 13-1). -/
def State.nearSize (s : State) (n : Nat) : Nat :=
  48 * gib * ((if s.hbmPresent (2 * n) then 1 else 0) + (if s.hbmPresent (2 * n + 1) then 1 else 0))

/-- Bytes of the far tier of stack `n`. -/
def State.farSize (s : State) (n : Nat) : Nat := if s.farPresent n then 64 * gib else 0

/-- The kind of a defect entry, its stack and its index (15_startup_and_defects.md Table 15-3). -/
def defectNames (kind : BitVec 4) (stack index : Nat) (e : Word) : Bool :=
  decide (bitsOf e.toNat 63 60 = kind.toNat) && decide (bitsOf e.toNat 55 53 = stack)
    && decide (bitsOf e.toNat 47 32 = index)

/-- A unit that is in the defect list, or held failed though the list is full
(15_startup_and_defects.md R465, R466). -/
def State.unitFailed (s : State) (kind : BitVec 4) (stack index : Nat) : Bool :=
  (s.boot.defects ++ s.boot.unwritten ++ s.boot.unlisted).any (defectNames kind stack index)

/-! ### Access to the parts of State -/

def State.stack (s : State) (n : Nat) : Stack := Tab.get Stack.reset s.stackTab n

def State.setStack (s : State) (n : Nat) (k : Stack) : State :=
  { s with stackTab := Tab.put s.stackTab n k }

def State.modStack (s : State) (n : Nat) (f : Stack → Stack) : State := s.setStack n (f (s.stack n))

def Stack.bench (k : Stack) (b : Nat) : Bench := Tab.get Bench.reset k.benches b

def Stack.setBench (k : Stack) (b : Nat) (x : Bench) : Stack :=
  { k with benches := Tab.put k.benches b x }

def Bench.ctx (x : Bench) (c : Nat) : Ctx := Tab.get Ctx.reset x.ctxs c

def Bench.setCtx (x : Bench) (c : Nat) (y : Ctx) : Bench := { x with ctxs := Tab.put x.ctxs c y }

def State.bench (s : State) (n b : Nat) : Bench := (s.stack n).bench b

def State.setBench (s : State) (n b : Nat) (x : Bench) : State :=
  s.modStack n (fun k => k.setBench b x)

def State.modBench (s : State) (n b : Nat) (f : Bench → Bench) : State :=
  s.setBench n b (f (s.bench n b))

def State.ctx (s : State) (c : CtxId) : Ctx := (s.bench c.stack c.bench).ctx c.ctx

def State.setCtx (s : State) (c : CtxId) (y : Ctx) : State :=
  s.modBench c.stack c.bench (fun x => x.setCtx c.ctx y)

def State.modCtx (s : State) (c : CtxId) (f : Ctx → Ctx) : State := s.setCtx c (f (s.ctx c))

def State.port (s : State) (p : Nat) : Port := Tab.get Port.reset s.ports p

def State.setPort (s : State) (p : Nat) (x : Port) : State := { s with ports := Tab.put s.ports p x }

def State.modPort (s : State) (p : Nat) (f : Port → Port) : State := s.setPort p (f (s.port p))

/-- Answer for stack `n`; a stack number above 7 names nothing. -/
def onStack (n : Nat) (r : Res) : Res := if n < 8 then r else noUnit

/-- Answer for logical bench `b` of stack `n`. -/
def onBench (n b : Nat) (r : Res) : Res := if n < 8 ∧ b < 336 then r else noUnit

/-- Answer for a context. -/
def onCtx (c : CtxId) (r : Res) : Res := if c.stack < 8 ∧ c.bench < 336 ∧ c.ctx < 8 then r else noUnit

/-- Answer for external port `p`. -/
def onPort (p : Nat) (r : Res) : Res := if p < 36 then r else noUnit

/-- A meaning that has its effect only where its condition holds, and none otherwise (log entry 2). -/
def whenOk (b : Bool) (s t : State) : Res := .next (if b then t else s)

/-- A free value (log entry 5). -/
def State.takeFree (s : State) : Nat × State :=
  (Config.freeNat s.free, { s with free := s.free + 1 })

def State.emit (s : State) (o : Output) : State := { s with out := o :: s.out }

/-- A number for a new request, access or shootdown. -/
def State.fresh (s : State) : Nat × State := (s.nextId, { s with nextId := s.nextId + 1 })

/-! ### Time and the beat (02_rack_beat.md) -/

/-- Ticks in a beat of 1 µs (00_scope.md, Conventions). -/
def ticksPerBeat : Nat := 75200

def ticksPerMs : Nat := 75200000

def two48 : Nat := 0x1000000000000

def State.lost (s : State) : Bool := s.bit .BEAT_STATUS BEAT_STATUS_LOST
def State.mismatch (s : State) : Bool := s.bit .BEAT_STATUS BEAT_STATUS_MISMATCH

/-- Beats from the last good edge to now on the local estimate, in 1/n beat (R43): the rate is that of the last window
found in range (DESIGN CHOICE, log entry 210). -/
def State.freeBeats (s : State) (n : Nat) : Nat := (s.now - s.beat.goodAt) * (1024 * n) / s.beat.span

/-- Beats passed since reset, counted and, while LOST, estimated. -/
def State.beatsPassed (s : State) : Nat := s.beat.total + (if s.lost then s.freeBeats 1 else 0)

/-- The current beat number: the count, or while LOST the estimate from the last good edge
(R42, R47 Table 02-3). -/
def State.beatNow (s : State) : BitVec 48 :=
  if s.lost then s.beat.goodCount + BitVec.ofNat 48 (s.freeBeats 1)
  else s.beat.count

/-- The time counter of every host core (06_host_cores.md R175). -/
def State.coreTime (s : State) : Word := s.beatNow.setWidth 64

/-- Beats from now until beat `b`, modulo 2^48 (R32). -/
def State.beatsUntil (s : State) (b : BitVec 48) : Nat := (b - s.beatNow).toNat

/-- A named beat lies in the future (R32). -/
def State.inFuture (s : State) (b : BitVec 48) : Bool := decide (s.beatsUntil b < 2 ^ 47)

/-- A beat has been reached: it is the present one, or it no longer lies in the future (R32, R40; log entry 12). -/
def State.reached (s : State) (b : BitVec 48) : Bool := decide (s.beatsUntil b = 0) || !s.inFuture b

/-- LOST for more than 100 ms from the last good edge (R44). -/
def State.lostOver (s : State) : Bool :=
  s.lost && (s.beat.lostLong || decide (s.beat.goodAt + 100 * ticksPerMs < s.now))

/-! ### Node numbers, tenants -/

def State.baseNode (s : State) : BitVec 16 :=
  BitVec.ofNat 16 (s.fld .CAP_POSITION CAP_POSITION_BASE_NODE)

/-- The node of stack `n` (01_module_overview.md R17). -/
def State.node (s : State) (n : Nat) : BitVec 16 := s.baseNode + BitVec.ofNat 16 n

/-- Node bits [14:3], the module position. -/
def modulePos (node : BitVec 16) : Nat := bitsOf node.toNat 14 3

def nodeRack (node : BitVec 16) : Nat := bitsOf node.toNat 14 9

/-- Node bits [8:3], the module's index in its rack. -/
def nodeIndex (node : BitVec 16) : Nat := bitsOf node.toNat 8 3

/-- A JZB-2 node (01_module_overview.md R21, R25). -/
def jzb2 (node : BitVec 16) : Bool := node.msb

def State.fmNode (s : State) : BitVec 16 := BitVec.ofNat 16 (s.fld .SWC_ROUTE_CFG SWC_ROUTE_CFG_FM_NODE)

def secTenantField (n : Nat) : Field := ⟨8 * n + 4, 8 * n + 2⟩
def secStateField (n : Nat) : Field := ⟨8 * n + 1, 8 * n⟩

/-- TENANT_n of SEC_STACK. -/
def State.tenantOf (s : State) (n : Nat) : Nat := s.fld .SEC_STACK (secTenantField n)

/-- STATE_n of SEC_STACK: 0 FREE, 1 BOUND, 2 RELEASING. -/
def State.stackState (s : State) (n : Nat) : Nat := s.fld .SEC_STACK (secStateField n)

def State.bound (s : State) (n : Nat) : Bool := s.stackState n == 1

/-- The stack belongs to a tenant with SEALED_ONLY set (17_security_and_tenancy.md R502). -/
def State.sealedOnly (s : State) (n : Nat) : Bool :=
  s.stackState n != 0 && s.bit (.SEC_TENANT (s.tenantOf n)) SEC_TENANT_SEALED_ONLY

/-! ### Quiet counters (18_faults_and_recovery.md R523) -/

/-- Count a violation in counter `k` of row `r`. -/
def State.quiet (s : State) (r k : Nat) : State := s.satFld (.SWC_QUIET r k) SWC_QUIET_COUNT 1

def qRegister : Nat := 0
def qRights : Nat := 1
def qSource : Nat := 2
def qTarget : Nat := 3
def qDrawer : Nat := 4
def qLink : Nat := 5
def qCore : Nat := 6
def qFrame : Nat := 7

/-! ### Events to the stack runtime (06_host_cores.md R176 to R179) -/

def kib64 : Nat := 0x10000

/-- The two words of an event record (Table 06-2). -/
def eventRecord (detail code ctx bench seq : Nat) (beat : BitVec 48) : List Byte :=
  leBytes 8 (detail % 2 ^ 32 * 2 ^ 32 + code * 2 ^ 24 + ctx * 2 ^ 16 + bench)
    ++ leBytes 8 (seq * 2 ^ 48 + beat.toNat)

/-- Post an event to the runtime of stack `n`. -/
def State.event (s : State) (n code bench ctx detail : Nat) : State :=
  let head := s.fld (.HCORE_EVT_IDX n) HCORE_EVT_IDX_HEAD
  let tail := s.fld (.HCORE_EVT_IDX n) HCORE_EVT_IDX_TAIL
  if !s.stackUp n then s
  else if !s.bit (.HCORE_CFG n) HCORE_CFG_EVT_ENABLE then
    s.satFld (.HCORE_EVT_IDX n) HCORE_EVT_IDX_DROPPED 1
  else if (head + 65536 - tail) % 65536 = 4096 then
    ((s.modStack n (fun k => { k with unposted := k.unposted ++ [eventRecord detail code ctx bench 0 s.beatNow] })).setBit
      (.HCORE_CFG n) HCORE_CFG_OVERFLOW true).satFld (.HCORE_EVT_IDX n) HCORE_EVT_IDX_DROPPED 1
  else
    let at_ := kib64 * s.fld (.HCORE_CFG n) HCORE_CFG_EVT_BASE + 16 * (head % 4096)
    let rec_ := eventRecord detail code ctx bench head s.beatNow
    (s.modStack n (fun k => { k with sram := Mem.writeBytes k.sram at_ rec_ })).setFld
      (.HCORE_EVT_IDX n) HCORE_EVT_IDX_HEAD (head + 1)

/-- The order in which the events of one cycle are posted: code, logical bench, context (R180). -/
def eventKey (rec_ : List Byte) : Nat :=
  let w := leNat (rec_.take 8)
  bitsOf w 31 24 * 2 ^ 24 + bitsOf w 15 0 * 2 ^ 8 + bitsOf w 23 16

/-- Events that a stack has had recorded since an earlier state. -/
def State.newEvents (s old : State) (n : Nat) : Nat :=
  (s.fld (.HCORE_EVT_IDX n) HCORE_EVT_IDX_HEAD + 65536 - old.fld (.HCORE_EVT_IDX n) HCORE_EVT_IDX_HEAD) % 65536

/-- Where record number `i` of a stack's event ring lies (R176). -/
def State.eventAt (s : State) (n i : Nat) : Nat :=
  kib64 * s.fld (.HCORE_CFG n) HCORE_CFG_EVT_BASE + 16 * (i % 4096)

/-- The records that a step has added to a stack's event ring, put in the order of R180: where there was not room for
all, those that stand first in that order are the ones recorded. -/
def State.orderEvents (s old : State) (n : Nat) : State :=
  let head := old.fld (.HCORE_EVT_IDX n) HCORE_EVT_IDX_HEAD
  let count := s.newEvents old n
  let was := (old.stack n).unposted
  let lost := (s.stack n).unposted.drop was.length
  if count + lost.length < 2 then
    if lost.isEmpty then s else s.modStack n (fun k => { k with unposted := was })
  else
    let recs := (List.range count).map (fun i => Mem.readBytes (s.stack n).sram (s.eventAt n (head + i)) 16)
    let sorted := (sortBy (fun a b => decide (eventKey a ≤ eventKey b)) (recs ++ lost)).take count
    s.modStack n (fun k =>
      { k with
        unposted := was
        sram := sorted.zipIdx.foldl (fun m p =>
          Mem.writeBytes m (s.eventAt n (head + p.2)) (p.1.take 14 ++ leBytes 2 (head + p.2))) k.sram })

/-- The end of a step that can post events of several kinds: they stand in the order of R180 (log entry 181). -/
def inOrder (s : State) (r : Res) : Res :=
  match r with
  | .next t => .next ((List.range 8).foldl (fun u n => u.orderEvents s n) t)
  | x => x

/-- The supervisor external interrupt of core `c` is pending (R178). -/
def State.eventIrq (s : State) (n c : Nat) : Bool :=
  bitOf (s.fld (.HCORE_CFG n) HCORE_CFG_ROUTE) c &&
    s.fld (.HCORE_EVT_IDX n) HCORE_EVT_IDX_HEAD != s.fld (.HCORE_EVT_IDX n) HCORE_EVT_IDX_TAIL

def noBench : Nat := 0xFFFF

def evCtxHung : Nat := 0x01
def evCtxStopped : Nat := 0x02
def evFaultPending : Nat := 0x03
def evFaultOverflow : Nat := 0x04
def evReseatDone : Nat := 0x05
def evNeighbour : Nat := 0x06
def evBeat : Nat := 0x07
def evCoreWdog : Nat := 0x08
def evDringDone : Nat := 0x09
def evPower : Nat := 0x0A
def evTeardown : Nat := 0x0B
def evMemError : Nat := 0x0C

/-- Post an event that concerns the module to every present stack. -/
def State.eventAll (s : State) (code detail : Nat) : State :=
  (List.range 8).foldl (fun t n => t.event n code noBench 0 detail) s

/-! ### MSI-X (19_register_map.md R553, under the PCI Express rules: log entry 11) -/

/-- Dword `i` of the MSI-X table; a vector's control dword has its mask bit set at reset. -/
def State.msixWord (s : State) (i : Nat) : BitVec 32 :=
  Tab.get (if i % 4 = 3 then 1 else 0) s.host.msixTable i

/-- Send vector `v`: a masked vector becomes pending. -/
def State.msix (s : State) (v : Nat) : State :=
  if (s.msixWord (4 * v + 3)).getLsbD 0 then
    { s with host := { s.host with msixPending := s.host.msixPending ||| (1#64 <<< v) } }
  else s.emit (.msix v)

/-- Set a cause bit of HOSTIF_NOTIFY (18_faults_and_recovery.md R522). -/
def State.notify (s : State) (f : Field) : State :=
  if s.bit .HOSTIF_NOTIFY f then s
  else
    let t := s.setBit .HOSTIF_NOTIFY f true
    if t.bit .HOSTIF_NOTIFY HOSTIF_NOTIFY_ENABLE then t.msix (t.fld .HOSTIF_NOTIFY HOSTIF_NOTIFY_MSIX)
    else t

/-! ### Ports and paths (10_spans_and_routing.md R323, R324; 14_links_and_cables.md R443) -/

def portUp : Nat := 6

/-- An external port in UP is usable (R443). -/
def State.usable (s : State) (p : Nat) : Bool :=
  s.portPresent p && s.fld (.PORT_STATUS p) PORT_STATUS_STATE == portUp

/-- The far end of a port is a JZB-2 module: it forwards no Koeno traffic (R326). -/
def State.farJzb2 (s : State) (p : Nat) : Bool :=
  jzb2 (BitVec.ofNat 16 (s.fld (.PORT_STATUS p) PORT_STATUS_FAR_NODE))

/-- A usable port that leads on to other modules. -/
def State.onward (s : State) (p : Nat) : Bool := s.usable p && !s.farJzb2 p

/-- What an external port is assigned to (01_module_overview.md Table 01-4). -/
inductive PortUse where
  | bay (j : Nat)
  | column (j : Nat)
  | viaduct (v : Nat)
  | none
  deriving DecidableEq, Repr

/-- The assignment of an external port on a variant, and whether it is a B link (R22). -/
def portUse (v : Variant) (p : Nat) : PortUse × Bool :=
  match v with
  | .l =>
    if p ≤ 6 then (.bay p, false)
    else if p ≤ 10 then (.viaduct (p - 7), false)
    else if p = 11 then (.none, false)
    else if p ≤ 18 then (.column (p - 12), false)
    else if p ≤ 22 then (.viaduct (p - 15), false)
    else (.none, false)
  | _ =>
    if p ≤ 6 then (.bay p, false)
    else if p ≤ 9 then (.column (p - 7), false)
    else if p ≤ 11 then (.viaduct (p - 10), false)
    else if p ≤ 15 then (.column (p - 9), false)
    else if p ≤ 20 then (.bay (p - 16), true)
    else if p ≤ 23 then (.viaduct (p - 19), false)
    else if p ≤ 25 then (.bay (p - 19), true)
    else if p ≤ 32 then (.column (p - 26), true)
    else if p ≤ 35 then (.viaduct (p - 28), false)
    else (.none, false)

/-- A bay or column link. -/
def inRack (v : Variant) (p : Nat) : Bool :=
  match (portUse v p).1 with
  | .bay _ | .column _ => true
  | _ => false

def isViaduct (v : Variant) (p : Nat) : Bool :=
  match (portUse v p).1 with
  | .viaduct _ => true
  | _ => false

/-- Neighbour index j of a slot or bay, seen from the module's own (01_module_overview.md). -/
def neighbourIndex (own other : Nat) : Nat := if other < own then other else other - 1

/-- The external ports. -/
def extPorts : List Nat := List.range 36

/-- The port runs at JFP-2 or JFP-3 (14_links_and_cables.md R447). -/
def State.oldJfp (s : State) (p : Nat) : Bool :=
  decide (p < 36) && decide (s.fld (.PORT_STATUS p) PORT_STATUS_JFP < 4)

/-- The module's own index, slot and bay in its rack. -/
def State.index (s : State) : Nat := nodeIndex s.baseNode

/-- The usable ports towards module index `gw` of this rack: the bay hop first (R323). -/
def State.hopPorts (s : State) (gw : Nat) : List Nat :=
  let slot := s.index % 8
  let bay := s.index / 8
  extPorts.filter (fun p =>
    s.onward p &&
      (if gw % 8 ≠ slot then decide ((portUse s.variant p).1 = .bay (neighbourIndex slot (gw % 8)))
       else decide ((portUse s.variant p).1 = .column (neighbourIndex bay (gw / 8)))))

/-- The usable viaduct ports of this module to rack `r` (VIA of SWC_RACK_ROUTE, R323). -/
def State.viaPorts (s : State) (r : Nat) : List Nat :=
  let via := s.fld (.SWC_RACK_ROUTE_VIA r) SWC_RACK_ROUTE_VIA_VIA
  if s.bit (.SWC_RACK_ROUTE_VIA r) SWC_RACK_ROUTE_VIA_VALID then
    extPorts.filter (fun p => s.onward p &&
      match (portUse s.variant p).1 with
      | .viaduct v => bitOf via v
      | _ => false)
  else []

/-- The usable ports whose far end is a JZB-2 node (R326). -/
def State.jzbPorts (s : State) (node : BitVec 16) : List Nat :=
  if jzb2 node then
    extPorts.filter (fun p => s.usable p && s.fld (.PORT_STATUS p) PORT_STATUS_FAR_NODE == node.toNat)
  else []

/-- A usable path leads from this module towards a node (R323, R324, R326). -/
def State.pathTo (s : State) (node : BitVec 16) : Bool :=
  let m := s.index
  if !(s.jzbPorts node).isEmpty then true
  else if nodeRack node = nodeRack s.baseNode then
    nodeIndex node = m || !(s.hopPorts (nodeIndex node)).isEmpty
  else
    let r := nodeRack node
    !(s.viaPorts r).isEmpty ||
      (s.bit (.SWC_RACK_ROUTE_VIA r) SWC_RACK_ROUTE_VIA_VALID &&
        (List.range 64).any (fun g =>
          bitOf (s.fld (.SWC_RACK_ROUTE_GW r) SWC_RACK_ROUTE_GW_GW) g && g != m
            && !(s.hopPorts g).isEmpty))

/-! ### Packets that enter the switch (10_spans_and_routing.md R308, R309; 11_switch_die.md R343) -/

def classQ : BitVec 3 := 0
def classP : BitVec 3 := 1
def classM : BitVec 3 := 2
def classD : BitVec 3 := 3

def green : BitVec 2 := 0
def uncoloured : BitVec 2 := 3

/-- A packet as its source makes it, before its injection. -/
def newPacket (src dst : BitVec 16) (cls : BitVec 3) (op param : BitVec 8) (tenant : BitVec 3) (offset : Nat)
    (seq : BitVec 32) (payload : List Byte) : Packet :=
  { dst := dst, src := src, cls := cls, vc := 0, colour := if cls = classQ then green else uncoloured,
    mark := false, tenant := tenant, poison := false, via := 0, nonmin := false, hops := 0, gw := 0, op := op,
    param := param, offset := BitVec.ofNat 48 offset, seq := seq, payload := payload }

/-- The switch itself, as a source of packets. -/
def switchPort : Nat := 81

def intPort (n : Nat) : Nat := 64 + n

def State.modSw (s : State) (f : Switch → Switch) : State := { s with sw := f s.sw }

/-- A packet arrives at the switch from a port. -/
def State.arrive (s : State) (port : Nat) (p : Packet) : State :=
  s.modSw (fun w => { w with arrived := Tab.modify [] w.arrived port (fun l => l ++ [p]) })

/-! ### Management messages and notices (10_spans_and_routing.md R319; 18_faults_and_recovery.md R519) -/

def opBeatCheck : BitVec 8 := 0x20
def opManagement : BitVec 8 := 0x21

/-- The 64-byte payload of a message: its type in byte 0, its fields from byte 8, and zeros. -/
def mgmtPayload (type : Nat) (fields : List Byte) : List Byte :=
  (leBytes 8 (type % 256) ++ fields ++ List.replicate 64 0).take 64

/-- A MANAGEMENT packet enters the switch at its own port. The rules give no value for its message number: a free
value (log entry 183). -/
def State.sendMgmt (s : State) (src dst : BitVec 16) (type : Nat) (fields : List Byte) : State :=
  let f := s.takeFree
  f.2.arrive switchPort
    (newPacket src dst classM opManagement (BitVec.ofNat 8 type) 0 0 (BitVec.ofNat 32 f.1) (mgmtPayload type fields))

/-- Send a MANAGEMENT message of a type to a node: to none while FM_NODE names no fabric manager. -/
def State.mgmtTo (s : State) (src dst : BitVec 16) (type : Nat) (fields : List Byte) : State :=
  let t := s.emit (.mgmt src dst (BitVec.ofNat 8 type) fields)
  if dst = 0xFFFF then t else t.sendMgmt src dst type fields

/-- Send a MANAGEMENT message to the fabric manager. -/
def State.mgmt (s : State) (src : BitVec 16) (type : Nat) (fields : List Byte) : State :=
  s.mgmtTo src s.fmNode type fields

/-- Every byte of a notice's message (R519). -/
def noticeBytes (m : Notice) : List Byte :=
  leBytes 4 m.number.toNat ++ leBytes 1 m.cause.toNat ++ leBytes 1 m.stack.toNat
    ++ leBytes 6 m.beat.toNat ++ m.fields

/-- Notices go out now: a fabric manager is named and a path leads to it (R520). -/
def State.fmReachable (s : State) : Bool := s.fmNode != 0xFFFF && s.pathTo s.fmNode

/-- Hold a notice and send it, or drop it when 256 are held (R519 to R521). A dropped notice takes
no number (log entry 13, DEDUCED). `stack` is 0xFF when it concerns the module. -/
def State.notice (s : State) (cause stack : Nat) (fields : List Byte) : State :=
  if 256 ≤ s.host.notices.length then
    (s.satFld .HOSTIF_NOTICE_STATUS HOSTIF_NOTICE_STATUS_DROPPED 1).notify HOSTIF_NOTIFY_NOTICE_DROPPED
  else
    let n := s.fld .HOSTIF_NOTICE_STATUS HOSTIF_NOTICE_STATUS_NEXT
    let m : Notice :=
      { number := BitVec.ofNat 32 n, cause := BitVec.ofNat 8 cause, stack := BitVec.ofNat 8 stack,
        beat := s.beatNow, fields := fields, sentAt := s.now }
    let t := { s with host := { s.host with notices := s.host.notices ++ [m] } }
    let u := t.setFld .HOSTIF_NOTICE_STATUS HOSTIF_NOTICE_STATUS_NEXT (n + 1)
    if u.fmReachable then u.mgmt u.baseNode 0x18 (noticeBytes m) else u

def noStack : Nat := 0xFF

/-- ALERT_N is asserted: R472, R487, or a full notice queue (R521). -/
def State.alertN (s : State) : Bool := s.boot.alert || decide (256 ≤ s.host.notices.length)

/-- The instructions of the TAP (17_security_and_tenancy.md R516). -/
def irExtest : BitVec 8 := 0x00
def irIdcode : BitVec 8 := 0x01
def irSample : BitVec 8 := 0x02
def irDebug : BitVec 8 := 0x10
def irBypass : BitVec 8 := 0xFF

/-- ALERT_N is driven low at the pin: under EXTEST the boundary register drives it (20_module_connector.md R575). -/
def State.alertPin (s : State) : Bool :=
  if s.keeper.jtagIr = irExtest then Config.boundaryAlert s.keeper.boundary else s.alertN

/-- I3C_SDA is driven low by the boundary register, which drives it under EXTEST (20_module_connector.md R575). -/
def State.sdaLow (s : State) : Bool := s.keeper.jtagIr = irExtest && Config.boundarySda s.keeper.boundary

/-! ### Arguments in bytes -/

def le2 (v : Nat) : List Byte := leBytes 2 v
def le4 (v : Nat) : List Byte := leBytes 4 v
def le6 (v : Nat) : List Byte := leBytes 6 v
def le8 (v : Nat) : List Byte := leBytes 8 v
def le1 (v : Nat) : List Byte := leBytes 1 v

end Sys2Proof.Machine
end

