-- ==== Sys2Proof/Machine/Operands.lean ====
section
/-! DEFINITION. The operands of bench instructions: registers, masks, lanes, the accumulator tile,
drawer addresses and the drawer itself, and the state changes of a context (04_benches.md). -/

namespace Sys2Proof.Machine

/-! ### Registers (R86, R87) -/

/-- s0 reads as zero. -/
def Ctx.sreg (x : Ctx) (r : Nat) : Word := if r = 0 then 0 else Tab.get 0 x.sregs r

/-- A write to s0 is ignored. -/
def Ctx.setSreg (x : Ctx) (r : Nat) (v : Word) : Ctx :=
  if r = 0 then x else { x with sregs := Tab.set 0 x.sregs r v }

/-- Lane `i` of vector register `v`. -/
def Ctx.lane (x : Ctx) (v i : Nat) : Lane := Tab.get 0 x.vregs (64 * v + i)

/-- The 64 lanes of vector register `v`. -/
def Ctx.vreg (x : Ctx) (v : Nat) : List Lane := (List.range 64).map (x.lane v)

/-- The pairs of a list of values from key `k`, without zeros. -/
def listed {α : Type} [DecidableEq α] (dflt : α) : Nat → List α → Tab α
  | _, [] => []
  | k, v :: t => if v = dflt then listed dflt (k + 1) t else (k, v) :: listed dflt (k + 1) t

/-- Replace the `l.length` values from key `k`. -/
def Tab.splice {α : Type} [DecidableEq α] (dflt : α) (t : Tab α) (k : Nat) (l : List α) : Tab α :=
  t.filter (fun p => decide (p.1 < k)) ++ listed dflt k l
    ++ t.filter (fun p => decide (k + l.length ≤ p.1))

/-- Write the 64 lanes of vector register `v`. -/
def Ctx.setVreg (x : Ctx) (v : Nat) (ls : List Lane) : Ctx :=
  { x with vregs := Tab.splice 0 x.vregs (64 * v) ls }

/-- Mask k0 selects every lane. -/
def Ctx.mask (x : Ctx) (k : Nat) : Word :=
  if k = 0 then BitVec.allOnes 64 else Tab.get 0 x.kregs k

/-- k0 cannot be written. -/
def Ctx.setMask (x : Ctx) (k : Nat) (m : Word) : Ctx :=
  if k = 0 then x else { x with kregs := Tab.set 0 x.kregs k m }

/-- Element (i, j) of the accumulator tile. -/
def Ctx.elem (x : Ctx) (i j : Nat) : Lane := Tab.get 0 x.tile (64 * i + j)

/-- Row `i` of the tile. -/
def Ctx.tileRow (x : Ctx) (i : Nat) : List Lane := (List.range 64).map (x.elem i)

/-- The keys of `Ctx.ready` and `Req.dest`. -/
def sKey (r : Nat) : Nat := r
def vKey (v : Nat) : Nat := 32 + v
def kKey (k : Nat) : Nat := 96 + k

/-- An access of context `c` whose result goes to register `key` no longer writes it: a later
instruction has written it (R93). -/
def Stack.dropDest (k : Stack) (bench ctx key : Nat) : Stack :=
  { k with reqs := k.reqs.map (fun r =>
      if r.src = .ctx bench ctx ∧ r.dest = key then { r with dest := 0 } else r) }

def State.dropDest (s : State) (c : CtxId) (key : Nat) : State :=
  s.modStack c.stack (fun k => k.dropDest c.bench c.ctx key)

/-- A result to scalar register `r` of a context. -/
def State.writeS (s : State) (c : CtxId) (r : Nat) (v : Word) : State :=
  if r = 0 then s else (s.modCtx c (fun x => x.setSreg r v)).dropDest c (sKey r)

/-- A result to vector register `v`. -/
def State.writeV (s : State) (c : CtxId) (v : Nat) (ls : List Lane) : State :=
  (s.modCtx c (fun x => x.setVreg v ls)).dropDest c (vKey v)

/-- A result to mask register `k`. -/
def State.writeK (s : State) (c : CtxId) (k : Nat) (m : Word) : State :=
  s.modCtx c (fun x => x.setMask k m)

/-- The present immediate of each format, sign-extended (Tables 04-4, 04-5). -/
def simmS (f : SForm) : Word := f.imm.signExtend 64
def simmM (f : MForm) : Word := f.imm.signExtend 64

/-! ### States of a context (R127, Table 04-2) -/

/-- The states in which the progress timer runs (R127). -/
def timerRuns : CtxSt → Bool
  | .run | .waitRemote | .waitFault | .waitFlag | .waitLink => true
  | .idle | .waitBeat | .halted | .hung | .killed | .stopped => false

/-- What the progress timer holds now, in ticks. It does not run while debug holds the context
(19_register_map.md R556). -/
def Ctx.timer (x : Ctx) (now : Nat) : Nat :=
  x.timerAcc + (if timerRuns x.st && !x.dbgStop then now - x.timerFrom else 0)

/-- Stop or release a context by debug (R556). -/
def Ctx.setDbg (x : Ctx) (now : Nat) (b : Bool) : Ctx :=
  { x with timerAcc := x.timer now, timerFrom := now, dbgStop := b }

/-- Enter a state, keeping what the timer has counted. -/
def Ctx.enter (x : Ctx) (now : Nat) (st : CtxSt) : Ctx :=
  { x with timerAcc := x.timer now, timerFrom := now, st := st }

/-- Restart the progress timer. -/
def Ctx.restart (x : Ctx) (now : Nat) : Ctx := { x with timerAcc := 0, timerFrom := now }

def State.enter (s : State) (c : CtxId) (st : CtxSt) : State := s.modCtx c (fun x => x.enter s.now st)

/-- The context runs and debug does not hold it (R556). -/
def State.running (s : State) (c : CtxId) : Bool :=
  decide ((s.ctx c).st = .run) && !(s.ctx c).dbgStop

/-- The states from which a context can be stopped. -/
def stoppable : CtxSt → Bool
  | .run | .waitRemote | .waitFault | .waitFlag | .waitBeat | .waitLink => true
  | .idle | .halted | .hung | .killed | .stopped => false

/-- Take a context out of the queues of link directions that it only waits in. -/
def Bench.leaveQueues (x : Bench) (c : Nat) : Bench :=
  { x with
    txQueue := x.txQueue.map (fun p => (p.1, p.2.filter (fun d => d != c)))
    rxQueue := x.rxQueue.map (fun p => (p.1, p.2.filter (fun d => d != c))) }

/-- A context enters STOPPED with a cause, and CTX_STOPPED is posted (R177, Table 04-13). A HUNG context stays HUNG
(18_faults_and_recovery.md R525), and the stop waits for its RESUME (DESIGN CHOICE, log entry 226). -/
def State.stop (s : State) (c : CtxId) (cause : Nat) : State :=
  let quit (t : State) : State := t.modBench c.stack c.bench (fun b => b.leaveQueues c.ctx)
  if stoppable (s.ctx c).st then
    (quit (s.modCtx c (fun x =>
      { x.enter s.now .stopped with cause := BitVec.ofNat 4 cause, waits := [], stopDue := 0 }))).event c.stack evCtxStopped
      c.bench c.ctx cause
  else if (s.ctx c).st = .hung ∧ (s.ctx c).stopDue = 0 then
    quit (s.modCtx c (fun x => { x with waits := [], stopDue := cause }))
  else s

/-! ### The drawer (R94 to R100, R587) -/

def drawerSize : Nat := 0x100000

/-- The key in `Stack.drawer` of byte `a` of logical bench `b`. -/
def drawerKey (b a : Nat) : Nat := drawerSize * b + a

/-- The drawer address of an access of `len` bytes that must be a multiple of `align`, or none where
it is a violation (R95). -/
def drawerAddr (base imm : Word) (align len : Nat) : Option Nat :=
  let a := (base + imm).toNat
  if a < drawerSize ∧ a + len ≤ drawerSize ∧ a % align = 0 then some a else none

/-- Bytes of a drawer. -/
def State.drawerBytes (s : State) (n b a len : Nat) : List Byte :=
  Mem.readBytes (s.stack n).drawer (drawerKey b a) len

/-- An access touches a drawer word that holds an uncorrectable error (R100). -/
def State.drawerHasBad (s : State) (n b a len : Nat) : Bool :=
  decide (0 < len) && (s.stack n).drawerBad.any (fun w =>
    decide (8 * w < drawerKey b a + len) && decide (drawerKey b a < 8 * w + 8))

/-- Drawer words, of a list, that hold some byte of [lo, hi). -/
def touched (ws : List Nat) (lo hi : Nat) : List Nat :=
  ws.filter (fun w => decide (lo < hi) && decide (8 * w < hi) && decide (lo < 8 * w + 8))

/-- Correct single-bit errors of some drawer words, and count them (R100). -/
def Stack.fixWords (k : Stack) (ws : List Nat) : Stack :=
  { k with
    drawerSoft := k.drawerSoft.filter (fun w => !ws.contains w)
    drawerFixed := k.drawerFixed + ws.length }

/-- A read of [a, a + len) of a drawer corrects the single-bit errors it meets (R100; log entry 26). -/
def State.correct (s : State) (n b a len : Nat) : State :=
  match touched (s.stack n).drawerSoft (drawerKey b a) (drawerKey b a + len) with
  | [] => s
  | w :: ws => s.modStack n (fun k => k.fixWords (w :: ws))

/-- Store bytes from address `a` upwards, where `p` allows it. -/
def Mem.writeWhere (p : Nat → Bool) (m : Mem) (a : Nat) : List Byte → Mem
  | [] => m
  | b :: bs => Mem.writeWhere p (if p a then Mem.write m a b else m) (a + 1) bs

/-- A store to [lo, hi) covers the whole word. -/
def covers (lo hi w : Nat) : Bool := decide (lo ≤ 8 * w) && decide (8 * w + 8 ≤ hi)

/-- The words of a list that a store to [lo, hi) covers in part: an uncorrectable one it leaves unwritten, and
a single-bit error in one is corrected before the store is merged. -/
def partBad (bad : List Nat) (lo hi : Nat) : List Nat :=
  bad.filter (fun w => decide (8 * w < hi) && decide (lo < 8 * w + 8) && !covers lo hi w)

/-- A store to a drawer (R587): a word with an uncorrectable error is cleared by a store of the
whole word, and keeps every byte otherwise. A whole word also takes a fresh code, free of a single-bit error. -/
def Stack.putDrawer (k : Stack) (b a : Nat) (bs : List Byte) : Stack :=
  let lo := drawerKey b a
  let hi := lo + bs.length
  let part := partBad k.drawerBad lo hi
  { k with
    drawer := Mem.writeWhere (fun x => !part.contains (x / 8)) k.drawer lo bs
    drawerBad := k.drawerBad.filter (fun w => !covers lo hi w)
    drawerSoft := (k.drawerSoft.filter (fun w => !covers lo hi w)).filter (fun w =>
      !(partBad k.drawerSoft lo hi).contains w)
    drawerFixed := k.drawerFixed + (partBad k.drawerSoft lo hi).length }

/-- Add to a quiet counter; nothing for a count of 0. -/
def State.quietBy (s : State) (r k n : Nat) : State :=
  if n = 0 then s else s.satFld (.SWC_QUIET r k) SWC_QUIET_COUNT n

/-- A store to a drawer, with the words left unwritten counted (R587, Table 18-3). -/
def State.storeDrawer (s : State) (n b a : Nat) (bs : List Byte) : State :=
  let lo := drawerKey b a
  (s.modStack n (fun k => k.putDrawer b a bs)).quietBy n qDrawer
    (partBad (s.stack n).drawerBad lo (lo + bs.length)).length

/-- The bench names a context's drawer. -/
def State.ctxBytes (s : State) (c : CtxId) (a len : Nat) : List Byte :=
  s.drawerBytes c.stack c.bench a len

def State.ctxBad (s : State) (c : CtxId) (a len : Nat) : Bool :=
  s.drawerHasBad c.stack c.bench a len

def State.ctxCorrect (s : State) (c : CtxId) (a len : Nat) : State := s.correct c.stack c.bench a len

end Sys2Proof.Machine
end

