-- ==== Sys2Proof/Machine/Flags.lean ====
section
/-! DEFINITION. The strict flags and the results of the vector engine's operations on one lane
(03_number_formats.md R58, R59, R65 to R69, R76, R77, R583, R584; 04_benches.md R113 to R115,
R585). A result is a code and the flags that strict mode would raise for it. -/

namespace Sys2Proof.Machine

/-- Strict flags are sticky per context (R77); fast mode records none. -/
def Ctx.raise (x : Ctx) (strict : Bool) (fl : BitVec 5) : Ctx :=
  if strict then { x with flags := x.flags ||| fl } else x

def anySig (vs : List Val) : Bool := vs.any Val.isSig
def anyNan (vs : List Val) : Bool := vs.any Val.isNan

def flagIf (b : Bool) (f : BitVec 5) : BitVec 5 := if b then f else 0

/-- An arithmetic result brought to a floating format, with `extra` flags. A NaN that no input
brought is an invalid operation; an infinite result raises no rounding flag. -/
def arithResult (g : FloatFmt) (rnd : Rnd) (ovf : Bool) (r : Nat) (ins : List Val) (extra : BitVec 5)
    (v : Val) : Rounded :=
  let sig := flagIf (anySig ins) fInvalid
  match v with
  | .nan _ => (g.nan, sig ||| extra ||| flagIf (!anyNan ins) fInvalid)
  | .inf neg => (infCode g ovf neg, sig ||| extra)
  | .num neg m e =>
    let p := roundFloat g rnd ovf false r neg m e
    (p.1, p.2 ||| sig ||| extra)

/-- 0 × ∞ (R584). -/
def zeroTimesInf (a b : Val) : Bool := (a.isZero && b.isInf) || (a.isInf && b.isZero)

/-- Two values divided. -/
def divVal (a b : Val) : Val :=
  match a, b with
  | .nan s, .nan t => .nan (s || t)
  | .nan s, _ => .nan s
  | _, .nan s => .nan s
  | .inf _, .inf _ => .nan false
  | .inf x, .num n _ _ => .inf (x != n)
  | .num n _ _, .inf x => .num (n != x) 0 0
  | .num n1 m1 e1, .num n2 m2 e2 =>
    if m2 = 0 then (if m1 = 0 then .nan false else .inf (n1 != n2)) else divNum n1 m1 e1 n2 m2 e2

/-- Division by zero is raised by a finite value other than zero over zero. -/
def divZeroFlag (a b : Val) : BitVec 5 :=
  match a with
  | .num _ m _ => flagIf (decide (m ≠ 0) && b.isZero) fDivZero
  | _ => 0

def sqrtVal (a : Val) : Val :=
  match a with
  | .nan s => .nan s
  | .inf n => if n then .nan false else .inf false
  | .num n m e => if m = 0 then .num n 0 0 else if n then .nan false else sqrtNum m e

/-- The integer of a decoded integer element. -/
def Val.int (v : Val) : Int :=
  match v with
  | .num n m _ => if n then -(m : Int) else (m : Int)
  | _ => 0

/-- The two-operand basic operations of the vector engine. -/
inductive Arith2 where
  | add | sub | mul | div | min | max
  deriving DecidableEq, Repr

/-- An integer quotient (R585). -/
def intDiv (w : Nat) (rnd : Rnd) (ovf : Bool) (r : Nat) (a b : Int) : Nat :=
  if b = 0 then
    (if a = 0 then 0 else fitInt w false (if a < 0 then -(2 ^ 64) else 2 ^ 64))
  else
    match divNum (decide (a < 0)) a.natAbs 0 (decide (b < 0)) b.natAbs 0 with
    | .num n m e => fitInt w ovf (roundInt rnd r n m e)
    | _ => 0

/-- One lane of a two-operand operation. -/
def lane2 (op : Arith2) (f : Fmt) (rnd : Rnd) (ovf : Bool) (r : Nat) (x y : Nat) : Rounded :=
  let a := decodeVal f x
  let b := decodeVal f y
  match f with
  | .float g =>
    match op with
    | .add => arithResult g rnd ovf r [a, b] 0 (addVal a b)
    | .sub => arithResult g rnd ovf r [a, b] 0 (addVal a b.flip)
    | .mul => arithResult g rnd ovf r [a, b] 0 (mulVal a b)
    | .div => arithResult g rnd ovf r [a, b] (divZeroFlag a b) (divVal a b)
    | .min => ((toFmt f .rne true false 0 (minVal a b)).1, flagIf (anySig [a, b]) fInvalid)
    | .max => ((toFmt f .rne true false 0 (maxVal a b)).1, flagIf (anySig [a, b]) fInvalid)
  | .int w =>
    match op with
    | .add => (fitInt w ovf (a.int + b.int), 0)
    | .sub => (fitInt w ovf (a.int - b.int), 0)
    | .mul => (fitInt w ovf (a.int * b.int), 0)
    | .div => (intDiv w rnd ovf r a.int b.int, 0)
    | .min => (ofSigned w (min a.int b.int), 0)
    | .max => (ofSigned w (max a.int b.int), 0)

/-- One lane of the fused multiply-add (R584). -/
def laneFma (f : Fmt) (rnd : Rnd) (ovf : Bool) (r : Nat) (x y z : Nat) : Rounded :=
  let a := decodeVal f x
  let b := decodeVal f y
  let c := decodeVal f z
  match f with
  | .float g =>
    if zeroTimesInf a b then (g.nan, fInvalid)
    else arithResult g rnd ovf r [a, b, c] 0 (addVal (mulVal a b) c)
  | .int w => (fitInt w ovf (a.int * b.int + c.int), 0)

def laneSqrt (f : Fmt) (rnd : Rnd) (r : Nat) (x : Nat) : Rounded :=
  let a := decodeVal f x
  match f with
  | .float g => arithResult g rnd true r [a] 0 (sqrtVal a)
  | .int w =>
    if a.int ≤ 0 then (0, 0)
    else match sqrtNum a.int.natAbs 0 with
      | .num n m e => (ofSigned w (roundInt rnd r n m e), 0)
      | _ => (0, 0)

/-- VABS and VNEG: `ovf` acts in integer formats only (R586). -/
def laneAbs (f : Fmt) (ovf : Bool) (x : Nat) : Nat :=
  let a := decodeVal f x
  match f with
  | .float _ => (toFmt f .rne true false 0 a.abs).1
  | .int w => fitInt w ovf (a.int.natAbs : Int)

def laneNeg (f : Fmt) (ovf : Bool) (x : Nat) : Nat :=
  let a := decodeVal f x
  match f with
  | .float _ => (toFmt f .rne true false 0 a.flip).1
  | .int w => fitInt w ovf (-a.int)

/-- The comparisons. -/
inductive Cmp where
  | eq | lt | le
  deriving DecidableEq, Repr

/-- One lane of a comparison: false with a NaN. Ordered comparisons raise invalid on any NaN, the
quiet one on a signalling NaN, as IEEE 754-2019 gives. -/
def laneCmp (op : Cmp) (f : Fmt) (x y : Nat) : Bool × BitVec 5 :=
  let a := decodeVal f x
  let b := decodeVal f y
  if anyNan [a, b] then
    (false, match op with
      | .eq => flagIf (anySig [a, b]) fInvalid
      | .lt | .le => fInvalid)
  else match op with
    | .eq => (eqNum a b, 0)
    | .lt => (ltNum a b, 0)
    | .le => (ltNum a b || eqNum a b, 0)

/-! ### Reductions (R113) -/

/-- One level of a binary tree: neighbours combined; an absent operand passes the other. -/
def treeLevel {α : Type} (f : α → α → α) : List (Option α) → List (Option α)
  | a :: b :: t =>
    (match a, b with
      | some x, some y => some (f x y)
      | some x, none => some x
      | none, y => y) :: treeLevel f t
  | l => l

/-- The root of a binary tree of 2^n leaves, after n levels. -/
def treeRoot {α : Type} (f : α → α → α) : Nat → List (Option α) → Option α
  | 0, l => match l with
    | [] => none
    | x :: _ => x
  | n + 1, l => treeRoot f n (treeLevel f l)

/-- A node of VRSUM: a binary32 value rounded with RNE, which overflows to an infinity whatever ovf is (log entry 236),
or the exact int32 sum under ovf. -/
def sumNode (f : Fmt) (ovf : Bool) (a b : Val) : Val :=
  match f with
  | .float _ => ofB32 (toB32 (sumVals [a, b]))
  | .int _ => decodeVal (.int 32) (fitInt 32 ovf (a.int + b.int))

/-- VRSUM of 64 element codes. -/
def laneSum (f : Fmt) (rnd : Rnd) (ovf : Bool) (r : Nat) (m : Word) (xs : List Nat) : Nat :=
  let leaves := xs.zipIdx.map (fun p =>
    some (if m.getLsbD p.2 then decodeVal f p.1 else .num false 0 0))
  match treeRoot (sumNode f ovf) 6 leaves with
  | some v => (toFmt f rnd ovf false r v).1
  | none => 0

/-- VRMAX of 64 element codes; lanes outside the mask are absent. -/
def laneMax (f : Fmt) (m : Word) (xs : List Nat) : Nat :=
  let leaves := xs.zipIdx.map (fun p => if m.getLsbD p.2 then some (decodeVal f p.1) else none)
  match treeRoot maxVal 6 leaves with
  | some v => (toFmt f .rne true false 0 v).1
  | none => 0

/-! ### Approximate operations (R115, Table 04-9) -/

inductive Approx where
  | exp2 | log2 | rcpa | rsqa | tanh | sigm
  deriving DecidableEq, Repr

def Approx.code : Approx → Nat
  | .exp2 => 0x5B
  | .log2 => 0x5C
  | .rcpa => 0x5D
  | .rsqa => 0x5E
  | .tanh => 0x5F
  | .sigm => 0x60

/-- The special cases of Table 04-9. -/
def Approx.special (op : Approx) (v : Val) : Option Val :=
  let one (n : Bool) : Val := .num n 1 0
  let zero (n : Bool) : Val := .num n 0 0
  match op, v with
  | _, .nan _ => some (.nan false)
  | .exp2, .inf n => some (if n then zero false else .inf false)
  | .log2, .inf n => some (if n then .nan false else .inf false)
  | .log2, .num n m _ => if m = 0 then some (.inf true) else if n then some (.nan false) else none
  | .rcpa, .inf n => some (zero n)
  | .rcpa, .num n m _ => if m = 0 then some (.inf n) else none
  | .rsqa, .inf n => some (if n then .nan false else zero false)
  | .rsqa, .num n m _ => if m = 0 then some (.inf n) else if n then some (.nan false) else none
  | .tanh, .inf n => some (one n)
  | .sigm, .inf n => some (if n then zero false else one false)
  | _, _ => none

/-- y is within a relative error of 2^-22 of the reciprocal of x, or of its square root's. -/
def withinRel (square : Bool) (x y : Val) : Bool :=
  match x, y with
  | .num n1 m1 e1, .num n2 m2 e2 =>
    -- p × 2^q is x·y (or x·y²); the bounds of (1 ± 2^-22) (squared) are exact integers
    let p := if square then m1 * m2 * m2 else m1 * m2
    let q : Int := if square then e1 + 2 * e2 else e1 + e2
    let lo : Nat := if square then (2 ^ 22 - 1) ^ 2 else 2 ^ 22 - 1
    let hi : Nat := if square then (2 ^ 22 + 1) ^ 2 else 2 ^ 22 + 1
    let s : Int := q + (if square then 44 else 22)
    (n1 == n2) && (if 0 ≤ s then decide (lo ≤ p * 2 ^ s.toNat) && decide (p * 2 ^ s.toNat ≤ hi)
      else decide (lo * 2 ^ (-s).toNat ≤ p) && decide (p ≤ hi * 2 ^ (-s).toNat))
  | _, _ => false

/-- The exact result of VRCPA and VRSQA, kept to `keepBits`. -/
def exactRecip (square : Bool) (x : Val) : Val :=
  let one : Val := .num false 1 0
  if square then divVal one (sqrtVal x) else divVal one x

/-- The exact result of an approximate operation, kept to far more bits than binary32 holds. -/
def Approx.exact (op : Approx) (x : Val) : Val :=
  match op with
  | .exp2 => exp2Val x
  | .log2 => log2Val x
  | .rcpa => exactRecip false x
  | .rsqa => exactRecip true x
  | .tanh => tanhVal x
  | .sigm => sigmVal x

/-- The error that Table 04-9 allows. -/
def Approx.within (op : Approx) (x y : Val) : Bool :=
  match op with
  | .exp2 | .log2 => withinUlp 1 (op.exact x) y
  | .rcpa => withinRel false x y
  | .rsqa => withinRel true x y
  | .tanh | .sigm => withinUlp 2 (op.exact x) y

/-- The binary32 value an approximate operation first computes for an input code: a fixed function of the input's
bits, free within the error that Table 04-9 allows around the exact result for the input's exact value (log entry 7). -/
def Approx.value (op : Approx) (f : Fmt) (x : Nat) : Val :=
  let v := decodeVal f x
  match op.special v with
  | some w => w
  | none =>
    let y := ofB32 (Config.approx op.code f.tag x).toNat
    if op.within v y then y else ofB32 (toB32 (op.exact v))

/-- One lane of an approximate operation, rounded once to the format (R115). -/
def laneApprox (op : Approx) (f : Fmt) (rnd : Rnd) (ovf : Bool) (r x : Nat) : Nat :=
  (toFmt f rnd ovf false r (op.value f x)).1

/-! ### Conversions (R81 to R85, R582) -/

/-- One lane of CVT. -/
def laneCvt (src dst : Fmt) (rnd : Rnd) (ovf : Bool) (r x : Nat) : Rounded :=
  toFmt dst rnd ovf true r (decodeVal src x)

/-- A block of 32 values brought to a scaled format: the element codes, the scale code and the
flags (R62, R85). -/
def blockCvt (g : FloatFmt) (rnd : Rnd) (ovf : Bool) (rs : List Nat) (vs : List Val) :
    List Nat × Nat × BitVec 5 :=
  let s := blockScale g ovf vs
  let out := vs.zipIdx.map (fun p => toFmt (.float g) rnd ovf true (nth 0 rs p.2) (unscale s p.1))
  (out.map Prod.fst, s, out.foldl (fun a p => a ||| p.2) 0)

end Sys2Proof.Machine
end

