-- ==== Sys2Proof/Machine/Isa.lean ====
section
/-! DEFINITION. The bench instruction word: its formats (04_benches.md Tables 04-4 to 04-7), the
opcodes (Table 04-8), and what LAUNCH refuses in a program (R134, R586 and the rules they name). -/

namespace Sys2Proof.Machine

/-! ### Fields of an instruction word -/

def wBits (w : Word) (lo n : Nat) : BitVec n := w.extractLsb' lo n

def opcodeOf (w : Word) : Nat := (wBits w 56 8).toNat

def sFormOf (w : Word) : SForm where
  sd := wBits w 51 5
  sa := wBits w 46 5
  sb := wBits w 41 5
  imm := wBits w 0 32

def mFormOf (w : Word) : MForm where
  v := wBits w 50 6
  sa := wBits w 45 5
  sb := wBits w 40 5
  sc := wBits w 35 5
  opt := wBits w 32 3
  sub := wBits w 28 4
  imm := wBits w 0 28

def vFormOf (w : Word) : VForm where
  fmt := wBits w 52 4
  fmt2 := wBits w 48 4
  rnd := wBits w 46 2
  ovf := w.getLsbD 45
  strict := w.getLsbD 44
  k := wBits w 40 4
  vd := wBits w 34 6
  vs := wBits w 28 6
  vt := wBits w 22 6
  vu := wBits w 16 6
  imm := wBits w 0 16

def aFormOf (w : Word) : AForm where
  fa := wBits w 52 4
  fb := wBits w 48 4
  rnd := wBits w 46 2
  ovf := w.getLsbD 45
  strict := w.getLsbD 44
  sa := wBits w 35 5
  sb := wBits w 30 5
  sk := wBits w 25 5
  sc := wBits w 20 5

/-- Reserved bits of the format are zero (Tables 04-4, 04-7, 03-8). -/
def reservedOk (slot : Nat) (w : Word) : Bool :=
  match slot with
  | 0 => wBits w 32 9 == 0
  | 3 => wBits w 40 4 == 0 && wBits w 0 20 == 0
  | _ => true

/-! ### Opcodes by slot (Tables 04-3, 04-8) -/

def inSlot (slot op : Nat) : Bool :=
  op == 0 ||
  match slot with
  | 0 => decide (op ≤ 0x0C) || (decide (0x10 ≤ op) && decide (op ≤ 0x18))
  | 1 => decide (0x20 ≤ op) && decide (op ≤ 0x2D)
  | 2 => decide (0x40 ≤ op) && decide (op ≤ 0x61)
  | 3 => op == 0x80 || op == 0x81 || op == 0x83 || op == 0x84
  | _ => false

def isJump (op : Nat) : Bool := op == 0x10 || op == 0x11 || op == 0x12

/-- A field is zero unless it is used. -/
def zeroUnless {n : Nat} (used : Bool) (x : BitVec n) : Bool := used || x == 0

def falseUnless (used : Bool) (x : Bool) : Bool := used || !x

/-- Unused fields of a scalar and control instruction are zero (R105). -/
def sUnusedOk (op : Nat) (f : SForm) : Bool :=
  let alu := decide (3 ≤ op) && decide (op ≤ 0x0C)
  let sd := (decide (1 ≤ op) && decide (op ≤ 0x0C)) || op == 0x15 || op == 0x16
  let sa := alu || op == 0x11 || op == 0x12 || op == 0x13 || op == 0x14
  let sb := (alu && op != 4) || op == 0x13
  let imm := op == 1 || op == 2 || op == 4 || op == 0x0A || op == 0x0B || isJump op || op == 0x13
  zeroUnless sd f.sd && zeroUnless sa f.sa && zeroUnless sb f.sb && zeroUnless imm f.imm

/-- Unused fields of a memory and link instruction are zero; a scalar register number leaves bit 5
of `v` zero (Table 04-5). The field sc of a FATOM other than a compare-and-swap may hold anything (DESIGN CHOICE, log
entry 215). -/
def mUnusedOk (op : Nat) (f : MForm) : Bool :=
  let scalarV := op == 0x22 || op == 0x23 || op == 0x27
  let v := decide (op ≤ 0x24) && decide (0x20 ≤ op) || op == 0x27 || op == 0x2A || op == 0x2B
  let sa := decide (0x20 ≤ op) && decide (op ≤ 0x28)
  let sb := (decide (0x24 ≤ op) && decide (op ≤ 0x28)) || op == 0x2C || op == 0x2D
  let sc := op == 0x25 || op == 0x27 || op == 0x28 || op == 0x2C || op == 0x2D
  let opt := op == 0x27 || op == 0x28
  let sub := op == 0x20 || op == 0x21 || op == 0x27 || op == 0x28
    || (decide (0x2A ≤ op) && decide (op ≤ 0x2D))
  zeroUnless v f.v && (!scalarV || !f.v.getLsbD 5) && zeroUnless sa f.sa && zeroUnless sb f.sb
    && zeroUnless sc f.sc && zeroUnless opt f.opt && zeroUnless sub f.sub && zeroUnless sa f.imm

/-- The groups of vector opcodes. -/
def isCvt (op : Nat) : Bool := op == 0x58 || op == 0x59 || op == 0x5A
def isCmp (op : Nat) : Bool := op == 0x48 || op == 0x49 || op == 0x4A
def isApprox (op : Nat) : Bool := decide (0x5B ≤ op) && decide (op ≤ 0x60)
def isBasic (op : Nat) : Bool := decide (0x40 ≤ op) && decide (op ≤ 0x4A)
def isBitwise (op : Nat) : Bool := decide (0x4E ≤ op) && decide (op ≤ 0x52)
def isMove (op : Nat) : Bool := op == 0x4B || op == 0x53 || op == 0x54 || op == 0x55 || op == 0x61

/-- Unused fields of a vector instruction are zero (R586, Table 03-8). -/
def vUnusedOk (op : Nat) (f : VForm) : Bool :=
  let arith := decide (0x40 ≤ op) && decide (op ≤ 0x44)
  let rnd := arith || op == 0x45 || op == 0x56 || isApprox op || isCvt op
  let ovf := arith || op == 0x4C || op == 0x4D || op == 0x56 || isApprox op || isCvt op
  let strict := isBasic op || isCvt op
  let k := !(isCvt op || op == 0x61)
  let vs := op != 0x53
  let vt := (arith || op == 0x46 || op == 0x47 || isCmp op || op == 0x4B || op == 0x4E || op == 0x4F
    || op == 0x50 || op == 0x54 || op == 0x59 || op == 0x5A)
  let vu := op == 0x43
  let immBits := if op == 0x51 || op == 0x52 || op == 0x53 then 5
    else if op == 0x55 || op == 0x61 then 6 else 0
  zeroUnless (!isBitwise op) f.fmt && zeroUnless (isCvt op) f.fmt2 && zeroUnless rnd f.rnd
    && falseUnless ovf f.ovf && falseUnless strict f.strict && zeroUnless k f.k
    && zeroUnless vs f.vs && zeroUnless vt f.vt && zeroUnless vu f.vu
    && decide (f.imm.toNat < 2 ^ immBits) && (op != 0x61 || !f.vd.getLsbD 5)

/-- Unused fields of an array instruction are zero (R105, R117). -/
def aUnusedOk (op : Nat) (f : AForm) : Bool :=
  let mma := op == 0x81
  let scaled := isScaledFmt f.fa.toNat || isScaledFmt f.fb.toNat
  zeroUnless (mma || op == 0x83 || op == 0x84) f.fa && zeroUnless mma f.fb
    && zeroUnless (mma || op == 0x83) f.rnd && falseUnless (mma || op == 0x83) f.ovf
    && falseUnless mma f.strict && zeroUnless (mma || op == 0x83 || op == 0x84) f.sa
    && zeroUnless mma f.sb && zeroUnless mma f.sk && zeroUnless (mma && scaled) f.sc

/-! ### The checks of one instruction -/

/-- What LAUNCH finds wrong with an instruction. -/
inductive Flaw where
  | none | absent | badDesc
  deriving DecidableEq, Repr

def Flaw.or (a b : Flaw) : Flaw := if a = .absent ∨ b = .absent then .absent
  else if a = .badDesc ∨ b = .badDesc then .badDesc else .none

def badIf (b : Bool) : Flaw := if b then .badDesc else .none
def absentIf (b : Bool) : Flaw := if b then .absent else .none

def fmtDefined (f : BitVec 4) : Bool := (fmtOf f.toNat).isSome
def intFmt (f : BitVec 4) : Bool := isIntFmt f.toNat

/-- What the units of the variant lack for a vector instruction: integer arithmetic (R590) and
strict mode (R78). -/
def vAbsent (intUnit strictUnit : Bool) (op : Nat) (f : VForm) : Bool :=
  (!strictUnit && f.strict && (isBasic op || isCvt op))
    || (!intUnit && !isMove op && !isBitwise op && (intFmt f.fmt || (isCvt op && intFmt f.fmt2)))

/-- The form of a vector instruction is one that R134 accepts. -/
def vOk (op : Nat) (f : VForm) : Bool :=
  vUnusedOk op f
    && (isBitwise op || fmtDefined f.fmt) && (!isCvt op || fmtDefined f.fmt2)
    && f.rnd != 3
    -- R78
    && !(f.strict && f.rnd == 2)
    && !(f.strict && !isCvt op && intFmt f.fmt)
    && !(f.strict && isCvt op && intFmt f.fmt && intFmt f.fmt2)
    -- R82
    && !(op == 0x58 && (isScaledFmt f.fmt.toNat || isScaledFmt f.fmt2.toNat))
    && !(op == 0x59 && !isScaledFmt f.fmt2.toNat)
    && !(op == 0x5A && (!isScaledFmt f.fmt.toNat || isScaledFmt f.fmt2.toNat))
    -- R112
    && !(isCmp op && (f.vd.toNat == 0 || decide (15 < f.vd.toNat)))

/-- The form of an array instruction is one that R134 accepts. -/
def aOk (op : Nat) (f : AForm) : Bool :=
  aUnusedOk op f &&
  match op with
  | 0x81 =>
    fmtDefined f.fa && fmtDefined f.fb && f.rnd != 3
      && f.fa != 7 && f.fb != 7 && intFmt f.fa == intFmt f.fb
      && (if f.strict then f.rnd != 2 && !intFmt f.fa else f.rnd == 0)
  | 0x83 => fmtDefined f.fa && f.rnd != 3
  | 0x84 => f.fa == 4 || f.fa == 7
  | _ => true

def aAbsent (intUnit strictUnit : Bool) (op : Nat) (f : AForm) : Bool :=
  (!strictUnit && op == 0x81 && f.strict)
    || (!intUnit && op != 0x80 && (intFmt f.fa || (op == 0x81 && intFmt f.fb)))

/-- What the units of the variant lack for a memory instruction: an integer store-accumulate (R590). -/
def mAbsent (intUnit : Bool) (op : Nat) (f : MForm) : Bool := !intUnit && op == 0x28 && intFmt f.sub

/-- The form of a memory or link instruction is one that R134 accepts: the sub and opt values
that Table 04-8 and its notes define. Floating atomics leave opt zero and
FACC takes the format codes 0 to 7 (09_fabric_memory.md R270). -/
def mOk (op : Nat) (f : MForm) : Bool :=
  mUnusedOk op f &&
  match op with
  | 0x20 | 0x21 => fmtDefined f.sub
  | 0x27 => decide (f.sub.toNat ≤ 0xA) && decide (f.opt.toNat ≤ (if 8 ≤ f.sub.toNat then 0 else 1))
  | 0x28 => decide (f.opt.toNat < 3) && decide (f.sub.toNat < 8)
  | 0x2A | 0x2B | 0x2C | 0x2D => decide (f.sub.toNat < 4)
  | _ => true

/-- The registers an instruction of a slot writes, as keys of `Ctx.ready`; s0 is no write (R134). -/
def writtenKeys (slot op : Nat) (w : Word) : List Nat :=
  let sOf (r : Nat) : List Nat := if r = 0 then [] else [sKey r]
  match slot with
  | 0 =>
    if (decide (1 ≤ op) && decide (op ≤ 0x0C)) || op == 0x15 || op == 0x16 then
      sOf (sFormOf w).sd.toNat else []
  | 1 =>
    let f := mFormOf w
    if op == 0x20 || op == 0x24 || op == 0x2B then [vKey f.v.toNat]
    else if op == 0x22 || op == 0x27 then sOf (f.v.toNat % 32) else []
  | 2 =>
    let f := vFormOf w
    if op == 0 then []
    else if isCmp op then [kKey (f.vd.toNat % 16)]
    else if op == 0x61 then sOf (f.vd.toNat % 32)
    else if op == 0x59 && f.vd != f.vt then [vKey f.vd.toNat, vKey f.vt.toNat]
    else [vKey f.vd.toNat]
  | _ => []

/-- The registers an instruction of a slot reads (R89, R103). A masked write keeps the other lanes of
its destination, so it reads it (R111). -/
def readKeys (slot op : Nat) (w : Word) : List Nat :=
  let sOf (r : Nat) : List Nat := if r = 0 then [] else [sKey r]
  match slot with
  | 0 =>
    let f := sFormOf w
    (if op == 2 then sOf f.sd.toNat else [])
      ++ (if (decide (3 ≤ op) && decide (op ≤ 0x0C)) || op == 0x11 || op == 0x12 || op == 0x13
            || op == 0x14 then sOf f.sa.toNat else [])
      ++ (if (decide (3 ≤ op) && decide (op ≤ 0x0C) && op != 4) || op == 0x13 then sOf f.sb.toNat
          else [])
  | 1 =>
    let f := mFormOf w
    (if decide (0x20 ≤ op) && decide (op ≤ 0x28) then sOf f.sa.toNat else [])
      ++ (if (decide (0x24 ≤ op) && decide (op ≤ 0x28)) || op == 0x2C || op == 0x2D then
            sOf f.sb.toNat else [])
      ++ (if op == 0x25 || op == 0x27 || op == 0x28 || op == 0x2C || op == 0x2D then sOf f.sc.toNat
          else [])
      ++ (if op == 0x21 || op == 0x2A then [vKey f.v.toNat] else [])
      ++ (if op == 0x23 then sOf (f.v.toNat % 32) else [])
  | 2 =>
    let f := vFormOf w
    if op == 0 then []
    else
      let k := f.k.toNat
      (if op == 0x53 then sOf (f.imm.toNat % 32) else [vKey f.vs.toNat])
        ++ (if (decide (0x40 ≤ op) && decide (op ≤ 0x44)) || op == 0x46 || op == 0x47 || isCmp op
              || op == 0x4B || op == 0x4E || op == 0x4F || op == 0x50 || op == 0x54 || op == 0x5A
            then [vKey f.vt.toNat] else [])
        ++ (if op == 0x43 then [vKey f.vu.toNat] else [])
        ++ (if isCvt op || k = 0 then [] else [kKey k])
        ++ (if isCvt op || k = 0 || isCmp op || op == 0x4B || op == 0x56 || op == 0x57 then []
            else [vKey f.vd.toNat])
  | _ =>
    let f := aFormOf w
    (if op == 0x81 || op == 0x83 || op == 0x84 then sOf f.sa.toNat else [])
      ++ (if op == 0x81 then sOf f.sb.toNat ++ sOf f.sk.toNat ++ sOf f.sc.toNat else [])

/-- A list has no repeats. -/
def noRepeats : List Nat → Bool
  | [] => true
  | x :: t => !t.contains x && noRepeats t

/-- What LAUNCH finds wrong with the instruction in a slot, its jump target apart. -/
def instrFlaw (intUnit strictUnit : Bool) (slot : Nat) (w : Word) : Flaw :=
  let op := opcodeOf w
  if !inSlot slot op then .badDesc
  else if op = 0 then badIf (w != 0)
  else match slot with
    | 0 => badIf !(reservedOk 0 w && sUnusedOk op (sFormOf w))
    | 1 => 
      let f := mFormOf w
      (absentIf (mAbsent intUnit op f)).or (badIf !(mOk op f))
    | 2 =>
      let f := vFormOf w
      (absentIf (vAbsent intUnit strictUnit op f)).or
        (badIf !(vOk op f && (!isCvt op || wBits w 0 22 == 0)))
    | _ =>
      let f := aFormOf w
      (absentIf (aAbsent intUnit strictUnit op f)).or (badIf !(reservedOk 3 w && aOk op f))

/-- What LAUNCH finds wrong with a bundle of a program of `count` bundles. -/
def bundleFlaw (intUnit strictUnit : Bool) (count : Nat)
    (ws : List Word) : Flaw :=
  let jumps := match ws with
    | w :: _ => isJump (opcodeOf w) && decide (count ≤ (sFormOf w).imm.toNat)
    | [] => false
  let keys := ws.zipIdx.flatMap (fun p => writtenKeys p.2 (opcodeOf p.1) p.1)
  (ws.zipIdx.foldl (fun (a : Flaw) p => a.or (instrFlaw intUnit strictUnit p.2 p.1)) Flaw.none).or
    (badIf (jumps || !noRepeats keys))

end Sys2Proof.Machine
end

