-- ==== Sys2Proof/Machine/Contexts.lean ====
section
/-! DEFINITION. The life of a context: its outstanding accesses, the state it shows, the end of a wait,
and the meaning of a bench instruction taken as a step by itself (04_benches.md Table 04-2, R89, R92,
R103, R125 to R131). -/

namespace Sys2Proof.Machine

/-- The contexts of a stack that differ from reset: benches ascending, then contexts (R180). -/
def Stack.contexts (k : Stack) (n : Nat) : List CtxId :=
  k.benches.flatMap (fun p => p.2.ctxs.map (fun q => ⟨n, p.1, q.1⟩))

/-- The requests of a context that its abutment holds. -/
def Stack.ctxReqs (k : Stack) (b c : Nat) : List Req :=
  k.reqs.filter (fun r => decide (r.src = .ctx b c))

/-- Numbers without repeats, in order of first appearance. -/
def distinct : List Nat → List Nat
  | [] => []
  | x :: t => x :: (distinct t).filter (fun y => y != x)

/-- Fabric accesses outstanding: an access counts until its last piece is answered (R92). -/
def Stack.outstanding (k : Stack) (b c : Nat) : Nat :=
  (distinct (((k.ctxReqs b c).filter (fun r => decide (r.st ≠ .done))).map (·.acc))).length

/-- Registers whose load or atomic has not come back. -/
def Stack.pendingKeys (k : Stack) (b c : Nat) : List Nat :=
  ((k.ctxReqs b c).map (·.dest)).filter (fun d => d != 0)

/-- An access of the context waits on an open page fault (08_translation.md R245). -/
def Stack.ctxFaulted (k : Stack) (b c : Nat) : Bool :=
  k.faults.any (fun f => f.waiters.any (fun w =>
    match w with
    | .ctx b' c' _ => b' == b && c' == c
    | .desc _ _ _ => false))

/-- The four words of bundle `i` of the program store. -/
def Bench.bundle (x : Bench) (i : Nat) : List Word :=
  (List.range 4).map (fun j => Tab.get 0 x.prog (4 * i + j))

/-- PC as the registers and events show it: a context that has run past its program, or has taken HALT in
its last bundle, stays at bundle_count − 1 (R133). -/
def State.pcShown (s : State) (c : CtxId) : Nat :=
  Nat.min (s.ctx c).pc ((s.bench c.stack c.bench).bundles - 1)

/-- The registers that a bundle reads. -/
def bundleReads (ws : List Word) : List Nat :=
  ws.zipIdx.flatMap (fun p => readKeys p.2 (opcodeOf p.1) p.1)

/-- The next bundle reads a register that a reply has still to write. -/
def State.needsReply (s : State) (c : CtxId) : Bool :=
  let x := s.bench c.stack c.bench
  let pc := (s.ctx c).pc
  decide (pc < x.bundles) &&
    (bundleReads (x.bundle pc)).any (fun k => ((s.stack c.stack).pendingKeys c.bench c.ctx).contains k)

/-- The state that a context which runs or waits shows (Table 04-2). -/
def State.shown (s : State) (c : CtxId) : CtxSt :=
  let remote : CtxSt := if (s.stack c.stack).ctxFaulted c.bench c.ctx then .waitFault else .waitRemote
  match (s.ctx c).waits with
  | .flag _ _ :: _ => .waitFlag
  | .beat _ :: _ => .waitBeat
  | .send _ _ :: _ => .waitLink
  | .sendD _ _ _ :: _ => .waitLink
  | .recvV _ _ :: _ => .waitLink
  | .recvD _ _ _ :: _ => .waitLink
  | .fence :: _ => remote
  | .halt :: _ => remote
  | [] => if s.needsReply c then remote else .run

/-- Bring the state of a context to what it waits for. A HUNG context keeps HUNG, and the state it
returns to follows (R129). -/
def State.refresh (s : State) (c : CtxId) : State :=
  match (s.ctx c).st with
  | .run | .waitRemote | .waitFault | .waitFlag | .waitBeat | .waitLink =>
    if (s.ctx c).st = s.shown c then s else s.enter c (s.shown c)
  | .hung => s.modCtx c (fun x => { x with hungFrom := s.shown c })
  | .idle | .halted | .killed | .stopped => s

/-- A wait of a context ends. With its last wait the bundle retires, which restarts the progress
timer (R127). -/
def State.endWait (s : State) (c : CtxId) (p : Wait → Bool) : State :=
  let t := s.modCtx c (fun x =>
    let ws := x.waits.filter (fun w => !p w)
    let y := { x with waits := ws }
    if ws.isEmpty then y.restart s.now else y)
  t.refresh c

/-- Add a wait. -/
def State.addWait (s : State) (c : CtxId) (w : Wait) : State :=
  s.modCtx c (fun x => { x with waits := x.waits ++ [w] })

/-- The meaning of a bench instruction taken as a step by itself: it reads its sources at issue
(R103) from the running context, and has no effect where the context does not run (log entry 2). -/
def lone (s : State) (c : CtxId) (ok : Bool) (eff : Ctx → State → State) : Res :=
  onCtx c (whenOk (s.running c && ok) s ((eff (s.ctx c) s).refresh c))

/-- HALT has nothing left to wait for: every access answered, every array operation and drain of the
context finished (Table 04-8, R282). -/
def State.haltDone (s : State) (c : CtxId) : Bool :=
  decide ((s.ctx c).waits = [.halt]) && ((s.stack c.stack).ctxReqs c.bench c.ctx).isEmpty
    && decide ((s.ctx c).arrDone ≤ (s.bench c.stack c.bench).cycle)

/-- Enter HALTED (Table 04-13, CAUSE 1). -/
def State.enterHalted (s : State) (c : CtxId) : State :=
  s.modCtx c (fun x => { x.enter s.now .halted with cause := 1, waits := [] })

/-- A context of a running or waiting state: one that can make progress. -/
def alive : CtxSt → Bool
  | .run | .waitRemote | .waitFault | .waitFlag | .waitBeat | .waitLink => true
  | .idle | .halted | .hung | .killed | .stopped => false

end Sys2Proof.Machine
end

