-- ==== Sys2Proof/Machine/Vector.lean ====
section
/-! DEFINITION. The vector instructions of a bench (04_benches.md Table 04-8, opcodes 0x40 to 0x61;
03_number_formats.md Tables 03-7, 03-8). -/

namespace Sys2Proof.Machine

/-- The format a vector instruction names; a reserved code reads as K8 and is refused before
(`vOk`). -/
def vFmt (c : BitVec 4) : Fmt := (fmtOf c.toNat).getD (.float fmtK8)

def vRnd (f : VForm) : Rnd := (rndOf f.rnd).getD .rne

/-- The random bits of a draw of the context, lane by lane; zeros where the instruction does not
round with SR (R72). -/
def drawBits (sr : Bool) (x : Ctx) : List Nat :=
  (List.range 64).map (fun i => if sr then srBits x.rng i else 0)

/-- The generator after an instruction that rounds with SR (R72): one draw, whatever the mask. -/
def State.draw (s : State) (c : CtxId) (sr : Bool) : State :=
  if sr then s.modCtx c (fun x => { x with rng := srNext x.rng }) else s

def isSr (f : VForm) : Bool := f.rnd == 2

/-- The 64 element codes of a vector register. -/
def codes (x : Ctx) (v : BitVec 6) : List Nat := (x.vreg v.toNat).map BitVec.toNat

/-- Write the lanes that mask k selects; the others keep their values (R111). -/
def maskedLanes (x : Ctx) (f : VForm) (out : List Nat) : List Lane :=
  let m := x.mask f.k.toNat
  (List.range 64).map (fun i =>
    if m.getLsbD i then BitVec.ofNat 32 (nth 0 out i) else x.lane f.vd.toNat i)

/-- The flags of the lanes that mask k selects. -/
def maskedFlags (x : Ctx) (f : VForm) (out : List Rounded) : BitVec 5 :=
  let m := x.mask f.k.toNat
  out.zipIdx.foldl (fun a p => if m.getLsbD p.2 then a ||| p.1.2 else a) 0

/-- The result of a masked vector instruction, lane `i` from `g i`. -/
def vResult (c : CtxId) (f : VForm) (old : Ctx) (g : Nat → Rounded) (s : State) : State :=
  let out := (List.range 64).map g
  let t := (s.writeV c f.vd.toNat (maskedLanes old f (out.map Prod.fst))).draw c (isSr f)
  t.modCtx c (fun x => x.raise f.strict (maskedFlags old f out))

/-- A two-operand basic operation (R114, R585). -/
def effArith2 (op : Arith2) (c : CtxId) (f : VForm) (old : Ctx) (s : State) : State :=
  let rs := drawBits (isSr f) (s.ctx c)
  let xs := codes old f.vs
  let ys := codes old f.vt
  vResult c f old (fun i => lane2 op (vFmt f.fmt) (vRnd f) f.ovf (nth 0 rs i) (nth 0 xs i) (nth 0 ys i)) s

def effVfma (c : CtxId) (f : VForm) (old : Ctx) (s : State) : State :=
  let rs := drawBits (isSr f) (s.ctx c)
  let xs := codes old f.vs
  let ys := codes old f.vt
  let zs := codes old f.vu
  vResult c f old (fun i =>
    laneFma (vFmt f.fmt) (vRnd f) f.ovf (nth 0 rs i) (nth 0 xs i) (nth 0 ys i) (nth 0 zs i)) s

def effVsqrt (c : CtxId) (f : VForm) (old : Ctx) (s : State) : State :=
  let rs := drawBits (isSr f) (s.ctx c)
  let xs := codes old f.vs
  vResult c f old (fun i => laneSqrt (vFmt f.fmt) (vRnd f) (nth 0 rs i) (nth 0 xs i)) s

/-- A lane function of one operand that raises nothing and draws nothing. -/
def effMap1 (g : Nat → Nat) (c : CtxId) (f : VForm) (old : Ctx) (s : State) : State :=
  let xs := codes old f.vs
  s.writeV c f.vd.toNat (maskedLanes old f (xs.map g))

/-- A lane function of two operands that raises nothing and draws nothing. -/
def effMap2 (g : Nat → Nat → Nat) (c : CtxId) (f : VForm) (old : Ctx) (s : State) : State :=
  let xs := codes old f.vs
  let ys := codes old f.vt
  s.writeV c f.vd.toNat (maskedLanes old f (List.zipWith g xs ys))

def effVabs (c : CtxId) (f : VForm) := effMap1 (laneAbs (vFmt f.fmt) f.ovf) c f
def effVneg (c : CtxId) (f : VForm) := effMap1 (laneNeg (vFmt f.fmt) f.ovf) c f
def effVand := effMap2 (fun x y => x &&& y)
def effVor := effMap2 (fun x y => x ||| y)
def effVxor := effMap2 (fun x y => x ^^^ y)
def effVshl (c : CtxId) (f : VForm) := effMap1 (fun x => x <<< (f.imm.toNat % 32) % 2 ^ 32) c f
def effVshr (c : CtxId) (f : VForm) := effMap1 (fun x => x >>> (f.imm.toNat % 32)) c f

/-- A comparison (R111, R112): the lanes outside mask k are cleared. -/
def effCmp (op : Cmp) (c : CtxId) (f : VForm) (old : Ctx) (s : State) : State :=
  let m := old.mask f.k.toNat
  let out := (List.zipWith (laneCmp op (vFmt f.fmt)) (codes old f.vs) (codes old f.vt)).zipIdx
  let bits := out.foldl (fun (a : Nat) p => if m.getLsbD p.2 && p.1.1 then a + 2 ^ p.2 else a) 0
  let fl := out.foldl (fun (a : BitVec 5) p => if m.getLsbD p.2 then a ||| p.1.2 else a) 0
  (s.writeK c (f.vd.toNat % 16) (BitVec.ofNat 64 bits)).modCtx c (fun x => x.raise f.strict fl)

/-- The element of a lane: its low bits, of the width of fmt (R110, R590). -/
def element (f : VForm) (x : Nat) : Nat := x % 2 ^ fmtWidth f.fmt.toNat

/-- VSEL: mask k chooses between vs and vt, and every lane of vd is written (R111). -/
def effVsel (c : CtxId) (f : VForm) (old : Ctx) (s : State) : State :=
  let m := old.mask f.k.toNat
  let xs := codes old f.vs
  let ys := codes old f.vt
  s.writeV c f.vd.toNat ((List.range 64).map (fun i =>
    BitVec.ofNat 32 (element f (if m.getLsbD i then nth 0 xs i else nth 0 ys i))))

def effVmovs (c : CtxId) (f : VForm) (old : Ctx) (s : State) : State :=
  let v := element f (old.sreg (f.imm.toNat % 32)).toNat
  s.writeV c f.vd.toNat (maskedLanes old f ((List.range 64).map (fun _ => v)))

def effVperm (c : CtxId) (f : VForm) (old : Ctx) (s : State) : State :=
  let xs := codes old f.vs
  let ys := codes old f.vt
  s.writeV c f.vd.toNat
    (maskedLanes old f ((List.range 64).map (fun i => element f (nth 0 xs (nth 0 ys i % 64)))))

def effVbcast (c : CtxId) (f : VForm) (old : Ctx) (s : State) : State :=
  let v := element f (nth 0 (codes old f.vs) (f.imm.toNat % 64))
  s.writeV c f.vd.toNat (maskedLanes old f ((List.range 64).map (fun _ => v)))

/-- A result in lane 0, zero in the other lanes. -/
def lane0 (v : Nat) : List Lane := BitVec.ofNat 32 v :: List.replicate 63 0

def effVrsum (c : CtxId) (f : VForm) (old : Ctx) (s : State) : State :=
  let r := nth 0 (drawBits (isSr f) (s.ctx c)) 0
  (s.writeV c f.vd.toNat (lane0 (laneSum (vFmt f.fmt) (vRnd f) f.ovf r (old.mask f.k.toNat)
    (codes old f.vs)))).draw c (isSr f)

def effVrmax (c : CtxId) (f : VForm) (old : Ctx) (s : State) : State :=
  s.writeV c f.vd.toNat (lane0 (laneMax (vFmt f.fmt) (old.mask f.k.toNat) (codes old f.vs)))

def effApprox (op : Approx) (c : CtxId) (f : VForm) (old : Ctx) (s : State) : State :=
  let rs := drawBits (isSr f) (s.ctx c)
  let xs := codes old f.vs
  (s.writeV c f.vd.toNat (maskedLanes old f ((List.range 64).map (fun i =>
    laneApprox op (vFmt f.fmt) (vRnd f) f.ovf (nth 0 rs i) (nth 0 xs i))))).draw c (isSr f)

def effVext (c : CtxId) (f : VForm) (old : Ctx) (s : State) : State :=
  s.writeS c (f.vd.toNat % 32)
    (BitVec.ofNat 64 (element f (nth 0 (codes old f.vs) (f.imm.toNat % 64))))

/-! ### Conversions -/

def effCvt (c : CtxId) (f : VForm) (old : Ctx) (s : State) : State :=
  let rs := drawBits (isSr f) (s.ctx c)
  let xs := codes old f.vs
  vResult c f old (fun i =>
    laneCvt (vFmt f.fmt) (vFmt f.fmt2) (vRnd f) f.ovf (nth 0 rs i) (nth 0 xs i)) s

/-- The floating format of a scaled code's elements. -/
def scaledFmt (c : BitVec 4) : FloatFmt := if c = 9 then fmtK8w else fmtK8

/-- The lanes of a value the spec leaves open (log entry 16). -/
def freeLanes (n : Nat) : List Lane := (List.range 64).map (fun i => BitVec.ofNat 32 (n >>> (32 * i)))

/-- CVTB (R62, R81): the elements to vd, the two scale codes to lanes 0 and 1 of vx. The spec does not
say what the register holds when vd and vx are one: it takes a free value (log entry 16). -/
def effCvtb (c : CtxId) (f : VForm) (old : Ctx) (s : State) : State :=
  let rs := drawBits (isSr f) (s.ctx c)
  let vs := (codes old f.vs).map (decodeVal (vFmt f.fmt))
  let b0 := blockCvt (scaledFmt f.fmt2) (vRnd f) f.ovf (rs.take 32) (vs.take 32)
  let b1 := blockCvt (scaledFmt f.fmt2) (vRnd f) f.ovf (rs.drop 32) (vs.drop 32)
  let t :=
    if f.vd = f.vt then
      let p := s.takeFree
      p.2.writeV c f.vd.toNat (freeLanes p.1)
    else
      (s.writeV c f.vd.toNat ((b0.1 ++ b1.1).map (BitVec.ofNat 32))).writeV c f.vt.toNat
        (BitVec.ofNat 32 b0.2.1 :: BitVec.ofNat 32 b1.2.1 :: List.replicate 62 0)
  (t.draw c (isSr f)).modCtx c (fun x => x.raise f.strict (b0.2.2 ||| b1.2.2
    ||| flagIf (anySig vs) fInvalid))

/-- CVTU (R60, R81): the two blocks decoded with the scale codes in lanes 0 and 1 of vx. -/
def effCvtu (c : CtxId) (f : VForm) (old : Ctx) (s : State) : State :=
  let rs := drawBits (isSr f) (s.ctx c)
  let xs := codes old f.vs
  let sc := codes old f.vt
  vResult c f old (fun i =>
    toFmt (vFmt f.fmt2) (vRnd f) f.ovf true (nth 0 rs i)
      (rescale (nth 0 sc (i / 32) % 256) (decodeVal (vFmt f.fmt) (nth 0 xs i)))) s

/-! ### The commands -/

/-- A vector instruction that LAUNCH accepts on this module (R134, R590). -/
def State.runsV (s : State) (op : Nat) (f : VForm) : Bool :=
  vOk op f && !vAbsent s.intPresent s.strictPresent op f

/-- A vector instruction as a step by itself; a form that LAUNCH refuses has no effect (log entry 2). -/
def loneV (op : Nat) (c : CtxId) (f : VForm) (s : State) (eff : Ctx → State → State) : Res :=
  lone s c (s.runsV op f) eff

def execVadd (c : CtxId) (f : VForm) (s : State) : Res := loneV 0x40 c f s (effArith2 .add c f)
def execVsub (c : CtxId) (f : VForm) (s : State) : Res := loneV 0x41 c f s (effArith2 .sub c f)
def execVmul (c : CtxId) (f : VForm) (s : State) : Res := loneV 0x42 c f s (effArith2 .mul c f)
def execVfma (c : CtxId) (f : VForm) (s : State) : Res := loneV 0x43 c f s (effVfma c f)
def execVdiv (c : CtxId) (f : VForm) (s : State) : Res := loneV 0x44 c f s (effArith2 .div c f)
def execVsqrt (c : CtxId) (f : VForm) (s : State) : Res := loneV 0x45 c f s (effVsqrt c f)
def execVmin (c : CtxId) (f : VForm) (s : State) : Res := loneV 0x46 c f s (effArith2 .min c f)
def execVmax (c : CtxId) (f : VForm) (s : State) : Res := loneV 0x47 c f s (effArith2 .max c f)
def execVcmpeq (c : CtxId) (f : VForm) (s : State) : Res := loneV 0x48 c f s (effCmp .eq c f)
def execVcmplt (c : CtxId) (f : VForm) (s : State) : Res := loneV 0x49 c f s (effCmp .lt c f)
def execVcmple (c : CtxId) (f : VForm) (s : State) : Res := loneV 0x4A c f s (effCmp .le c f)
def execVsel (c : CtxId) (f : VForm) (s : State) : Res := loneV 0x4B c f s (effVsel c f)
def execVabs (c : CtxId) (f : VForm) (s : State) : Res := loneV 0x4C c f s (effVabs c f)
def execVneg (c : CtxId) (f : VForm) (s : State) : Res := loneV 0x4D c f s (effVneg c f)
def execVand (c : CtxId) (f : VForm) (s : State) : Res := loneV 0x4E c f s (effVand c f)
def execVor (c : CtxId) (f : VForm) (s : State) : Res := loneV 0x4F c f s (effVor c f)
def execVxor (c : CtxId) (f : VForm) (s : State) : Res := loneV 0x50 c f s (effVxor c f)
def execVshl (c : CtxId) (f : VForm) (s : State) : Res := loneV 0x51 c f s (effVshl c f)
def execVshr (c : CtxId) (f : VForm) (s : State) : Res := loneV 0x52 c f s (effVshr c f)
def execVmovs (c : CtxId) (f : VForm) (s : State) : Res := loneV 0x53 c f s (effVmovs c f)
def execVperm (c : CtxId) (f : VForm) (s : State) : Res := loneV 0x54 c f s (effVperm c f)
def execVbcast (c : CtxId) (f : VForm) (s : State) : Res := loneV 0x55 c f s (effVbcast c f)
def execVrsum (c : CtxId) (f : VForm) (s : State) : Res := loneV 0x56 c f s (effVrsum c f)
def execVrmax (c : CtxId) (f : VForm) (s : State) : Res := loneV 0x57 c f s (effVrmax c f)
def execCvt (c : CtxId) (f : VForm) (s : State) : Res := loneV 0x58 c f s (effCvt c f)
def execCvtb (c : CtxId) (f : VForm) (s : State) : Res := loneV 0x59 c f s (effCvtb c f)
def execCvtu (c : CtxId) (f : VForm) (s : State) : Res := loneV 0x5A c f s (effCvtu c f)
def execVexp2 (c : CtxId) (f : VForm) (s : State) : Res := loneV 0x5B c f s (effApprox .exp2 c f)
def execVlog2 (c : CtxId) (f : VForm) (s : State) : Res := loneV 0x5C c f s (effApprox .log2 c f)
def execVrcpa (c : CtxId) (f : VForm) (s : State) : Res := loneV 0x5D c f s (effApprox .rcpa c f)
def execVrsqa (c : CtxId) (f : VForm) (s : State) : Res := loneV 0x5E c f s (effApprox .rsqa c f)
def execVtanh (c : CtxId) (f : VForm) (s : State) : Res := loneV 0x5F c f s (effApprox .tanh c f)
def execVsigm (c : CtxId) (f : VForm) (s : State) : Res := loneV 0x60 c f s (effApprox .sigm c f)
def execVext (c : CtxId) (f : VForm) (s : State) : Res := loneV 0x61 c f s (effVext c f)

end Sys2Proof.Machine
end

