-- ==== Sys2Proof/Machine/Array.lean ====
section
/-! DEFINITION. The array instructions of a bench (04_benches.md R117 to R122, R591;
03_number_formats.md R63, R74, R75, R80). -/

namespace Sys2Proof.Machine

/-- Bytes of an element of a format code. -/
def fmtBytes (c : BitVec 4) : Nat := fmtWidth c.toNat / 8

/-- Elements of `w` bytes each. -/
def elements (w : Nat) (bs : List Byte) : List Nat := (chunksOf w bs.length bs).map leNat

/-- K rows of 64 decoded elements; with scale bytes, two to a row, each element times its scale. -/
def operandRows (f : BitVec 4) (els scales : List Nat) : List (List Val) :=
  (chunksOf 64 els.length els).zipIdx.map (fun p =>
    p.1.zipIdx.map (fun q =>
      let v := decodeVal (vFmt f) q.1
      if isScaledFmt f.toNat then rescale (nth 0 scales (2 * p.2 + q.2 / 32)) v else v))

/-- One group of 64 products added to an element in fast mode (R74): one rounding. -/
def groupFast (ovf : Bool) (acc : Lane) (xs ys : List Val) : Lane :=
  BitVec.ofNat 32 (toFmt (.float fmtB32) .rne ovf false 0
    (sumVals (ofB32 acc.toNat :: List.zipWith mulVal xs ys))).1

/-- One group of 64 integer products (R120). -/
def groupInt (ovf : Bool) (acc : Lane) (xs ys : List Val) : Lane :=
  let sum := (List.zipWith (fun a b => a.int * b.int) xs ys).foldl (fun a b => a + b) 0
  BitVec.ofNat 32 (fitInt 32 ovf (acc.toInt + sum))

/-- One step of strict mode (R75): a fused multiply-add in binary32. -/
def stepStrict (rnd : Rnd) (ovf : Bool) (p : Lane × BitVec 5) (a b : Val) : Lane × BitVec 5 :=
  let c := ofB32 p.1.toNat
  let r : Rounded := if zeroTimesInf a b then (fmtB32.nan, fInvalid)
    else arithResult fmtB32 rnd ovf 0 [a, b, c] 0 (addVal (mulVal a b) c)
  (BitVec.ofNat 32 r.1, p.2 ||| r.2)

/-- Element (i, j) after the whole reduction, from the columns of A and B it takes. -/
def ammaElem (f : AForm) (acc : Lane) (xs ys : List Val) : Lane × BitVec 5 :=
  if f.strict then
    (List.zip xs ys).foldl (fun p q => stepStrict ((rndOf f.rnd).getD .rne) f.ovf p q.1 q.2) (acc, 0)
  else
    let g := if isIntFmt f.fa.toNat then groupInt f.ovf else groupFast f.ovf
    ((List.zip (chunksOf 64 xs.length xs) (chunksOf 64 ys.length ys)).foldl
      (fun a q => g a q.1 q.2) acc, 0)

/-- Column `i` of a list of rows. -/
def column (rows : List (List Val)) (i : Nat) : List Val := rows.map (fun r => nth (.num false 0 0) r i)

/-- Where AMMA's operands and scale bytes lie; none where one of them breaks the drawer rule (R95,
R117). -/
structure AmmaArea where
  a : Nat
  aLen : Nat
  b : Nat
  bLen : Nat
  sa : Nat
  saLen : Nat
  sb : Nat
  sbLen : Nat
  deriving DecidableEq, Repr

/-- AMMA reads its operands and its scale bytes (R100). -/
def State.ammaCorrect (s : State) (c : CtxId) (m : AmmaArea) : State :=
  (((s.ctxCorrect c m.a m.aLen).ctxCorrect c m.b m.bLen).ctxCorrect c m.sa m.saLen).ctxCorrect c m.sb m.sbLen

/-- The drawer areas of an AMMA. The address of the scale bytes is a multiple of 64 too, which R95 does not name apart
(DESIGN CHOICE, log entry 214). -/
def ammaArea (f : AForm) (old : Ctx) (k : Nat) : Option AmmaArea :=
  let aLen := 64 * k * fmtBytes f.fa
  let bLen := 64 * k * fmtBytes f.fb
  let sc := old.sreg f.sc.toNat
  let aScaled := isScaledFmt f.fa.toNat
  let bScaled := isScaledFmt f.fb.toNat
  match drawerAddr (old.sreg f.sa.toNat) 0 64 aLen, drawerAddr (old.sreg f.sb.toNat) 0 64 bLen with
  | some a, some b =>
    let sLen := (if aScaled then 2 * k else 0) + (if bScaled then 2 * k else 0)
    if sLen = 0 then some ⟨a, aLen, b, bLen, 0, 0, 0, 0⟩
    else
      match drawerAddr sc 0 64 sLen with
      | none => none
      | some s =>
        if aScaled then some ⟨a, aLen, b, bLen, s, 2 * k, s + 2 * k, if bScaled then 2 * k else 0⟩
        else some ⟨a, aLen, b, bLen, 0, 0, s, 2 * k⟩
  | _, _ => none

/-- AMMA (R117 to R121, R591). A run-time K that breaks R117 has no effect and is counted (R121); an
operand that breaks the drawer rule has none and is counted (R95); an uncorrectable operand word
stops the context (R100). -/
def effAmma (c : CtxId) (f : AForm) (old : Ctx) (s : State) : State :=
  let k := (old.sreg f.sk.toNat).toNat
  if k % 64 ≠ 0 ∨ k < 64 ∨ 4096 < k then s.quiet c.stack qSource
  else
    match ammaArea f old k with
    | none => s.quiet c.stack qDrawer
    | some m =>
      if s.ctxBad c m.a m.aLen || s.ctxBad c m.b m.bLen || s.ctxBad c m.sa m.saLen
          || s.ctxBad c m.sb m.sbLen then (s.ammaCorrect c m).stop c 4
      else
        let aRows := operandRows f.fa (elements (fmtBytes f.fa) (s.ctxBytes c m.a m.aLen))
          (elements 1 (s.ctxBytes c m.sa m.saLen))
        let bRows := operandRows f.fb (elements (fmtBytes f.fb) (s.ctxBytes c m.b m.bLen))
          (elements 1 (s.ctxBytes c m.sb m.sbLen))
        let aCols := (List.range 64).map (column aRows)
        let bCols := (List.range 64).map (column bRows)
        let out := (List.range 4096).map (fun q =>
          ammaElem f (old.elem (q / 64) (q % 64)) (nth [] aCols (q / 64)) (nth [] bCols (q % 64)))
        (s.ammaCorrect c m).modCtx c (fun x =>
          ({ x with
              tile := Tab.splice 0 x.tile 0 (out.map Prod.fst)
              tileInt := isIntFmt f.fa.toNat }).raise f.strict
            (out.foldl (fun (a : BitVec 5) (p : Lane × BitVec 5) => a ||| p.2) 0))

/-- AZERO: the tile is zero and keeps its format (R591). -/
def effAzero (c : CtxId) (_f : AForm) (_old : Ctx) (s : State) : State :=
  s.modCtx c (fun x => { x with tile := [] })

/-- The format that the tile carries (R591). -/
def tileFmt (x : Ctx) : Fmt := if x.tileInt then .int 32 else .float fmtB32

/-- One drained row: its element codes and, for a scaled format, its two scale codes (R122). -/
def drainRow (f : AForm) (src : Fmt) (rs : List Nat) (row : List Lane) : List Nat × List Nat :=
  let vs := row.map (fun l => decodeVal src l.toNat)
  let rnd := (rndOf f.rnd).getD .rne
  if isScaledFmt f.fa.toNat then
    let b0 := blockCvt (scaledFmt f.fa) rnd f.ovf (rs.take 32) (vs.take 32)
    let b1 := blockCvt (scaledFmt f.fa) rnd f.ovf (rs.drop 32) (vs.drop 32)
    (b0.1 ++ b1.1, [b0.2.1, b1.2.1])
  else (vs.zipIdx.map (fun p => (toFmt (vFmt f.fa) rnd f.ovf true (nth 0 rs p.2) p.1).1), [])

/-- The random bits of row `i` of a drain: one draw per row, in ascending order (R72, R122). -/
def rowBits (sr : Bool) (x : Ctx) (i : Nat) : List Nat :=
  (List.range 64).map (fun j => if sr then srBits (x.rng + BitVec.ofNat 64 i * 64 * sm64) j else 0)

/-- The bytes that ADRAIN writes: the rows, then the scale bytes, two per row. -/
def drainBytes (f : AForm) (old x : Ctx) : List Byte :=
  let sr := f.rnd == 2
  let rows := (List.range 64).map (fun i => drainRow f (tileFmt old) (rowBits sr x i) (old.tileRow i))
  rows.flatMap (fun p => p.1.flatMap (leBytes (fmtBytes f.fa)))
    ++ rows.flatMap (fun p => p.2.map (BitVec.ofNat 8))

/-- The bytes a drain takes. -/
def drainLen (f : AForm) : Nat :=
  4096 * fmtBytes f.fa + (if isScaledFmt f.fa.toNat then 128 else 0)

/-- ADRAIN (R122): the tile is not cleared. Past the end of the drawer it has no effect (R95). -/
def effAdrain (c : CtxId) (f : AForm) (old : Ctx) (s : State) : State :=
  match drawerAddr (old.sreg f.sa.toNat) 0 64 (drainLen f) with
  | none => s.quiet c.stack qDrawer
  | some a =>
    let t := s.storeDrawer c.stack c.bench a (drainBytes f old (s.ctx c))
    if f.rnd = 2 then t.modCtx c (fun x => { x with rng := x.rng + 64 * 64 * sm64 }) else t

/-- ALOAD (Table 04-8, R591). -/
def effAload (c : CtxId) (f : AForm) (old : Ctx) (s : State) : State :=
  match drawerAddr (old.sreg f.sa.toNat) 0 64 16384 with
  | none => s.quiet c.stack qDrawer
  | some a =>
    if s.ctxBad c a 16384 then (s.ctxCorrect c a 16384).stop c 4
    else
      (s.ctxCorrect c a 16384).modCtx c (fun x =>
        { x with
          tile := Tab.splice 0 x.tile 0 ((elements 4 (s.ctxBytes c a 16384)).map (BitVec.ofNat 32))
          tileInt := f.fa == 7 })

/-- An array instruction that LAUNCH accepts on this module (R134, R590). -/
def State.runsA (s : State) (op : Nat) (f : AForm) : Bool :=
  aOk op f && !aAbsent s.intPresent s.strictPresent op f

/-- An array instruction as a step by itself; a form that LAUNCH refuses has no effect (log entry 2). -/
def loneA (op : Nat) (c : CtxId) (f : AForm) (s : State) (eff : Ctx → State → State) : Res :=
  lone s c (s.runsA op f) eff

def execAzero (c : CtxId) (f : AForm) (s : State) : Res := loneA 0x80 c f s (effAzero c f)
def execAmma (c : CtxId) (f : AForm) (s : State) : Res := loneA 0x81 c f s (effAmma c f)
def execAdrain (c : CtxId) (f : AForm) (s : State) : Res := loneA 0x83 c f s (effAdrain c f)
def execAload (c : CtxId) (f : AForm) (s : State) : Res := loneA 0x84 c f s (effAload c f)

end Sys2Proof.Machine
end

