-- ==== Sys2Proof/Machine/Tiers.lean ====
section
/-! DEFINITION. The memory of a stack as its abutment and memory engines reach it: lines with their
marks and errors (13_memory_tiers.md R411 to R421, Table 13-2), the drawers of the drawer window
(09_fabric_memory.md R267; 04_benches.md R97, R100, R587; 05_spatial_pipelines.md R158 to R160), and
the arithmetic of atomics and store-accumulates (R273 to R275). -/

namespace Sys2Proof.Machine

/-! ### Lines and marks -/

def lineSize : Nat := 128

def markBlank : Nat := 0
def markData : Nat := 1
def markPoison : Nat := 2

def Stack.mark (k : Stack) (far : Bool) (line : Nat) : Nat :=
  Tab.get 0 (if far then k.farMark else k.nearMark) line

def Stack.setMark (k : Stack) (far : Bool) (line m : Nat) : Stack :=
  if far then { k with farMark := Tab.set 0 k.farMark line m }
  else { k with nearMark := Tab.set 0 k.nearMark line m }

def Stack.lineErr (k : Stack) (far : Bool) (line : Nat) : Nat :=
  Tab.get 0 (if far then k.farErr else k.nearErr) line

def Stack.setLineErr (k : Stack) (far : Bool) (line e : Nat) : Stack :=
  if far then { k with farErr := Tab.set 0 k.farErr line e }
  else { k with nearErr := Tab.set 0 k.nearErr line e }

/-- The plaintext bytes of a tier, under the key of its stack (log entry 178). -/
def Stack.tier (k : Stack) (far : Bool) : Mem := if far then k.far else k.near

def Stack.setTier (k : Stack) (far : Bool) (m : Mem) : Stack :=
  if far then { k with far := m } else { k with near := m }

def State.tierSize (s : State) (n : Nat) (far : Bool) : Nat :=
  if far then s.farSize n else s.nearSize n

/-- The lines that [off, off + len) touches. -/
def linesOf (off len : Nat) : List Nat :=
  if len = 0 then [] else
    (List.range ((off + len - 1) / lineSize - off / lineSize + 1)).map (fun i => off / lineSize + i)

/-- The HBM4 position of a near-tier line: 48 GiB each (R410). -/
def linePosition (far : Bool) (line : Nat) : Nat :=
  if far then 0 else if 48 * gib ≤ line * lineSize then 1 else 0

/-- The pseudo-channel or sub-channel of a line (R411, R412). -/
def lineChannel (far : Bool) (line : Nat) : Nat :=
  let o := if far then line * lineSize else line * lineSize % (48 * gib)
  if far then bitsOf o 10 7 ^^^ bitsOf o 14 11 ^^^ bitsOf o 18 15 ^^^ bitsOf o 22 19
  else bitsOf o 12 7 ^^^ bitsOf o 18 13 ^^^ bitsOf o 24 19 ^^^ bitsOf o 30 25

def boolNat (b : Bool) : Nat := if b then 1 else 0

/-- MEM_ERROR detail (Table 13-8). -/
def memDetail (far : Bool) (kind position channel : Nat) : Nat :=
  boolNat far * 2 ^ 31 + kind * 2 ^ 29 + position * 2 ^ 28 + channel

def farBase : Nat := 0x010000000000
def drawerBase : Nat := 0x020000000000
def controlBase : Nat := 0x030000000000

/-- Post MEM_ERROR for a line and load MEM_ERR_LOG (R420, Table 13-7). -/
def State.memError (s : State) (n : Nat) (far : Bool) (line kind : Nat) : State :=
  let t := s.event n evMemError noBench 0
    (memDetail far kind (linePosition far line) (lineChannel far line))
  let off := line * lineSize + (if far then farBase else 0)
  t.setReg (.MEM_ERR_LOG n)
    (BitVec.ofNat 64 (2 ^ 63 + boolNat far * 2 ^ 62 + kind * 2 ^ 60 + off))

/-- Bank and row of a line within its channel: 6 and 19 bits of the map of lines to rows. -/
def bankRow (n : Nat) (far : Bool) (line : Nat) : Nat := Config.rowOf n far line % 2 ^ 25

/-- The number of the row that holds a line: tier, position, channel, bank and row. -/
def rowKey (n : Nat) (far : Bool) (line : Nat) : Nat :=
  boolNat far * 2 ^ 33 + linePosition far line * 2 ^ 32 + lineChannel far line * 2 ^ 25 + bankRow n far line

/-- The number of a row from its location. -/
def rowIdKey (r : RowId) : Nat :=
  boolNat r.far * 2 ^ 33 + boolNat r.position * 2 ^ 32 + r.channel.toNat * 2 ^ 25 + r.bank.toNat * 2 ^ 19
    + r.row.toNat

/-- Ticks in 24 hours (R421). -/
def dayTicks : Nat := 24 * 3600 * 1000 * ticksPerMs

/-- The repair of a row is due. -/
def Stack.dueRow (k : Stack) (row : Nat) : Stack :=
  if k.rowsDue.contains row then k else { k with rowsDue := k.rowsDue ++ [row] }

/-- The limit of corrected reads of a row; 0 acts as 1 (Table 13-4). -/
def State.rowLimit (s : State) (n : Nat) : Nat := Nat.max 1 (s.fld (.MEM_CFG n) MEM_CFG_CE_ROW_LIMIT)

/-- The reads of a row that found a correctable error in the last 24 hours. -/
def State.rowPast (s : State) (n row : Nat) : List (Nat × Nat) :=
  (Tab.get [] (s.stack n).rowReads row).filter (fun p => decide (s.now < p.1 + dayTicks))

/-- A row has reached its limit: MEM_ERROR with kind 0, and its repair is due. -/
def State.rowReached (s : State) (n : Nat) (far : Bool) (line : Nat) : State :=
  (s.modStack n (fun k => k.dueRow (rowKey n far line))).memError n far line 0

/-- Count a corrected read of a row, which may bring the row to its limit (R421). -/
def State.rowRead (s : State) (n : Nat) (far : Bool) (line : Nat) : State :=
  let row := rowKey n far line
  let past := s.rowPast n row
  let t := s.modStack n (fun k => { k with rowReads := Tab.put k.rowReads row ((s.now, line) :: past) })
  if past.length + 1 = s.rowLimit n then t.rowReached n far line else t

/-- What a read finds in a line: nothing, an error of one or two symbols, which the code corrects, or one of
three or four, which it detects. Of more symbols nothing is promised: whether the error is found, and the bytes
and the mark that an unfound one leaves, are free values (R419; log entry 179). -/
inductive LineRead where
  | clean
  | corrected
  | uncorrectable
  | unfound (mark : Nat) (bytes : List Byte)
  deriving DecidableEq, Repr

/-- Symbols that the line code corrects, and that it detects (R419). -/
def correctSymbols : Nat := 2
def detectSymbols : Nat := 4

def lineRead (symbols free : Nat) : LineRead :=
  if symbols = 0 then .clean
  else if symbols ≤ correctSymbols then .corrected
  else if symbols ≤ detectSymbols ∨ free % 2 = 0 then .uncorrectable
  else .unfound (free / 2 % 3) (leBytes lineSize (free / 6))

/-- A line becomes POISON: it holds no data. -/
def Stack.poisonLine (k : Stack) (far : Bool) (line : Nat) : Stack :=
  ((k.setLineErr far line 0).setMark far line markPoison).setTier far
    (Mem.clear (k.tier far) (line * lineSize) (line * lineSize + lineSize))

/-- What a read of a line does with an error it finds (R420): a correctable one is written back and
counted; an uncorrectable one leaves the line POISON, and its row is repaired (log entry 91). -/
def State.sense (s : State) (n : Nat) (far : Bool) (line : Nat) : State :=
  let e := (s.stack n).lineErr far line
  match lineRead e s.takeFree.1 with
  | .clean => s
  | .corrected =>
    let t := s.modStack n (fun k => k.setLineErr far line 0)
    (t.satFld (.MEM_ERR_COUNT n) (if far then MEM_ERR_COUNT_CORR_FAR else MEM_ERR_COUNT_CORR_NEAR) 1).rowRead
      n far line
  | .uncorrectable =>
    let t := (if detectSymbols < e then s.takeFree.2 else s).modStack n (fun k =>
      (k.poisonLine far line).dueRow (rowKey n far line))
    (t.satFld (.MEM_ERR_COUNT n) MEM_ERR_COUNT_UNCORR 1).memError n far line 1
  | .unfound m bs => s.takeFree.2.modStack n (fun k =>
      ((k.setLineErr far line 0).setMark far line m).setTier far (Mem.writeBytes (k.tier far) (line * lineSize) bs))

def State.senseAll (s : State) (n : Nat) (far : Bool) (lines : List Nat) : State :=
  lines.foldl (fun t l => t.sense n far l) s

def State.poisonHit (s : State) (n : Nat) : State := s.satFld (.MEM_ERR_COUNT n) MEM_ERR_COUNT_POISON_HITS 1

def Stack.anyPoison (k : Stack) (far : Bool) (lines : List Nat) : Bool :=
  lines.any (fun l => k.mark far l == markPoison)

/-- Bytes [off, off + len) of a line; a BLANK line reads as zeros (R417). -/
def Stack.linePlain (k : Stack) (far : Bool) (line off len : Nat) : List Byte :=
  if k.mark far line = markBlank then List.replicate len 0 else Mem.readBytes (k.tier far) off len

/-- The first byte and the length of the part of [off, off + len) that falls in a line. -/
def lineSpan (off len line : Nat) : Nat × Nat :=
  let lo := Nat.max off (line * lineSize)
  (lo, Nat.min (off + len) (line * lineSize + lineSize) - lo)

/-- Bytes of a tier as a read gives them. -/
def State.tierBytes (s : State) (n : Nat) (far : Bool) (off len : Nat) : List Byte :=
  (linesOf off len).flatMap (fun l =>
    let p := lineSpan off len l
    (s.stack n).linePlain far l p.1 p.2)

/-! ### What the devices store (R415, R416) -/

/-- The XTS tweak of a line (R416). -/
def lineTweak (n : Nat) (far : Bool) (line : Nat) : List Byte :=
  leBytes 16 (line % 2 ^ 41 + boolNat far * 2 ^ 64 + n % 8 * 2 ^ 65)

/-- The tier key of the tenant that owns the stack. -/
def Stack.tierKey (k : Stack) (far : Bool) : List Byte := if far then k.farKey else k.nearKey

/-- A line as its device stores it: the ciphertext of its 128 bytes, and 16 check bytes over the ciphertext and
the mark (R415). -/
def State.storedLine (s : State) (n : Nat) (far : Bool) (line : Nat) : List Byte :=
  let k := s.stack n
  let c := Config.xts (k.tierKey far) (lineTweak n far line) (k.linePlain far line (line * lineSize) lineSize)
  c ++ Config.lineCheck c (k.mark far line)

/-- An answer of memory: the new state, the bytes, and whether it is poisoned. -/
structure Answer where
  state : State
  bytes : List Byte
  poisoned : Bool

/-- A load from a tier (Table 13-2). -/
def State.loadTier (s : State) (n : Nat) (far : Bool) (off len : Nat) : Answer :=
  let ls := linesOf off len
  let t := s.senseAll n far ls
  if (t.stack n).anyPoison far ls then ⟨t.poisonHit n, [], true⟩
  else ⟨t, t.tierBytes n far off len, false⟩

/-- The part of a store to [off, off + bytes) that falls in a line: its first byte and its bytes. -/
def linePart (off : Nat) (bs : List Byte) (line : Nat) : Nat × List Byte :=
  let p := lineSpan off bs.length line
  (p.1, (bs.drop (p.1 - off)).take p.2)

/-- Bytes written into a line, which becomes DATA: a BLANK one holds zeros around them (Table 13-2). -/
def Stack.putLine (k : Stack) (far : Bool) (line at_ : Nat) (bs : List Byte) : Stack :=
  let m := if k.mark far line = markBlank then
      Mem.clear (k.tier far) (line * lineSize) (line * lineSize + lineSize)
    else k.tier far
  (k.setMark far line markData).setTier far (Mem.writeBytes m at_ bs)

/-- A store to part or all of one line (Table 13-2): a whole line replaces whatever it held; a part is
merged, and dropped where the line is POISON. Answers whether it met POISON. -/
def State.storeLine (s : State) (n : Nat) (far : Bool) (line at_ : Nat) (bs : List Byte) : State × Bool :=
  if bs.length = lineSize then
    (s.modStack n (fun k => (k.setLineErr far line 0).putLine far line at_ bs), false)
  else
    let t := s.sense n far line
    if (t.stack n).mark far line = markPoison then (t, true)
    else (t.modStack n (fun k => k.putLine far line at_ bs), false)

/-- An access to several lines, line by line: the state, and whether a line met POISON. -/
def State.overLines (s : State) (off : Nat) (bs : List Byte)
    (f : State → Nat → Nat → List Byte → State × Bool) : State × Bool :=
  (linesOf off bs.length).foldl (fun (t : State × Bool) l =>
    let p := linePart off bs l
    let r := f t.1 l p.1 p.2
    (r.1, t.2 || r.2)) (s, false)

/-- An access that met POISON is counted once (R426; log entry 28). -/
def State.countPoison (s : State) (n : Nat) (met : Bool) : State := if met then s.poisonHit n else s

/-- A store to a tier. -/
def State.storeTier (s : State) (n : Nat) (far : Bool) (off : Nat) (bs : List Byte) : State :=
  let r := s.overLines off bs (fun t l at_ x => t.storeLine n far l at_ x)
  r.1.countPoison n r.2

/-! ### Atomics and store-accumulates -/

/-- The bytes of an operand of a fabric atomic (Table 09-3). -/
def atomicSize (sub : Nat) (eight : Bool) : Nat :=
  if sub = 8 then 4 else if sub = 9 ∨ sub = 10 then 2 else if eight then 8 else 4

def atomicFmt (sub : Nat) : FloatFmt := if sub = 8 then fmtB32 else if sub = 9 then fmtBf16 else fmtB16

/-- The new value of an atomic of `w` bits (R273, R274). -/
def atomicNew (sub w old opnd cmp : Nat) : Nat :=
  match sub with
  | 0 => (old + opnd) % 2 ^ w
  | 1 => if toSigned w opnd < toSigned w old then opnd else old
  | 2 => if toSigned w old < toSigned w opnd then opnd else old
  | 3 => opnd
  | 4 => if old = cmp then opnd else old
  | 5 => old &&& opnd
  | 6 => old ||| opnd
  | 7 => old ^^^ opnd
  | _ =>
    let g := atomicFmt sub
    (toFmt (.float g) .rne true false 0 (sumVals [decodeFloat g old, decodeFloat g opnd])).1

/-- The new value of one element of a store-accumulate (R275): SUM, MIN, MAX. -/
def accumNew (fmt op t e : Nat) : Nat :=
  match (fmtOf fmt).getD (.float fmtK8) with
  | .float g =>
    let a := decodeFloat g t
    let b := decodeFloat g e
    (toFmt (.float g) .rne false false 0
      (if op = 0 then sumVals [a, b] else if op = 1 then minVal a b else maxVal a b)).1
  | .int w =>
    let a := toSigned w t
    let b := toSigned w e
    if op = 0 then fitInt w false (a + b) else ofSigned w (if op = 1 then min a b else max a b)

/-- The bytes of a store-accumulate over the bytes at its target. -/
def accumBytes (fmt op : Nat) (old data : List Byte) : List Byte :=
  let w := Nat.max 1 (fmtWidth fmt / 8)
  let pieces (l : List Byte) := (chunksOf w l.length l).map leNat
  (List.zipWith (accumNew fmt op) (pieces old) (pieces data)).flatMap (leBytes w)

/-- A store-accumulate into one line (R276, Table 13-2). Answers whether it met POISON. -/
def State.accumLine (s : State) (n : Nat) (far : Bool) (fmt op line at_ : Nat) (bs : List Byte) : State × Bool :=
  let t := s.sense n far line
  if (t.stack n).mark far line = markPoison then (t, true)
  else (t.modStack n (fun k => k.putLine far line at_
    (accumBytes fmt op (k.linePlain far line at_ bs.length) bs)), false)

def State.accumTier (s : State) (n : Nat) (far : Bool) (fmt op off : Nat) (bs : List Byte) : State :=
  let r := s.overLines off bs (fun t l at_ x => t.accumLine n far fmt op l at_ x)
  r.1.countPoison n r.2

/-- An atomic on a tier: the old value, or a poisoned answer (Table 13-2). -/
def State.atomicTier (s : State) (n : Nat) (far : Bool) (sub size off opnd cmp : Nat) : Answer :=
  let line := off / lineSize
  let t := s.sense n far line
  if (t.stack n).mark far line = markPoison then ⟨t.poisonHit n, [], true⟩
  else
    let old := t.tierBytes n far off size
    let new := leBytes size (atomicNew sub (8 * size) (leNat old) opnd cmp)
    ⟨t.modStack n (fun k => k.putLine far line off new), old, false⟩

/-! ### The drawers, and the logical benches behind them -/

def kindBench : BitVec 4 := 1
def kindWalker : BitVec 4 := 2
def kindDma : BitVec 4 := 3
def kindCore : BitVec 4 := 4
def kindCombiner : BitVec 4 := 5
def kindAtomic : BitVec 4 := 6
def kindAbutment : BitVec 4 := 7
def kindRow : BitVec 4 := 8
def kindAccum : BitVec 4 := 9

/-- The physical bench of logical bench `b` (05_spatial_pipelines.md R157). -/
def State.physical (s : State) (n b : Nat) : Nat :=
  let y := b / 21
  let x := b % 21
  let bypass := s.fld (.BCH_ROW_MAP n y) BCH_ROW_MAP_BYPASS
  22 * y + (if x < bypass then x else x + 1)

/-- A logical bench whose physical bench is in the defect list is vacant (R158). -/
def State.vacant (s : State) (n b : Nat) : Bool := s.unitFailed kindBench n (s.physical n b)

/-- The job of a bench; a vacant bench's reads 0 (R160). -/
def State.jobOf (s : State) (n b : Nat) : Nat :=
  if s.vacant n b then 0 else s.fld (.BCH_BENCH_CFG n b) BCH_BENCH_CFG_JOB

/-- What an offset of a node names (R267). -/
inductive Where where
  | near (off : Nat)
  | far (off : Nat)
  | drawer (a : Nat)
  | control (a : Nat)
  | nothing
  deriving DecidableEq, Repr

/-- Where an access of `len` bytes at an offset falls; a drawer access by its offset in the drawer window, whose
highest 16 MiB name no bench (R97). An access that runs past the end of a window's extent names nothing (log
entry 17). -/
def State.whereIs (s : State) (n off len : Nat) : Where :=
  if off + len ≤ s.nearSize n then .near off
  else if farBase ≤ off ∧ off + len ≤ farBase + s.farSize n then .far (off - farBase)
  else if drawerBase ≤ off ∧ off + len ≤ drawerBase + 352 * drawerSize then .drawer (off - drawerBase)
  else if controlBase ≤ off ∧ off + len ≤ controlBase + 4096 then .control (off - controlBase)
  else .nothing

/-- The bank of a line is under repair: accesses to it wait (13_memory_tiers.md R422). -/
def State.lineBusy (s : State) (n : Nat) (far : Bool) (line : Nat) : Bool :=
  (s.stack n).repairing.any (fun r => rowIdKey r / 2 ^ 19 == rowKey n far line / 2 ^ 19)

/-- An access to a tier waits for the repair of a row. -/
def State.tierBusy (s : State) (n : Nat) (far : Bool) (off len : Nat) : Bool :=
  !(s.stack n).repairing.isEmpty && (linesOf off len).any (s.lineBusy n far)

/-- An access to memory waits for the repair of a row. -/
def State.bankBusy (s : State) (n off len : Nat) : Bool :=
  match s.whereIs n off len with
  | .near o => s.tierBusy n false o len
  | .far o => s.tierBusy n true o len
  | .drawer _ => false
  | .control _ => false
  | .nothing => false

/-- The control page (R268, Table 09-2). -/
def State.controlPage (s : State) (n : Nat) : List Byte :=
  le8 (variantCode s.variant * 2 ^ 24 + n * 2 ^ 16 + (s.node n).toNat)
    ++ le8 (s.reg .CAP_UNITS).toNat ++ le8 s.beatNow.toNat ++ List.replicate (4096 - 24) 0

/-- A store-accumulate into a drawer: words with an uncorrectable error are not touched, and counted
(R587). -/
def State.accumDrawer (s : State) (n fmt op b a : Nat) (bs : List Byte) : State :=
  let lo := drawerKey b a
  let s := s.correct n b a bs.length
  let bad := touched (s.stack n).drawerBad lo (lo + bs.length)
  (s.modStack n (fun k =>
    { k with
      drawer := Mem.writeWhere (fun x => !bad.contains (x / 8)) k.drawer lo
        (accumBytes fmt op (Mem.readBytes k.drawer lo bs.length) bs) })).quietBy n qDrawer bad.length

/-- An atomic on a drawer word (R100, R587). -/
def State.atomicDrawer (s : State) (n b sub size a opnd cmp : Nat) : Answer :=
  let s := s.correct n b a size
  if s.drawerHasBad n b a size then ⟨s, [], true⟩
  else
    let old := s.drawerBytes n b a size
    let new := leBytes size (atomicNew sub (8 * size) (leNat old) opnd cmp)
    ⟨s.modStack n (fun k => { k with drawer := Mem.writeBytes k.drawer (drawerKey b a) new }), old, false⟩

/-- A logical bench of the drawer window: there is one, and it is not vacant (R97, R160). -/
def State.benchNamed (s : State) (n b : Nat) : Bool := decide (b < 336) && !s.vacant n b

/-- The parts of an access to the drawer window, bench by bench: bench, drawer address, first byte within the
access, and length (R97). -/
def drawerParts (a len : Nat) : List (Nat × Nat × Nat × Nat) :=
  (pieces drawerSize a len).map (fun p => ((a + p.1) / drawerSize, (a + p.1) % drawerSize, p.1, p.2))

/-- Every part of an access names a bench, and none a vacant one. An access of which a part does not is a violation,
counted once and dropped whole (Table 09-6; log entry 17). -/
def State.drawersNamed (s : State) (n a len : Nat) : Bool := (drawerParts a len).all (fun p => s.benchNamed n p.1)

/-- Act on the parts of an access to the drawer window. -/
def State.overDrawers (s : State) (n a len : Nat) (f : State → Nat → Nat → Nat → Nat → State) : State :=
  if s.drawersNamed n a len then (drawerParts a len).foldl (fun t p => f t p.1 p.2.1 p.2.2.1 p.2.2.2) s
  else s.quiet n qTarget

/-- A load from the drawer window (R97, R100, R160). -/
def State.loadDrawers (s : State) (n a len : Nat) : Answer :=
  let t := s.overDrawers n a len (fun t b x _ l => t.correct n b x l)
  if s.drawersNamed n a len then
    if (drawerParts a len).any (fun p => s.drawerHasBad n p.1 p.2.1 p.2.2.2) then ⟨t, [], true⟩
    else ⟨t, (drawerParts a len).flatMap (fun p => s.drawerBytes n p.1 p.2.1 p.2.2.2), false⟩
  else ⟨t, List.replicate len 0, false⟩

/-- A store to the drawer window. -/
def State.storeDrawers (s : State) (n a : Nat) (bs : List Byte) : State :=
  s.overDrawers n a bs.length (fun t b x i l => t.storeDrawer n b x ((bs.drop i).take l))

/-- A store-accumulate into the drawer window. -/
def State.accumDrawers (s : State) (n fmt op a : Nat) (bs : List Byte) : State :=
  s.overDrawers n a bs.length (fun t b x i l => t.accumDrawer n fmt op b x ((bs.drop i).take l))

/-- An atomic on the drawer window; an aligned one lies in one drawer. -/
def State.atomicDrawers (s : State) (n sub size a opnd cmp : Nat) : Answer :=
  if s.benchNamed n (a / drawerSize) then s.atomicDrawer n (a / drawerSize) sub size (a % drawerSize) opnd cmp
  else ⟨s.quiet n qTarget, List.replicate size 0, false⟩

/-! ### One access at its target, after its checks -/

def zeros (n : Nat) : List Byte := List.replicate n 0

/-- A byte string of exactly `n` bytes: cut, or padded with zeros. -/
def fit (n : Nat) (l : List Byte) : List Byte := (l ++ zeros n).take n

/-- A load at its target: an offset that names nothing is a violation and returns zeros (Table 09-6,
R287). -/
def State.loadAt (s : State) (n off len : Nat) : Answer :=
  match s.whereIs n off len with
  | .near o => s.loadTier n false o len
  | .far o => s.loadTier n true o len
  | .drawer a => s.loadDrawers n a len
  | .control a => ⟨s, (s.controlPage n).drop a |>.take len, false⟩
  | .nothing => ⟨s.quiet n qTarget, zeros len, false⟩

/-- A store at its target; dropped and counted where nothing takes it. -/
def State.storeAt (s : State) (n off : Nat) (bs : List Byte) : State :=
  match s.whereIs n off bs.length with
  | .near o => s.storeTier n false o bs
  | .far o => s.storeTier n true o bs
  | .drawer a => s.storeDrawers n a bs
  | .control _ => s.quiet n qTarget
  | .nothing => s.quiet n qTarget

def State.accumAt (s : State) (n fmt op off : Nat) (bs : List Byte) : State :=
  match s.whereIs n off bs.length with
  | .near o => s.accumTier n false fmt op o bs
  | .far o => s.accumTier n true fmt op o bs
  | .drawer a => s.accumDrawers n fmt op a bs
  | .control _ => s.quiet n qTarget
  | .nothing => s.quiet n qTarget

def State.atomicAt (s : State) (n sub size off opnd cmp : Nat) : Answer :=
  match s.whereIs n off size with
  | .near o => s.atomicTier n false sub size o opnd cmp
  | .far o => s.atomicTier n true sub size o opnd cmp
  | .drawer a => s.atomicDrawers n sub size a opnd cmp
  | .control _ => ⟨s.quiet n qTarget, zeros size, false⟩
  | .nothing => ⟨s.quiet n qTarget, zeros size, false⟩

end Sys2Proof.Machine
end

