-- ==== Sys2Proof/Machine/Translate.lean ====
section
/-! DEFINITION. Address translation of a stack: look-aside buffer, walk cache, table walks, faults and
the fault queue (08_translation.md). -/

namespace Sys2Proof.Machine

/-! ### The look-aside buffer (R240, R242) -/

def TlbEntry.covers (e : TlbEntry) (ctx va : Nat) : Bool :=
  e.ctx == ctx && decide (e.va ≤ va) && decide (va < e.va + e.size)

/-- What the look-aside buffer says of an address. -/
inductive Xl where
  | outside
  | hit (e : TlbEntry)
  | miss
  deriving DecidableEq, Repr

/-- Bits [63:57] of a virtual address are clear (R232). -/
def vaInside (va : Nat) : Bool := decide (va < 2 ^ 57)

def Stack.lookup (k : Stack) (ctx va : Nat) : Xl :=
  if !vaInside va then .outside
  else match k.tlb.find? (fun e => e.covers ctx va) with
    | some e => .hit e
    | none => .miss

/-- The fabric offset of an address that an entry covers. -/
def TlbEntry.offset (e : TlbEntry) (va : Nat) : Nat := e.base + (va - e.va)

/-- Bytes from an address to the end of its page (R272). -/
def TlbEntry.left (e : TlbEntry) (va : Nat) : Nat := e.page - (va - e.va) % e.page

/-- Put an entry into the buffer; a full one drops an entry the spec does not name (R240). -/
def Stack.fillTlb (k : Stack) (free : Nat) (e : TlbEntry) : Stack :=
  let old := k.tlb.filter (fun x => !(x.ctx == e.ctx && x.va == e.va && x.size == e.size))
  if old.length < 8192 then { k with tlb := e :: old }
  else { k with tlb := e :: old.eraseIdx (Config.tlbVictim free % old.length) }

/-- An access of a context is translated through an entry (R250). -/
def Stack.noteUser (k : Stack) (e : TlbEntry) (src : Src) : Stack :=
  match src with
  | .ctx b c =>
    if e.users.contains (b, c) then k
    else { k with tlb := k.tlb.map (fun x => if x = e then { x with users := (b, c) :: x.users } else x) }
  | .ring _ _ => k
  | .rebuild _ => k

/-! ### Walks (R234 to R237) -/

/-- How a walk ends. -/
inductive WalkEnd where
  | leaf (e : TlbEntry)
  | fault (cause level : Nat) (entry : Word)
  deriving DecidableEq, Repr

def causeNotPresent : Nat := 1
def causeMalformed : Nat := 2
def causeTableError : Nat := 3
def causeContextOff : Nat := 4

/-- Bytes mapped per entry of a level (Table 08-1). -/
def levelSize (level : Nat) : Nat := 4096 * 512 ^ level

/-- The index of an address at a level. -/
def levelIndex (level va : Nat) : Nat := va / levelSize level % 512

/-- Virtual addresses that share the table of `level`. -/
def tableSpan (level va : Nat) : Nat := va / levelSize (level + 1)

/-- The first byte of an entry's frame or next table, bits [47:12]. -/
def frameOf (e : Word) : Nat := bitsOf e.toNat 47 12 * 4096

/-- A leaf read at a level for a page (R236, R241, R242). -/
def leafEnd (ctx level va : Nat) (e : Word) : WalkEnd :=
  let size := levelSize level
  let run := bitsOf e.toNat 9 6
  let j := va / size % 2 ^ run
  let frame := frameOf e
  let base := frame - j * size
  if level ≥ 3 then .fault causeMalformed level e
  else if bitsOf e.toNat 11 10 ≠ 0 ∨ bitOf e.toNat 5 then .fault causeMalformed level e
  else if frame % size ≠ 0 ∨ 9 < run ∨ frame < j * size ∨ base % (2 ^ run * size) ≠ 0 then
    .fault causeMalformed level e
  else .leaf
    { ctx := ctx, va := (va / size - j) * size, size := 2 ^ run * size, page := size,
      node := BitVec.ofNat 16 (bitsOf e.toNat 63 48), base := base,
      rights := BitVec.ofNat 3 (bitsOf e.toNat 4 2), users := [] }

/-- A pointer whose reserved fields are 0 and whose next table lies in the near tier (Table 08-4). -/
def State.pointerOk (s : State) (n : Nat) (e : Word) : Bool :=
  decide (bitsOf e.toNat 63 48 = 0) && decide (bitsOf e.toNat 11 2 = 0) && decide (frameOf e + 4096 ≤ s.nearSize n)

/-- Walk from the table of `level` (levels count down). The pointers read are kept. -/
def State.walkFrom (s : State) (n ctx va : Nat) : Nat → Nat → State × WalkEnd × List WalkPtr
  | level, table =>
    let a := s.loadTier n false (table + 8 * levelIndex level va) 8
    let e := leWord a.bytes
    if a.poisoned then (a.state, .fault causeTableError level 0, [])
    else if !bitOf e.toNat 0 then (a.state, .fault causeNotPresent level e, [])
    else if bitOf e.toNat 1 then (a.state, leafEnd ctx level va e, [])
    else
      match level with
      | 0 => (a.state, .fault causeMalformed 0 e, [])
      | lower + 1 =>
        if !a.state.pointerOk n e then (a.state, .fault causeMalformed (lower + 1) e, [])
        else
          let r := a.state.walkFrom n ctx va lower (frameOf e)
          (r.1, r.2.1, ⟨ctx, lower, va, frameOf e⟩ :: r.2.2)

/-- Where a walk starts: at the lowest level whose pointer the walk cache holds, or at ROOT (R243). -/
def State.walkStart (s : State) (n ctx va : Nat) : Nat × Nat :=
  let held (l : Nat) := (s.stack n).walkCache.find? (fun p =>
    p.ctx == ctx && p.level == l && tableSpan l p.va == tableSpan l va)
  match firstSome ((List.range 4).map held) with
  | some p => (p.level, p.table)
  | none => (4, s.fld (.XLT_CTX n ctx) XLT_CTX_ROOT * 4096)

/-- A walk from the table of `level` reads an entry in a bank under repair: it waits (13_memory_tiers.md R422). A walk
that ends before reads no further entry (R236). -/
def State.walkFromBusy (s : State) (n va : Nat) : Nat → Nat → Bool
  | level, table =>
    let at_ := table + 8 * levelIndex level va
    let a := s.loadTier n false at_ 8
    let e := leWord a.bytes
    s.tierBusy n false at_ 8 ||
      match level with
      | 0 => false
      | lower + 1 => !a.poisoned && bitOf e.toNat 0 && !bitOf e.toNat 1 && s.pointerOk n e
          && s.walkFromBusy n va lower (frameOf e)

def State.walkBusy (s : State) (n ctx va : Nat) : Bool :=
  let st := s.walkStart n ctx va
  !(s.stack n).repairing.isEmpty && s.bit (.XLT_CTX n ctx) XLT_CTX_ENABLE && decide (st.2 + 4096 ≤ s.nearSize n)
    && s.walkFromBusy n va st.1 st.2

/-- A whole walk: its end, and the state with the walk cache and the memory's error state after it. -/
def State.walk (s : State) (n ctx va : Nat) : State × WalkEnd :=
  if !s.bit (.XLT_CTX n ctx) XLT_CTX_ENABLE then (s, .fault causeContextOff 4 0)
  else
    let st := s.walkStart n ctx va
    if s.nearSize n < st.2 + 4096 then (s, .fault causeMalformed st.1 0)
    else
      let r := s.walkFrom n ctx va st.1 st.2
      match r.2.1 with
      | .leaf e =>
        (r.1.modStack n (fun k =>
          ({ k with walkCache := (r.2.2 ++ k.walkCache).take 1024 }).fillTlb r.1.free e), .leaf e)
      | .fault c l w => (r.1, .fault c l w)

/-! ### Faults (R257 to R262) -/

/-- The 32-bit identity of a waiter (Table 08-9). -/
def waiterCode (s : State) : Waiter → Nat
  | .ctx b c _ => c * 2 ^ 16 + b
  | .desc r d w =>
    let index := ((s.host.descs.find? (fun x => x.handle == d)).map (·.index)).getD 0 % 2 ^ 16
    match r with
    | .host q => 2 ^ 30 + q * 2 ^ 24 + w * 2 ^ 16 + index
    | .dev _ q => 2 ^ 31 + q * 2 ^ 24 + w * 2 ^ 16 + index

/-- The 64 bytes of a fault queue entry (Table 08-8). -/
def faultEntry (s : State) (f : Fault8) (seq : Nat) : List Byte :=
  let w (i : Nat) := match f.waiters[i]? with
    | some x => waiterCode s x
    | none => 0xFFFFFFFF
  le8 (f.page * 2 ^ 12 + f.cause.toNat * 2 ^ 8 + f.level.toNat * 2 ^ 5 + f.access.toNat)
    ++ le8 (f.ctx * 2 ^ 56 + f.beat.toNat) ++ le8 f.entry.toNat
    ++ le4 (w 0) ++ le2 (Nat.min f.waiters.length 65535) ++ le2 seq
    ++ (List.range 8).flatMap (fun i => le4 (w (i + 1)))

/-- The queue takes another entry (R262). -/
def State.fqOpen (s : State) (n : Nat) : Bool :=
  let head := s.fld (.XLT_FQ_IDX n) XLT_FQ_IDX_HEAD
  let tail := s.fld (.XLT_FQ_IDX n) XLT_FQ_IDX_TAIL
  s.bit (.XLT_CFG n) XLT_CFG_FQ_ON && decide ((head + 65536 - tail) % 65536 < 4096)

/-- Write the entry of a fault, give it its seq, and post FAULT_PENDING when the queue was empty. -/
def State.writeFault (s : State) (n : Nat) (f : Fault8) : State × Fault8 :=
  let head := s.fld (.XLT_FQ_IDX n) XLT_FQ_IDX_HEAD
  let empty := head == s.fld (.XLT_FQ_IDX n) XLT_FQ_IDX_TAIL
  let at_ := kib64 * s.fld (.XLT_CFG n) XLT_CFG_FQ_BASE + 64 * (head % 4096)
  let t := (s.modStack n (fun k =>
    { k with sram := Mem.writeBytes k.sram at_ (faultEntry s f head) })).setFld
      (.XLT_FQ_IDX n) XLT_FQ_IDX_HEAD (head + 1)
  (if empty then t.event n evFaultPending noBench 0 1 else t, { f with seq := some (BitVec.ofNat 16 head) })

/-- Set OVERFLOW, posting FAULT_OVERFLOW when it is set (Table 08-11). -/
def State.fqOverflow (s : State) (n : Nat) : State :=
  if s.bit (.XLT_FQ_IDX n) XLT_FQ_IDX_OVERFLOW then s
  else (s.setBit (.XLT_FQ_IDX n) XLT_FQ_IDX_OVERFLOW true).event n evFaultOverflow noBench 0 0

/-- Write the held faults, in the order they were found, while the queue takes them (R262). -/
def State.flushHeld : Nat → State → Nat → State
  | 0, s, _ => s
  | fuel + 1, s, n =>
    match (s.stack n).faults.find? (fun f => f.seq.isNone) with
    | none => s
    | some f =>
      if s.fqOpen n then
        let p := s.writeFault n f
        State.flushHeld fuel (p.1.modStack n (fun k =>
          { k with faults := k.faults.map (fun g => if g = f then p.2 else g) })) n
      else s

/-- Walkers of a stack, and so the most faults it can hold (R243). -/
def walkerCount : Nat := 16

/-- A walk faults: the fault opens (R258). It is written to the queue, or held, at the end of the step
(`State.writeFound`). -/
def State.openFault (s : State) (n ctx page cause level access : Nat) (entry : Word)
    (ws : List Waiter) : State :=
  let f : Fault8 :=
    { ctx := ctx, page := page, cause := BitVec.ofNat 4 cause, level := BitVec.ofNat 3 level,
      access := BitVec.ofNat 2 access, entry := entry, beat := s.beatNow, waiters := ws, seq := none }
  s.modStack n (fun k => { k with faults := k.faults ++ [f] })

/-- `f` is written before `g` of the same cycle: ascending translation context, then va (R264). -/
def Fault8.before (f g : Fault8) : Bool := decide (f.ctx < g.ctx) || (f.ctx == g.ctx && decide (f.page ≤ g.page))

/-- A fault without an entry that the stack did not hold at the beginning of the step: the step has found it. -/
def Stack.newFault (old : Stack) (f : Fault8) : Bool :=
  f.seq.isNone && !old.faults.any (fun g => g.seq.isNone && g.ctx == f.ctx && g.page == f.page)

/-- The faults of a stack with those found since `old` behind the others, in the order of R264. -/
def Stack.orderFound (k old : Stack) : Stack :=
  { k with
    faults := k.faults.filter (fun f => !old.newFault f) ++ sortBy Fault8.before (k.faults.filter old.newFault) }

/-- The end of a step in which faults were found: they are written in the order of R264 behind those held
before, and what the queue does not take is held, with OVERFLOW (R262). Their events and those of the memory errors
that the walks met since the state `old` stand in the order of 06_host_cores.md R180. -/
def State.writeFound (s old : State) (n : Nat) : State :=
  if (s.stack n).faults.any (old.stack n).newFault then
    let t := (s.modStack n (fun k => k.orderFound (old.stack n))).flushHeld (s.stack n).faults.length n
    (if (t.stack n).faults.any (fun f => f.seq.isNone) then t.fqOverflow n else t).orderEvents old n
  else s

def pageOf (va : Nat) : Nat := va / 4096

/-- The open fault of a page. -/
def Stack.faultOf (k : Stack) (ctx page : Nat) : Option Fault8 :=
  k.faults.find? (fun f => f.ctx == ctx && f.page == page)

/-- A waiter joins the open fault of a page (R245, R258). -/
def Stack.joinFault (k : Stack) (ctx page : Nat) (w : Waiter) : Stack :=
  { k with faults := k.faults.map (fun f =>
      if f.ctx = ctx ∧ f.page = page then { f with waiters := f.waiters ++ [w] } else f) }

/-- A waiter joins the walk in progress for a page (R244). -/
def Stack.joinWalk (k : Stack) (ctx page : Nat) (w : Waiter) : Stack :=
  { k with walks := k.walks.map (fun f =>
      if f.ctx = ctx ∧ f.page = page then { f with waiters := f.waiters ++ [w] } else f) }

/-- Walkers that are walking or hold a fault (R243, R262). -/
def Stack.walkersBusy (k : Stack) : Nat :=
  k.walks.length + (k.faults.filter (fun f => f.seq.isNone)).length

/-- Walkers that have not failed. -/
def State.walkers (s : State) (n : Nat) : Nat :=
  ((List.range 16).filter (fun i => !s.unitFailed kindWalker n i)).length

/-- The waiter is not the descriptor `h`. -/
def Waiter.notDesc (h : Nat) : Waiter → Bool
  | .desc _ x _ => x != h
  | .ctx _ _ _ => true

/-- The waiter is the request `id`. -/
def Waiter.isReq (id : Nat) : Waiter → Bool
  | .ctx _ _ x => x == id
  | .desc _ _ _ => false

/-- A descriptor waits for a walker no longer. -/
def Stack.leaveMisses (k : Stack) (h : Nat) : Stack := { k with misses := k.misses.filter (Waiter.notDesc h) }

/-- A descriptor waits for a walker, in its place or behind the others. -/
def Stack.awaitWalker (k : Stack) (h : Nat) (w : Waiter) : Stack :=
  if k.misses.all (Waiter.notDesc h) then { k with misses := k.misses ++ [w] } else k

/-- A miss joins an open fault or a walk, or waits for a walker (R244, R245). -/
def Stack.miss (k : Stack) (ctx va : Nat) (w : Waiter) : Stack :=
  if (k.faultOf ctx (pageOf va)).isSome then k.joinFault ctx (pageOf va) w
  else if k.walks.any (fun f => f.ctx == ctx && f.page == pageOf va) then k.joinWalk ctx (pageOf va) w
  else { k with misses := k.misses ++ [w] }

end Sys2Proof.Machine
end

