-- ==== Sys2Proof/Machine/Shadow.lean ====
section
/-! DEFINITION. CRC-64 (12_collectives.md R395) and the step digests of shadowing
(18_faults_and_recovery.md R535 to R537). -/

namespace Sys2Proof.Machine

/-! ### CRC-64 -/

/-- The reflected polynomial of CRC-64/XZ, 0x42F0E1EBA9EA3693 bit-reversed. -/
def crcPoly : Word := 0xC96C5795D7870F42

def crcBit (c : Word) : Word := if c.getLsbD 0 then (c >>> 1) ^^^ crcPoly else c >>> 1

def crcByte (c : Word) (b : Byte) : Word :=
  crcBit (crcBit (crcBit (crcBit (crcBit (crcBit (crcBit (crcBit (c ^^^ b.setWidth 64))))))))

/-- CRC-64 of a byte string, register all ones at the start and inverted at the end. -/
def crc64 (bs : List Byte) : Word := ~~~(bs.foldl crcByte (BitVec.allOnes 64))

/-! ### Shadowing -/

def State.role (s : State) (n : Nat) : Nat := s.fld (.ABT_RECOVERY n) ABT_RECOVERY_ROLE

def roleTwin : Nat := 1
def roleShadow : Nat := 2

/-- SHADOW_REPORT (R537). -/
def State.shadowReport (s : State) (n step result : Nat) : State :=
  s.mgmt (s.node n) 0x1F
    (le4 step ++ le1 result ++ le2 (s.fld (.ABT_RECOVERY n) ABT_RECOVERY_MATCHES))

def State.setMatches (s : State) (n v : Nat) : State :=
  s.setFld (.ABT_RECOVERY n) ABT_RECOVERY_MATCHES v

/-- One step whose two digests are held (R537). -/
def State.compareStep (s : State) (n : Nat) (step : BitVec 32) (equal : Bool) : State :=
  if equal then
    let t := s.satFld (.ABT_RECOVERY n) ABT_RECOVERY_MATCHES 1
    let k := (s.stack n).shadow.k
    if s.fld (.ABT_RECOVERY n) ABT_RECOVERY_MATCHES < k ∧ t.fld (.ABT_RECOVERY n) ABT_RECOVERY_MATCHES = k then
      t.shadowReport n step.toNat 1 else t
  else (s.shadowReport n step.toNat 2).setMatches n 0

/-- Compare every step whose digests are both held, and report a lead of 64 steps (R537). -/
def State.compareSteps (s : State) (n : Nat) : State :=
  let sh := (s.stack n).shadow
  let both := sh.own.filterMap (fun p =>
    (sh.theirs.find? (fun q => q.1 == p.1)).map (fun q => (p.1, p.2 == q.2)))
  let t := both.foldl (fun t p => t.compareStep n p.1 p.2) s
  let rest (l : List (BitVec 32 × Word)) := l.filter (fun p => !both.any (fun q => q.1 == p.1))
  let own := rest sh.own
  let theirs := rest sh.theirs
  let u := t.modStack n (fun k => { k with shadow := { k.shadow with own := own, theirs := theirs } })
  if both.isEmpty && (own.length == 64 || theirs.length == 64) then
    (u.shadowReport n (s.fld (.ABT_RECOVERY n) ABT_RECOVERY_STEP) 3).setMatches n 0
  else u

/-- A step closes (R535, R537): its digest is fixed, a twin sends it, a shadow compares it. A step's
number is the count of steps closed before it (log entry 18). -/
def State.closeStep (s : State) (n : Nat) : State :=
  let step := s.fld (.ABT_RECOVERY n) ABT_RECOVERY_STEP
  let d := (s.stack n).shadow.digest
  let t := (s.modStack n (fun k => { k with shadow := { k.shadow with digest := 0 } })).setFld
    (.ABT_RECOVERY n) ABT_RECOVERY_STEP (step + 1)
  if s.role n = roleTwin then
    t.mgmtTo (s.node n) (s.stack n).shadow.peer 0x1E (le4 step ++ le8 d.toNat)
  else
    (t.modStack n (fun k =>
      { k with shadow := { k.shadow with own := k.shadow.own ++ [(BitVec.ofNat 32 step, d)] } })).compareSteps n

/-- What an output adds to a step's digest (R535). -/
def outputDigest (own node : BitVec 16) (offset : Nat) (op : BitVec 8) (data : List Byte) : Word :=
  let nd := if node = own then 0xFFFF else node.toNat
  crc64 (le8 (nd * 2 ^ 48 + offset) ++ [op] ++ data)

/-- Put an output in its place in the order of issue. -/
def insertLate (x : Nat × Word × Bool) : List (Nat × Word × Bool) → List (Nat × Word × Bool)
  | [] => [x]
  | y :: l => if x.1 < y.1 then x :: y :: l else y :: insertLate x l

/-- A request that will be an output of a job once its first page is translated. -/
def State.unknownOutput (s : State) (n : Nat) (r : Req) : Bool :=
  decide (r.st = .walking) && r.op != 1 && r.destOff == 0 &&
    match r.src with
    | .ctx b _ => s.jobOf n b == (s.stack n).shadow.job.toNat
    | .ring _ _ | .rebuild _ => false

/-- Outputs join the digest in the order of issue: each waits for those before it whose address is not known, but for the
access `but`, whose address has just become known. -/
def State.takeLate : Nat → State → Nat → Nat → State
  | 0, s, _, _ => s
  | fuel + 1, s, n, but =>
    match (s.stack n).shadow.late with
    | [] => s
    | x :: l =>
      if (s.stack n).reqs.any (fun r => s.unknownOutput n r && decide (r.acc < x.1) && r.acc != but) then s
      else
        let t := s.modStack n (fun k =>
          { k with shadow := { k.shadow with digest := k.shadow.digest + x.2.1, late := l } })
        State.takeLate fuel (if x.2.2 then t.closeStep n else t) n but

/-- An output of the job joins the digest, once for the access, and closes the step when it is the step context's keystone
to the step address (R535). `r` is the whole access, and `node` and `offset` where its first byte lies; what the source
then does with it does not matter. -/
def State.noteOutput (s : State) (n : Nat) (r : Req) (node : BitVec 16) (offset : Nat) : State :=
  let sh := (s.stack n).shadow
  match r.src with
  | .ctx b c =>
    if s.role n = 0 ∨ s.jobOf n b ≠ sh.job.toNat ∨ r.op = 1 ∨ r.destOff ≠ 0 then s
    else
      let d := outputDigest (s.node n) node offset r.op r.payload
      let closes := r.op == 3 && b == sh.stepBench && c == sh.stepCtx && node.toNat * 2 ^ 48 + offset == sh.stepAddr
      (s.modStack n (fun k =>
        { k with shadow := { k.shadow with late := insertLate (r.acc, d, closes) k.shadow.late } })).takeLate
        (sh.late.length + 1) n r.acc
  | .ring _ _ | .rebuild _ => s

/-- An access of a stack is gone before its address was known (R130): the outputs held behind it join the digest. -/
def State.settleLate (s : State) (n : Nat) : State :=
  s.takeLate ((s.stack n).shadow.late.length + 1) n s.nextId

/-- A shadow does not send an output to a node other than its own (R536). -/
def State.withholds (s : State) (n : Nat) (b : Nat) (r : Req) : Bool :=
  s.role n == roleShadow && s.jobOf n b == (s.stack n).shadow.job.toNat && r.op != 1
    && r.node != s.node n

end Sys2Proof.Machine
end

