-- ==== Sys2Proof/Machine/Source.lean ====
section
/-! DEFINITION. Fabric accesses of bench contexts at their source: the split at page boundaries, the
translation of each piece, and the checks of the source abutment (09_fabric_memory.md R272, R287;
08_translation.md R232, R238, R239, R244). -/

namespace Sys2Proof.Machine

def opLoad : BitVec 8 := 1
def opStore : BitVec 8 := 2
def opKeystone : BitVec 8 := 3
def opAtomic : BitVec 8 := 4
def opAccum : BitVec 8 := 5

/-- The right an operation needs: bit 2 A, bit 1 W, bit 0 R (R238). -/
def hasRight (rights : BitVec 3) (op : BitVec 8) : Bool :=
  if op = opLoad then rights.getLsbD 0
  else if op = opStore ∨ op = opKeystone then rights.getLsbD 1
  else rights.getLsbD 2

/-- The access code of a fault (Table 08-8): 0 read, 1 write, 2 atomic. -/
def accessCode (op : BitVec 8) : Nat :=
  if op = opLoad then 0 else if op = opStore ∨ op = opKeystone then 1 else 2

/-- The operations that return data. -/
def returns (op : BitVec 8) : Bool := op == opLoad || op == opAtomic

/-- A piece answered at its source with zeros, or dropped and so acknowledged (R239, R287). -/
def answered (r : Req) : List Req :=
  if returns r.op then [{ r with st := .done, reply := zeros r.len }] else []

/-- The source abutment's checks of a translated piece (Table 09-6), and the outputs a shadow
withholds (R536). -/
def State.placeReq (s : State) (n : Nat) (r : Req) (e : TlbEntry) : State × List Req :=
  let t : Req := { r with node := e.node, offset := e.offset r.va, st := .held }
  if !hasRight e.rights r.op then (s.quiet n qRights, answered t)
  else if r.bad || t.node == 0xFFFF || (r.op == opAccum && jzb2 t.node) then
    (s.quiet n qSource, answered t)
  else
    match r.src with
    | .ctx b _ => if s.withholds n b t then (s, answered t) else (s, [t])
    | .ring _ _ => (s, [t])
    | .rebuild _ => (s, [t])

/-- Who waits for the translation of a request. -/
def waiterOf (r : Req) : Waiter :=
  match r.src with
  | .ctx b c => .ctx b c r.id
  | .ring q d => .desc q d r.acc
  | .rebuild _ => .ctx 0 0 r.id

/-- The length of the piece at the front of a request (R272; R283 for a JZB-2 node). A store that is split for a
JZB-2 node is cut at a multiple of 8, so that no aligned word of it is (R277). -/
def pieceLen (r : Req) (e : TlbEntry) : Nat :=
  let m := Nat.min r.len (e.left r.va)
  if r.op = opStore ∧ jzb2 e.node ∧ 4096 < m then 4096 - r.va % 8 else m

/-- A bench context issued the request; only then is `acc` the number of an access (R92, R218, R250). -/
def Req.byCtx (r : Req) : Bool :=
  match r.src with
  | .ctx _ _ => true
  | .ring _ _ => false
  | .rebuild _ => false

/-- The request belongs to a killed context, which waits on no fault (R261). -/
def State.killedReq (s : State) (n : Nat) (r : Req) : Bool :=
  match r.src with
  | .ctx b c => decide ((s.ctx ⟨n, b, c⟩).st = .killed)
  | .ring _ _ => false
  | .rebuild _ => false

/-- Translate a request piece by piece. A piece that misses waits with everything behind it; one of a killed context
that would wait on an open fault is gone (R261). -/
def State.resolve : Nat → State → Nat → Req → State × List Req
  | 0, s, _, r => (s, [r])
  | fuel + 1, s, n, r =>
    match (s.stack n).lookup r.xctx r.va with
    | .outside => (s.quiet n qRights, answered r)
    | .miss =>
      if s.killedReq n r && ((s.stack n).faultOf r.xctx (pageOf r.va)).isSome then (s, [])
      else (s.modStack n (fun k => k.miss r.xctx r.va (waiterOf r)), [{ r with st := .walking }])
    | .hit e =>
      let s := (s.modStack n (fun k => k.noteUser e r.src)).noteOutput n r e.node (e.offset r.va)
      let len := pieceLen r e
      if len = 0 ∨ len = r.len then s.placeReq n r e
      else
        let id := s.fresh
        let front : Req := { r with len := len, payload := r.payload.take len }
        let rest : Req :=
          { r with id := id.1, va := r.va + len, len := r.len - len, payload := r.payload.drop len,
                   destOff := r.destOff + len }
        let p := id.2.placeReq n front e
        let q := State.resolve fuel p.1 n rest
        (q.1, p.2 ++ q.2)

/-- Pieces that one access can have: 8,192 bytes over 4 KiB pages, with room. -/
def pieceFuel : Nat := 8

/-- Accesses may be admitted to the span (10_spans_and_routing.md Table 10-6). -/
def SpanSt.admitting : SpanSt → Bool
  | .active | .draining | .paused => true
  | .requested | .armed | .closing | .closed => false

/-- The spans that admit an access of bench `b` issued now (05_spatial_pipelines.md R147). -/
def Stack.offered (k : Stack) (b : Nat) : List (BitVec 16) :=
  (k.spansOut.filter (fun x => x.st.admitting && decide (x.first ≤ b) && decide (b ≤ x.last))).map (·.id)

/-- A fabric access of a context: 8,192 bytes at most. `dest` is the register key of its result. -/
def State.access (s : State) (c : CtxId) (op param : BitVec 8) (va : Word) (len : Nat)
    (payload : List Byte) (dest : Nat) (bad : Bool) : State :=
  let id := s.fresh
  let r : Req :=
    { id := id.1, src := .ctx c.bench c.ctx, acc := id.1, op := op, param := param,
      xctx := (s.ctx c).xctx, va := va.toNat, len := len, payload := payload, st := .walking, node := 0,
      offset := 0, seq := 0, firstSent := 0, resends := 0, dest := dest, destOff := 0, span := 0, offers := (s.stack c.stack).offered c.bench,
      bad := bad, reply := [], poisoned := false }
  let p := id.2.resolve pieceFuel c.stack r
  p.1.modStack c.stack (fun k => { k with reqs := k.reqs ++ p.2 })

/-- Replace a waiting request by the pieces of a new attempt at its translation. -/
def State.retryReq (s : State) (n : Nat) (id : Nat) : State :=
  match (s.stack n).reqs.find? (fun r => r.id == id && decide (r.st = .walking)) with
  | none => s
  | some r =>
    let p := s.resolve pieceFuel n r
    (p.1.modStack n (fun k =>
      { k with reqs := k.reqs.flatMap (fun q => if q.id = id then p.2 else [q]) })).settleLate n

end Sys2Proof.Machine
end

