-- ==== Sys2Proof/Machine/Memory.lean ====
section
/-! DEFINITION. The memory and fabric instructions of a bench (04_benches.md Table 04-8, opcodes 0x20
to 0x29; 09_fabric_memory.md Table 09-3). -/

namespace Sys2Proof.Machine

/-- sa + imm28: a virtual address, or with the drawer rule a drawer address. -/
def mAddr (old : Ctx) (f : MForm) : Word := old.sreg f.sa.toNat + simmM f

/-- A drawer access that breaks the rule counts as one that leaves the bench (R91, R95). -/
def State.drawerViolation (s : State) (c : CtxId) : State :=
  (s.modCtx c (fun x => { x with left := true })).quiet c.stack qDrawer

/-- VLD (R95, R100, R110): the upper bits of each lane are cleared. -/
def effVld (c : CtxId) (f : MForm) (old : Ctx) (s : State) : State :=
  let w := fmtBytes f.sub
  match drawerAddr (old.sreg f.sa.toNat) (simmM f) 64 (64 * w) with
  | none => (s.drawerViolation c).writeV c f.v.toNat (List.replicate 64 0)
  | some a =>
    if s.ctxBad c a (64 * w) then (s.ctxCorrect c a (64 * w)).stop c 4
    else (s.ctxCorrect c a (64 * w)).writeV c f.v.toNat ((elements w (s.ctxBytes c a (64 * w))).map (BitVec.ofNat 32))

/-- VST (R95, R587): the low bits of the lanes, of the width of sub. -/
def effVst (c : CtxId) (f : MForm) (old : Ctx) (s : State) : State :=
  let w := fmtBytes f.sub
  match drawerAddr (old.sreg f.sa.toNat) (simmM f) 64 (64 * w) with
  | none => s.drawerViolation c
  | some a => s.storeDrawer c.stack c.bench a ((codes old f.v).flatMap (leBytes w))

/-- SLD (R95, R100). -/
def effSld (c : CtxId) (f : MForm) (old : Ctx) (s : State) : State :=
  match drawerAddr (old.sreg f.sa.toNat) (simmM f) 8 8 with
  | none => (s.drawerViolation c).writeS c (f.v.toNat % 32) 0
  | some a =>
    if s.ctxBad c a 8 then (s.ctxCorrect c a 8).stop c 4
    else (s.ctxCorrect c a 8).writeS c (f.v.toNat % 32) (leWord (s.ctxBytes c a 8))

/-- SST (R95, R587). -/
def effSst (c : CtxId) (f : MForm) (old : Ctx) (s : State) : State :=
  match drawerAddr (old.sreg f.sa.toNat) (simmM f) 8 8 with
  | none => s.drawerViolation c
  | some a => s.storeDrawer c.stack c.bench a (leBytes 8 (old.sreg (f.v.toNat % 32)).toNat)

/-- The context has an access that leaves the bench (R91). -/
def State.leaves (s : State) (c : CtxId) : State := s.modCtx c (fun x => { x with left := true })

/-- FLD (R107 to R109): v is zero until the reply writes its bytes. -/
def effFld (c : CtxId) (f : MForm) (old : Ctx) (s : State) : State :=
  let len := (old.sreg f.sb.toNat).toNat
  let t := (s.leaves c).writeV c f.v.toNat (List.replicate 64 0)
  if len = 0 then t
  else if 256 < len then t.quiet c.stack qSource
  else t.access c opLoad (BitVec.ofNat 8 (len - 1)) (mAddr old f) len [] (vKey f.v.toNat) false

/-- The drawer operand of FST and FACC: the state after it is read and its bytes, or none where the instruction makes no access
(R95, R107, R108, R271); an uncorrectable word stops the context (R100). -/
inductive DrawerOperand where
  | none (s : State)
  | bytes (s : State) (l : List Byte)

def drawerOperand (c : CtxId) (f : MForm) (old : Ctx) (s : State) : DrawerOperand :=
  let len := (old.sreg f.sc.toNat).toNat
  if len = 0 then .none s
  else if 8192 < len then .none (s.quiet c.stack qSource)
  else match drawerAddr (old.sreg f.sb.toNat) 0 64 len with
    | Option.none => .none (s.quiet c.stack qDrawer)
    | some a =>
      let t := s.ctxCorrect c a len
      if s.ctxBad c a len then .none (t.stop c 4) else .bytes t (s.ctxBytes c a len)

/-- FST. -/
def effFst (c : CtxId) (f : MForm) (old : Ctx) (s : State) : State :=
  let s := s.leaves c
  match drawerOperand c f old s with
  | .none t => t
  | .bytes t l => t.access c opStore 0 (mAddr old f) l.length l 0 false

/-- FSTK: 8 bytes of scalar sb; a target that is not a multiple of 8 is a violation (Table 09-6). -/
def effFstk (c : CtxId) (f : MForm) (old : Ctx) (s : State) : State :=
  (s.leaves c).access c opKeystone 0 (mAddr old f) 8 (leBytes 8 (old.sreg f.sb.toNat).toNat) 0
    ((mAddr old f).toNat % 8 != 0)

/-- FATOM: the operand, and for CAS the compare value 8 bytes on (Table 10-3). The old value goes to
scalar v[4:0], zero-extended. -/
def effFatom (c : CtxId) (f : MForm) (old : Ctx) (s : State) : State :=
  let sub := f.sub.toNat
  let eight := f.opt.getLsbD 0
  let size := atomicSize sub eight
  let opnd := leBytes size (old.sreg f.sb.toNat).toNat
  let payload := if sub = 4 then
      opnd ++ zeros (8 - size) ++ leBytes size (old.sreg f.sc.toNat).toNat
    else opnd
  let rd := f.v.toNat % 32
  ((s.leaves c).writeS c rd 0).access c opAtomic (BitVec.ofNat 8 (16 * sub + boolNat eight))
    (mAddr old f) size payload (sKey rd) ((mAddr old f).toNat % size != 0)

/-- FACC (R270, R275). -/
def effFacc (c : CtxId) (f : MForm) (old : Ctx) (s : State) : State :=
  let s := s.leaves c
  let w := fmtBytes f.sub
  match drawerOperand c f old s with
  | .none t => t
  | .bytes t l =>
    t.access c opAccum (BitVec.ofNat 8 (f.opt.toNat % 4 * 64 + f.sub.toNat * 4)) (mAddr old f) l.length l 0
      ((mAddr old f).toNat % w != 0 || l.length % w != 0)

/-- The earlier accesses of a context have all been acknowledged or answered (R282). -/
def Stack.settled (k : Stack) (b c : Nat) : Bool :=
  !(k.ctxReqs b c).any (fun r => decide (r.st ≠ .done))

/-- FFENCE waits until every earlier access of the context is acknowledged or answered (R282). -/
def effFfence (c : CtxId) (_f : MForm) (_old : Ctx) (s : State) : State :=
  let s := s.leaves c
  if (s.stack c.stack).settled c.bench c.ctx then s else s.addWait c .fence

def loneM (op : Nat) (c : CtxId) (f : MForm) (s : State) (eff : Ctx → State → State) : Res :=
  lone s c (mOk op f) eff

/-- A further fabric access may issue: fewer than 64 are outstanding (R92). -/
def State.mayAccess (s : State) (c : CtxId) : Bool :=
  decide ((s.stack c.stack).outstanding c.bench c.ctx < 64)

/-- The instruction makes a fabric access: one without a length, with a length or a drawer operand that
breaks its rule, or whose drawer operand stops the context, makes none (R95, R100, R107, R271). -/
def State.makesAccess (s : State) (c : CtxId) (op : Nat) (f : MForm) (old : Ctx) : Bool :=
  if op = 0x24 then
    decide (0 < (old.sreg f.sb.toNat).toNat) && decide ((old.sreg f.sb.toNat).toNat ≤ 256)
  else if op = 0x25 ∨ op = 0x28 then
    match drawerOperand c f old s with
    | .none _ => false
    | .bytes _ _ => true
  else op == 0x26 || op == 0x27

/-- The limit of R92 does not hold the instruction. -/
def State.inLimit (s : State) (c : CtxId) (op : Nat) (f : MForm) (old : Ctx) : Bool :=
  s.mayAccess c || !s.makesAccess c op f old

def loneF (op : Nat) (c : CtxId) (f : MForm) (s : State) (eff : Ctx → State → State) : Res :=
  lone s c (mOk op f && !mAbsent s.intPresent op f && s.inLimit c op f (s.ctx c)) eff

def execVld (c : CtxId) (f : MForm) (s : State) : Res := loneM 0x20 c f s (effVld c f)
def execVst (c : CtxId) (f : MForm) (s : State) : Res := loneM 0x21 c f s (effVst c f)
def execSld (c : CtxId) (f : MForm) (s : State) : Res := loneM 0x22 c f s (effSld c f)
def execSst (c : CtxId) (f : MForm) (s : State) : Res := loneM 0x23 c f s (effSst c f)
def execFld (c : CtxId) (f : MForm) (s : State) : Res := loneF 0x24 c f s (effFld c f)
def execFst (c : CtxId) (f : MForm) (s : State) : Res := loneF 0x25 c f s (effFst c f)
def execFstk (c : CtxId) (f : MForm) (s : State) : Res := loneF 0x26 c f s (effFstk c f)
def execFatom (c : CtxId) (f : MForm) (s : State) : Res := loneF 0x27 c f s (effFatom c f)
def execFacc (c : CtxId) (f : MForm) (s : State) : Res := loneF 0x28 c f s (effFacc c f)
def execFfence (c : CtxId) (f : MForm) (s : State) : Res := loneM 0x29 c f s (effFfence c f)

def isFence : Wait → Bool
  | .fence => true
  | _ => false

/-- FFENCE_COMPLETE (R282). -/
def execFfenceComplete (c : CtxId) (s : State) : Res :=
  onCtx c (whenOk ((s.ctx c).waits.any isFence && (s.stack c.stack).settled c.bench c.ctx) s
    (s.endWait c isFence))

end Sys2Proof.Machine
end

