-- ==== Sys2Proof/Machine/Links.lean ====
section
/-! DEFINITION. The stage links between the benches of a stack: granules, credits, the ownership of a
direction, and the link instructions (05_spatial_pipelines.md R138 to R145; 04_benches.md opcodes 0x2A
to 0x2D). -/

namespace Sys2Proof.Machine

/-- The bench at the far end of a link: 0 north, 1 east, 2 south, 3 west (R138). -/
def neighbour (b link : Nat) : Option Nat :=
  match link with
  | 0 => if 21 ≤ b then some (b - 21) else none
  | 1 => if b % 21 < 20 then some (b + 1) else none
  | 2 => if b / 21 < 15 then some (b + 21) else none
  | 3 => if 0 < b % 21 then some (b - 1) else none
  | _ => none

/-- The number of the same link at its far end. -/
def opposite (link : Nat) : Nat := (link + 2) % 4

/-- A link is open when both ends exist and carry the same job, not 0 (R139). -/
def State.linkOpen (s : State) (n b link : Nat) : Bool :=
  match neighbour b link with
  | none => false
  | some d => s.jobOf n b != 0 && s.jobOf n b == s.jobOf n d

/-- A link instruction on a closed link is counted, and CLOSED_USE remembers the link (R139, Table
05-8). -/
def State.closedUse (s : State) (n b link : Nat) : State :=
  (s.quiet n qLink).setBit (.BCH_LINK_STATUS n b)
    ⟨BCH_LINK_STATUS_CLOSED_USE.lo + link, BCH_LINK_STATUS_CLOSED_USE.lo + link⟩ true

def rxDepth : Nat := 6

def granule : Nat := 256

/-- The sending bench has credit on a link (R140). -/
def Bench.hasCredit (x : Bench) (link : Nat) : Bool := decide (Tab.get 0 x.used link < rxDepth)

/-- Put a granule on a link: it uses one credit. -/
def Bench.putGranule (x : Bench) (link : Nat) (g : List Byte) : Bench :=
  { x with
    used := Tab.set 0 x.used link (Tab.get 0 x.used link + 1)
    flight := Tab.set [] x.flight link (Tab.get [] x.flight link ++ [g]) }

/-- The link waits of a context. -/
def sendWait (link : Nat) : Wait → Bool
  | .send l _ => l == link
  | .sendD l _ _ => l == link
  | _ => false

def recvWait (link : Nat) : Wait → Bool
  | .recvV l _ => l == link
  | .recvD l _ _ => l == link
  | _ => false

/-- Replace the waits of a context that a test picks. -/
def State.setWait (s : State) (c : CtxId) (p : Wait → Bool) (w : Wait) : State :=
  s.modCtx c (fun x => { x with waits := x.waits.map (fun v => if p v then w else v) })

/-- Own and release a direction (R142). -/
def State.ownTx (s : State) (c : CtxId) (link : Nat) : State :=
  s.modBench c.stack c.bench (fun x =>
    { x with txOwner := Tab.set 0 x.txOwner link (c.ctx + 1)
             txQueue := Tab.set [] x.txQueue link ((Tab.get [] x.txQueue link).filter (fun d => d != c.ctx)) })

def State.leaveTx (s : State) (c : CtxId) (link : Nat) : State :=
  s.modBench c.stack c.bench (fun x =>
    { x with txOwner := Tab.set 0 x.txOwner link 0
             txQueue := Tab.set [] x.txQueue link ((Tab.get [] x.txQueue link).filter (fun d => d != c.ctx)) })

def State.ownRx (s : State) (c : CtxId) (link : Nat) : State :=
  s.modBench c.stack c.bench (fun x =>
    { x with rxOwner := Tab.set 0 x.rxOwner link (c.ctx + 1)
             rxQueue := Tab.set [] x.rxQueue link ((Tab.get [] x.rxQueue link).filter (fun d => d != c.ctx)) })

def State.leaveRx (s : State) (c : CtxId) (link : Nat) : State :=
  s.modBench c.stack c.bench (fun x =>
    { x with rxOwner := Tab.set 0 x.rxOwner link 0
             rxQueue := Tab.set [] x.rxQueue link ((Tab.get [] x.rxQueue link).filter (fun d => d != c.ctx)) })

/-- The context whose turn a direction is: its owner, or the first that waits (R142). -/
def turnOf (owner : Nat) (queue : List Nat) : Option Nat :=
  if owner = 0 then queue.head? else some (owner - 1)

/-- One move of a send direction: the context whose turn it is sends a granule, finishes, or has
nothing to do. `none` when nothing moves. An operation that waits when its link closes ends as on a closed link (DESIGN
CHOICE, log entry 25). -/
def State.sendOne (s : State) (n b link : Nat) : Option State :=
  let x := s.bench n b
  match turnOf (Tab.get 0 x.txOwner link) (Tab.get [] x.txQueue link) with
  | none => none
  | some ci =>
    let c : CtxId := ⟨n, b, ci⟩
    match (s.ctx c).waits.find? (sendWait link) with
    | none => none
    | some w =>
      if !s.linkOpen n b link then
        some (((s.closedUse n b link).leaveTx c link).endWait c (sendWait link))
      else if !x.hasCredit link then none
      else match w with
        | .send _ (g :: _) =>
          some (((s.modBench n b (fun y => y.putGranule link g)).leaveTx c link).endWait c (sendWait link))
        | .sendD _ a left =>
          if s.ctxBad c a granule then some ((s.ctxCorrect c a granule).stop c 4)
          else
            let t := ((s.ctxCorrect c a granule).modBench n b (fun y => y.putGranule link (s.ctxBytes c a granule))).ownTx c link
            if left ≤ granule then some ((t.leaveTx c link).endWait c (sendWait link))
            else some (t.setWait c (sendWait link) (.sendD link (a + granule) (left - granule)))
        | _ => none

/-- Free the oldest entry of a receive buffer: its credit starts back to the sender (R140). -/
def State.freeEntry (s : State) (n b link : Nat) : State :=
  let t := s.modBench n b (fun x => { x with rx := Tab.set [] x.rx link ((Tab.get [] x.rx link).drop 1) })
  match neighbour b link with
  | none => t
  | some d => t.modBench n d (fun x =>
      { x with creditBack :=
          Tab.set 0 x.creditBack (opposite link) (Tab.get 0 x.creditBack (opposite link) + 1) })

/-- The lanes that 256 bytes fill (R109). -/
def lanesOf (bs : List Byte) : List Lane := (elements 4 bs).map (BitVec.ofNat 32)

/-- A result of a context is ready `lat` cycles from now (R89, Table 04-10). -/
def State.readyIn (s : State) (c : CtxId) (key lat : Nat) : State :=
  let at_ := (s.bench c.stack c.bench).cycle + lat
  s.modCtx c (fun x => { x with ready := Tab.set 0 x.ready key at_ })

/-- One move of a receive direction. -/
def State.recvOne (s : State) (n b link : Nat) : Option State :=
  let x := s.bench n b
  match turnOf (Tab.get 0 x.rxOwner link) (Tab.get [] x.rxQueue link) with
  | none => none
  | some ci =>
    let c : CtxId := ⟨n, b, ci⟩
    match (s.ctx c).waits.find? (recvWait link) with
    | none => none
    | some w =>
      if !s.linkOpen n b link then
        let t := match w with
          | .recvV _ v => s.writeV c v (List.replicate 64 0)
          | _ => s
        some (((t.closedUse n b link).leaveRx c link).endWait c (recvWait link))
      else match Tab.get [] x.rx link with
        | [] => none
        | g :: _ =>
          let t := s.freeEntry n b link
          -- R145: a granule with an uncorrectable error; its entry is freed (log entry 240)
          if g.isEmpty then some (t.stop c 4)
          else match w with
            | .recvV _ v =>
              let u := (t.writeV c v (lanesOf g)).readyIn c (vKey v) 3
              some ((u.leaveRx c link).endWait c (recvWait link))
            | .recvD _ a left =>
              let u := (t.storeDrawer n b a g).ownRx c link
              if left ≤ granule then some ((u.leaveRx c link).endWait c (recvWait link))
              else some (u.setWait c (recvWait link) (.recvD link (a + granule) (left - granule)))
            | _ => none

/-- Move a direction as long as something moves. -/
def pump (f : State → Option State) : Nat → State → State
  | 0, s => s
  | k + 1, s => match f s with
    | none => s
    | some t => pump f k t

/-- Moves that one event can allow: the six granules of a buffer, and the contexts of a bench. -/
def pumpFuel : Nat := 32

def State.pumpTx (s : State) (n b link : Nat) : State := pump (fun t => t.sendOne n b link) pumpFuel s
def State.pumpRx (s : State) (n b link : Nat) : State := pump (fun t => t.recvOne n b link) pumpFuel s

/-- A link instruction waits its turn in the order of issue (R142). -/
def State.queueTx (s : State) (c : CtxId) (link : Nat) (w : Wait) : State :=
  ((s.modBench c.stack c.bench (fun x =>
    { x with txQueue := Tab.set [] x.txQueue link (Tab.get [] x.txQueue link ++ [c.ctx]) })).addWait c
      w).pumpTx c.stack c.bench link

def State.queueRx (s : State) (c : CtxId) (link : Nat) (w : Wait) : State :=
  ((s.modBench c.stack c.bench (fun x =>
    { x with rxQueue := Tab.set [] x.rxQueue link (Tab.get [] x.rxQueue link ++ [c.ctx]) })).addWait c
      w).pumpRx c.stack c.bench link

/-- The 256 bytes of a vector register (R109). -/
def vregBytes (x : Ctx) (v : Nat) : List Byte := (x.vreg v).flatMap (fun l => leBytes 4 l.toNat)

/-- LSEND (R139 to R142). -/
def effLsend (c : CtxId) (f : MForm) (old : Ctx) (s : State) : State :=
  let link := f.sub.toNat
  if s.linkOpen c.stack c.bench link then
    s.queueTx c link (.send link [vregBytes old f.v.toNat])
  else s.closedUse c.stack c.bench link

/-- LRECV: zero on a closed link (R139). -/
def effLrecv (c : CtxId) (f : MForm) (_old : Ctx) (s : State) : State :=
  let link := f.sub.toNat
  if s.linkOpen c.stack c.bench link then s.queueRx c link (.recvV link f.v.toNat)
  else (s.writeV c f.v.toNat (List.replicate 64 0)).closedUse c.stack c.bench link

/-- The drawer operand of LSENDD and LRECVD; none where it breaks R95. -/
def linkArea (f : MForm) (old : Ctx) : Option (Nat × Nat) :=
  let len := (old.sreg f.sc.toNat).toNat
  (drawerAddr (old.sreg f.sb.toNat) 0 64 len).map (fun a => (a, len))

/-- What LSENDD and LRECVD share: the state after their checks, and the drawer address and length to move. On a closed link every use
is counted and transfers nothing (R139), whatever its operands (log entry 237); a length that is no multiple of 256 is
no length that these instructions take (Table 04-8) and moves nothing (log entry 19); nor does a drawer operand that
breaks R95. -/
def State.linkBlock (s : State) (c : CtxId) (f : MForm) (old : Ctx) : State × Option (Nat × Nat) :=
  let link := f.sub.toNat
  let open_ := s.linkOpen c.stack c.bench link
  let len := (old.sreg f.sc.toNat).toNat
  let t := if open_ then s else s.closedUse c.stack c.bench link
  if len = 0 then (t, none)
  else if len % granule ≠ 0 then (t.quiet c.stack qSource, none)
  else match linkArea f old with
    | none => (t.quiet c.stack qDrawer, none)
    | some p => (t, if open_ then some p else none)

def effLsendd (c : CtxId) (f : MForm) (old : Ctx) (s : State) : State :=
  match s.linkBlock c f old with
  | (t, some p) => t.queueTx c f.sub.toNat (.sendD f.sub.toNat p.1 p.2)
  | (t, none) => t

def effLrecvd (c : CtxId) (f : MForm) (old : Ctx) (s : State) : State :=
  match s.linkBlock c f old with
  | (t, some p) => t.queueRx c f.sub.toNat (.recvD f.sub.toNat p.1 p.2)
  | (t, none) => t

def execLsend (c : CtxId) (f : MForm) (s : State) : Res := inOrder s (loneM 0x2A c f s (effLsend c f))
def execLrecv (c : CtxId) (f : MForm) (s : State) : Res := inOrder s (loneM 0x2B c f s (effLrecv c f))
def execLsendd (c : CtxId) (f : MForm) (s : State) : Res := inOrder s (loneM 0x2C c f s (effLsendd c f))
def execLrecvd (c : CtxId) (f : MForm) (s : State) : Res := inOrder s (loneM 0x2D c f s (effLrecvd c f))

/-- GRANULE_ARRIVE (R140, R145): the oldest granule under way towards a bench enters its receive
buffer, and a context that waits takes it. -/
def execGranuleArrive (stack bench link : Nat) (bad : Bool) (s : State) : Res :=
  inOrder s (onBench stack bench (match neighbour bench link with
    | none => .next s
    | some d =>
      match Tab.get [] (s.bench stack d).flight (opposite link) with
      | [] => .next s
      | g :: rest =>
        let t := s.modBench stack d (fun x => { x with flight := Tab.set [] x.flight (opposite link) rest })
        let u := t.modBench stack bench (fun x =>
          { x with rx := Tab.set [] x.rx link (Tab.get [] x.rx link ++ [if bad then [] else g]) })
        .next (u.pumpRx stack bench link)))

/-- CREDIT_RETURN (R140): a freed entry's credit reaches the sender. -/
def execCreditReturn (stack bench link : Nat) (s : State) : Res :=
  let x := s.bench stack bench
  inOrder s (onBench stack bench (whenOk (decide (0 < Tab.get 0 x.creditBack link)) s
    ((s.modBench stack bench (fun y =>
      { y with creditBack := Tab.set 0 y.creditBack link (Tab.get 0 y.creditBack link - 1)
               used := Tab.set 0 y.used link (Tab.get 0 y.used link - 1) })).pumpTx stack bench link)))

/-- Empty both directions of one link of a bench and restore its credits (R143). -/
def State.emptyLink (s : State) (n b link : Nat) : State :=
  let clear (x : Bench) (l : Nat) : Bench :=
    { x with rx := Tab.set [] x.rx l []
             flight := Tab.set [] x.flight l []
             used := Tab.set 0 x.used l 0
             creditBack := Tab.set 0 x.creditBack l 0 }
  match neighbour b link with
  | none => s.modBench n b (fun x => clear x link)
  | some d =>
    (((s.modBench n b (fun x => clear x link)).modBench n d (fun x => clear x (opposite link))).pumpTx n d
      (opposite link)).pumpRx n d (opposite link)

/-- Empty every link of a bench (R143). -/
def State.emptyLinks (s : State) (n b : Nat) : State :=
  (List.range 4).foldl (fun t l => t.emptyLink n b l) s

/-- A context gives up its directions and its places in their queues (R142, R144). -/
def State.releaseLinks (s : State) (c : CtxId) : State :=
  (List.range 4).foldl (fun t l =>
    let x := t.bench c.stack c.bench
    let u := if Tab.get 0 x.txOwner l = c.ctx + 1 then
        t.modBench c.stack c.bench (fun y => { y with txOwner := Tab.set 0 y.txOwner l 0 }) else t
    let v := if Tab.get 0 x.rxOwner l = c.ctx + 1 then
        u.modBench c.stack c.bench (fun y => { y with rxOwner := Tab.set 0 y.rxOwner l 0 }) else u
    ((v.modBench c.stack c.bench (fun y => y.leaveQueues c.ctx)).pumpTx c.stack c.bench l).pumpRx
      c.stack c.bench l) s

end Sys2Proof.Machine
end

