-- ==== Sys2Proof/Machine/Scalar.lean ====
section
/-! DEFINITION. The scalar and control instructions of a bench (04_benches.md Table 04-8, opcodes 0x00
to 0x18), and the events that end their waits. Every effect takes the context as it stood at issue,
from which the instruction reads its sources (R103). -/

namespace Sys2Proof.Machine

/-- A scalar result of two operands. -/
def alu (g : Word → Word → Word → Word) (c : CtxId) (f : SForm) (old : Ctx) (s : State) : State :=
  s.writeS c f.sd.toNat (g (old.sreg f.sa.toNat) (old.sreg f.sb.toNat) (simmS f))

def effSli (c : CtxId) (f : SForm) (_old : Ctx) (s : State) : State := s.writeS c f.sd.toNat (simmS f)

def effSlih (c : CtxId) (f : SForm) (old : Ctx) (s : State) : State :=
  s.writeS c f.sd.toNat (f.imm ++ (old.sreg f.sd.toNat).extractLsb' 0 32)

def effSadd := alu (fun a b _ => a + b)
def effSaddi := alu (fun a _ i => a + i)
def effSsub := alu (fun a b _ => a - b)
def effSmul := alu (fun a b _ => a * b)
def effSand := alu (fun a b _ => a &&& b)
def effSor := alu (fun a b _ => a ||| b)
def effSxor := alu (fun a b _ => a ^^^ b)

/-- The shift amount (sb + imm32)[5:0]. -/
def shiftBy (b i : Word) : Nat := (b + i).toNat % 64

def effSshl := alu (fun a b i => a <<< shiftBy b i)
def effSshr := alu (fun a b i => a >>> shiftBy b i)
def effScmplt := alu (fun a b _ => if a.slt b then 1 else 0)

/-- The next bundle. -/
def State.goTo (s : State) (c : CtxId) (target : Nat) : State :=
  s.modCtx c (fun x => { x with pc := target })

def effJmp (c : CtxId) (f : SForm) (_old : Ctx) (s : State) : State := s.goTo c f.imm.toNat

def effBrz (c : CtxId) (f : SForm) (old : Ctx) (s : State) : State :=
  if old.sreg f.sa.toNat = 0 then s.goTo c f.imm.toNat else s

def effBrnz (c : CtxId) (f : SForm) (old : Ctx) (s : State) : State :=
  if old.sreg f.sa.toNat = 0 then s else s.goTo c f.imm.toNat

/-- WAITF (R95, R100, R125): a violation is counted and the instruction retires; an uncorrectable
word stops the context; otherwise it waits unless the word is already at least sb. -/
def effWaitf (c : CtxId) (f : SForm) (old : Ctx) (s : State) : State :=
  let s := s.modCtx c (fun x => { x with left := true })
  match drawerAddr (old.sreg f.sa.toNat) (simmS f) 8 8 with
  | none => s.quiet c.stack qDrawer
  | some a =>
    let t := s.ctxCorrect c a 8
    if s.ctxBad c a 8 then t.stop c 4
    else if (old.sreg f.sb.toNat).toNat ≤ leNat (s.ctxBytes c a 8) then t
    else t.addWait c (.flag a (old.sreg f.sb.toNat))

/-- The beat conditions that stop a context in WAITB (R126). -/
def State.beatUnfit (s : State) : Bool := s.lostOver || s.mismatch

/-- WAITB (R126): the low 48 bits of sa name the beat (log entry 15). -/
def effWaitb (c : CtxId) (f : SForm) (old : Ctx) (s : State) : State :=
  let s := s.modCtx c (fun x => { x with left := true })
  let b := (old.sreg f.sa.toNat).extractLsb' 0 48
  if s.beatUnfit then s.stop c 6
  else if s.inFuture b then s.addWait c (.beat b)
  else s

def effGetf (c : CtxId) (f : SForm) (old : Ctx) (s : State) : State :=
  s.writeS c f.sd.toNat (old.flags.setWidth 64)

/-- GETID: node, stack, context, logical bench (Table 04-8). -/
def idWord (s : State) (c : CtxId) : Word :=
  BitVec.ofNat 64 ((s.node c.stack).toNat * 2 ^ 32 + c.stack * 2 ^ 24 + c.ctx * 2 ^ 16 + c.bench)

def effGetid (c : CtxId) (f : SForm) (_old : Ctx) (s : State) : State :=
  s.writeS c f.sd.toNat (idWord s c)

/-- YIELD: the next issue follows R90 step 2. -/
def effYield (c : CtxId) (_f : SForm) (_old : Ctx) (s : State) : State :=
  s.modCtx c (fun x => { x with left := true })

def effHalt (c : CtxId) (_f : SForm) (_old : Ctx) (s : State) : State := s.addWait c .halt

/-- NOP (R102). -/
def execNop (c : CtxId) (s : State) : Res := lone s c true (fun _ t => t)

def execSli (c : CtxId) (f : SForm) (s : State) : Res := lone s c true (effSli c f)
def execSlih (c : CtxId) (f : SForm) (s : State) : Res := lone s c true (effSlih c f)
def execSadd (c : CtxId) (f : SForm) (s : State) : Res := lone s c true (effSadd c f)
def execSaddi (c : CtxId) (f : SForm) (s : State) : Res := lone s c true (effSaddi c f)
def execSsub (c : CtxId) (f : SForm) (s : State) : Res := lone s c true (effSsub c f)
def execSmul (c : CtxId) (f : SForm) (s : State) : Res := lone s c true (effSmul c f)
def execSand (c : CtxId) (f : SForm) (s : State) : Res := lone s c true (effSand c f)
def execSor (c : CtxId) (f : SForm) (s : State) : Res := lone s c true (effSor c f)
def execSxor (c : CtxId) (f : SForm) (s : State) : Res := lone s c true (effSxor c f)
def execSshl (c : CtxId) (f : SForm) (s : State) : Res := lone s c true (effSshl c f)
def execSshr (c : CtxId) (f : SForm) (s : State) : Res := lone s c true (effSshr c f)
def execScmplt (c : CtxId) (f : SForm) (s : State) : Res := lone s c true (effScmplt c f)
def execJmp (c : CtxId) (f : SForm) (s : State) : Res := lone s c true (effJmp c f)
def execBrz (c : CtxId) (f : SForm) (s : State) : Res := lone s c true (effBrz c f)
def execBrnz (c : CtxId) (f : SForm) (s : State) : Res := lone s c true (effBrnz c f)
def execWaitf (c : CtxId) (f : SForm) (s : State) : Res := lone s c true (effWaitf c f)
def execWaitb (c : CtxId) (f : SForm) (s : State) : Res := lone s c true (effWaitb c f)
def execGetf (c : CtxId) (f : SForm) (s : State) : Res := lone s c true (effGetf c f)
def execGetid (c : CtxId) (f : SForm) (s : State) : Res := lone s c true (effGetid c f)
def execYield (c : CtxId) (f : SForm) (s : State) : Res := lone s c true (effYield c f)
def execHalt (c : CtxId) (f : SForm) (s : State) : Res := lone s c true (effHalt c f)

/-- The flag a context waits for. -/
def Ctx.flagWait (x : Ctx) : Option (Nat × Word) :=
  firstSome (x.waits.map (fun w => match w with
    | .flag a v => some (a, v)
    | _ => none))

def isFlag : Wait → Bool
  | .flag _ _ => true
  | _ => false

def isBeat : Wait → Bool
  | .beat _ => true
  | _ => false

/-- The beat a context waits for. -/
def Ctx.beatWait (x : Ctx) : Option (BitVec 48) :=
  firstSome (x.waits.map (fun w => match w with
    | .beat b => some b
    | _ => none))

/-- WAITF_RELEASE (R125): the word is read again, and the wait ends when it is at least sb; an
uncorrectable word stops the context (R100). -/
def execWaitfRelease (c : CtxId) (s : State) : Res :=
  onCtx c (match (s.ctx c).flagWait with
    | none => .next s
    | some (a, v) =>
      let t := s.ctxCorrect c a 8
      if s.ctxBad c a 8 then .next (t.stop c 4)
      else .next (if v.toNat ≤ leNat (s.ctxBytes c a 8) then t.endWait c isFlag else t))

/-- WAITB_RELEASE (R40, R126): the beat has been reached; LOST for more than 100 ms or
MISMATCH stops the context. -/
def execWaitbRelease (c : CtxId) (s : State) : Res :=
  onCtx c (match (s.ctx c).beatWait with
    | none => .next s
    | some b =>
      if s.beatUnfit then .next (s.stop c 6)
      else whenOk (s.reached b) s (s.endWait c isBeat))

/-- The contexts in WAIT_BEAT enter STOPPED with CAUSE 6 when the beat becomes unfit (R126). -/
def State.stopBeatWaits (s : State) : State :=
  (List.range 8).foldl (fun t n => ((t.stack n).contexts n).foldl (fun u c =>
    if (u.ctx c).st = .waitBeat then u.stop c 6 else u) t) s

/-- HALT_COMPLETE (Table 04-8, R282): nothing is left to wait for, and the context is HALTED. -/
def execHaltComplete (c : CtxId) (s : State) : Res :=
  onCtx c (whenOk (alive (s.ctx c).st && s.haltDone c) s (s.enterHalted c))

end Sys2Proof.Machine
end

