-- ==== Sys2Proof/Machine/Sequencer.lean ====
section
/-! DEFINITION. The sequencer of a bench: which context issues in an arithmetic cycle, and the issue of
one bundle (04_benches.md R89 to R92, R98, R103, R123, R124, R133). -/

namespace Sys2Proof.Machine

/-- The effect of an instruction of a slot on a context. -/
def slotEffect (slot : Nat) (w : Word) (c : CtxId) (old : Ctx) (s : State) : State :=
  let op := opcodeOf w
  if slot = 0 then
    let f := sFormOf w
    match op with
    | 0x01 => effSli c f old s
    | 0x02 => effSlih c f old s
    | 0x03 => effSadd c f old s
    | 0x04 => effSaddi c f old s
    | 0x05 => effSsub c f old s
    | 0x06 => effSmul c f old s
    | 0x07 => effSand c f old s
    | 0x08 => effSor c f old s
    | 0x09 => effSxor c f old s
    | 0x0A => effSshl c f old s
    | 0x0B => effSshr c f old s
    | 0x0C => effScmplt c f old s
    | 0x10 => effJmp c f old s
    | 0x11 => effBrz c f old s
    | 0x12 => effBrnz c f old s
    | 0x13 => effWaitf c f old s
    | 0x14 => effWaitb c f old s
    | 0x15 => effGetf c f old s
    | 0x16 => effGetid c f old s
    | 0x17 => effYield c f old s
    | 0x18 => effHalt c f old s
    | _ => s
  else if slot = 1 then
    let f := mFormOf w
    match op with
    | 0x20 => effVld c f old s
    | 0x21 => effVst c f old s
    | 0x22 => effSld c f old s
    | 0x23 => effSst c f old s
    | 0x24 => effFld c f old s
    | 0x25 => effFst c f old s
    | 0x26 => effFstk c f old s
    | 0x27 => effFatom c f old s
    | 0x28 => effFacc c f old s
    | 0x29 => effFfence c f old s
    | 0x2A => effLsend c f old s
    | 0x2B => effLrecv c f old s
    | 0x2C => effLsendd c f old s
    | 0x2D => effLrecvd c f old s
    | _ => s
  else if slot = 2 then
    let f := vFormOf w
    match op with
    | 0x40 => effArith2 .add c f old s
    | 0x41 => effArith2 .sub c f old s
    | 0x42 => effArith2 .mul c f old s
    | 0x43 => effVfma c f old s
    | 0x44 => effArith2 .div c f old s
    | 0x45 => effVsqrt c f old s
    | 0x46 => effArith2 .min c f old s
    | 0x47 => effArith2 .max c f old s
    | 0x48 => effCmp .eq c f old s
    | 0x49 => effCmp .lt c f old s
    | 0x4A => effCmp .le c f old s
    | 0x4B => effVsel c f old s
    | 0x4C => effVabs c f old s
    | 0x4D => effVneg c f old s
    | 0x4E => effVand c f old s
    | 0x4F => effVor c f old s
    | 0x50 => effVxor c f old s
    | 0x51 => effVshl c f old s
    | 0x52 => effVshr c f old s
    | 0x53 => effVmovs c f old s
    | 0x54 => effVperm c f old s
    | 0x55 => effVbcast c f old s
    | 0x56 => effVrsum c f old s
    | 0x57 => effVrmax c f old s
    | 0x58 => effCvt c f old s
    | 0x59 => effCvtb c f old s
    | 0x5A => effCvtu c f old s
    | 0x5B => effApprox .exp2 c f old s
    | 0x5C => effApprox .log2 c f old s
    | 0x5D => effApprox .rcpa c f old s
    | 0x5E => effApprox .rsqa c f old s
    | 0x5F => effApprox .tanh c f old s
    | 0x60 => effApprox .sigm c f old s
    | 0x61 => effVext c f old s
    | _ => s
  else
    let f := aFormOf w
    match op with
    | 0x80 => effAzero c f old s
    | 0x81 => effAmma c f old s
    | 0x83 => effAdrain c f old s
    | 0x84 => effAload c f old s
    | _ => s

/-! ### Latency and occupancy (Table 04-10) -/

/-- Result latency and unit occupancy of a vector instruction. -/
def vecTiming (op : Nat) (strict : Bool) : Nat × Nat :=
  let p : Nat × Nat :=
    if op = 0x44 ∨ op = 0x45 then (16, 4)
    else if op = 0x56 ∨ op = 0x57 ∨ op = 0x59 ∨ op = 0x5A then (8, 2)
    else if isApprox op then (12, 1)
    else (4, 1)
  if strict then (4 * p.1, 4 * p.2) else p

/-- Result latency and occupancy of an array instruction; none where an AMMA has no effect by R121 (log entry 238). -/
def arrTiming (op : Nat) (f : AForm) (old : Ctx) : Option (Nat × Nat) :=
  if op = 0x81 then
    let k := (old.sreg f.sk.toNat).toNat
    if k % 64 ≠ 0 ∨ k < 64 ∨ 4096 < k then none
    else
      let hold := if f.strict then 16 * k else if f.fa = 4 ∨ f.fb = 4 then 4 * k else k
      some (12 + hold, hold)
  else if op = 0x83 then some (72, 64)
  else if op = 0x84 then some (66, 64)
  else some (1, 1)

/-- The drawer accesses that wait for the context's earlier array operations (R98). -/
def drawerOp (op : Nat) : Bool :=
  op == 0x13 || (decide (0x20 ≤ op) && decide (op ≤ 0x23)) || op == 0x25 || op == 0x28 || op == 0x2C
    || op == 0x2D

def slotWord (ws : List Word) (i : Nat) : Word := nth 0 ws i

/-! ### Issue -/

/-- A context can issue its next bundle in this cycle (R89, R92, R98, R123). -/
def State.canIssue (s : State) (c : CtxId) : Bool :=
  let x := s.bench c.stack c.bench
  let y := s.ctx c
  let ws := x.bundle y.pc
  let mem := opcodeOf (slotWord ws 1)
  let vec := opcodeOf (slotWord ws 2)
  let arr := opcodeOf (slotWord ws 3)
  s.running c && decide (y.pc < x.bundles)
    && (bundleReads ws).all (fun k => decide (Tab.get 0 y.ready k ≤ x.cycle))
    && !s.needsReply c
    && (arr != 0x83 || decide (y.tileReady ≤ x.cycle))
    && (vec == 0 || decide (x.vecHeld ≤ x.cycle))
    && (arr == 0 || decide (x.arrHeld ≤ x.cycle))
    && (!(drawerOp mem || drawerOp (opcodeOf (slotWord ws 0))) || decide (y.arrDone ≤ x.cycle))
    && s.inLimit c mem (mFormOf (slotWord ws 1)) y

/-- The context that issues in this cycle (R90). -/
def State.pick (s : State) (n b : Nat) : Option Nat :=
  let x := s.bench n b
  let can (c : Nat) := s.canIssue ⟨n, b, c⟩
  if x.issued && can x.last && !(x.ctx x.last).left && decide (x.inRow < 256) then some x.last
  else ((List.range 8).map (fun i => (x.last + 1 + i) % 8)).find? can

/-- Record when the results of a bundle are ready and until when its units are held (R124). -/
def Bench.occupy (x : Bench) (ci : Nat) (ws : List Word) (old : Ctx) : Bench :=
  let vec := opcodeOf (slotWord ws 2)
  let arr := opcodeOf (slotWord ws 3)
  let vt := vecTiming vec (vFormOf (slotWord ws 2)).strict
  let lat (slot : Nat) : Nat := if slot = 0 then 1 else if slot = 1 then 3 else vt.1
  let ready := ws.zipIdx.foldl (fun (r : Tab Nat) p =>
    (writtenKeys p.2 (opcodeOf p.1) p.1).foldl (fun r k => Tab.set 0 r k (x.cycle + lat p.2)) r)
    (x.ctx ci).ready
  let a := if arr = 0 then none else arrTiming arr (aFormOf (slotWord ws 3)) old
  let y := x.ctx ci
  let z : Ctx := match a with
    | none => { y with ready := ready }
    | some t =>
      { y with
        ready := ready
        arrDone := Nat.max y.arrDone (x.cycle + t.1)
        tileReady := if arr = 0x83 then y.tileReady else Nat.max y.tileReady (x.cycle + t.1) }
  { x.setCtx ci z with
    vecHeld := if vec = 0 then x.vecHeld else x.cycle + vt.2
    arrHeld := match a with
      | none => x.arrHeld
      | some t => x.cycle + t.2 }

/-- Issue the next bundle of a context: its four instructions read their sources at issue, the branch
takes effect after the bundle, and a bundle that waits on nothing retires (R103, R127). What the four do to the same drawer bytes
they do in the order of their slots, and a stop in one slot leaves the later ones their effect (DESIGN CHOICE, log
entry 216). -/
def State.issue (s : State) (c : CtxId) : State :=
  let x := s.bench c.stack c.bench
  let old := s.ctx c
  let ws := x.bundle old.pc
  let s0 := s.modCtx c (fun y => { y with pc := y.pc + 1, left := false })
  let s1 := s0.modBench c.stack c.bench (fun y => y.occupy c.ctx ws old)
  let s2 := ws.zipIdx.foldl (fun t p => slotEffect p.2 p.1 c old t) s1
  let s3 := if (s2.ctx c).waits.isEmpty then s2.modCtx c (fun y => y.restart s2.now) else s2
  s3.refresh c

/-- Contexts that have run past their program enter STOPPED with CAUSE 7 (R133). -/
def State.stopPast (s : State) (n b : Nat) : State :=
  (List.range 8).foldl (fun t ci =>
    let c : CtxId := ⟨n, b, ci⟩
    if t.running c && decide ((t.bench n b).bundles ≤ (t.ctx c).pc) then t.stop c 7 else t) s

/-- BUNDLE_ISSUE (R90): one arithmetic cycle of a bench. -/
def execBundleIssue (stack bench : Nat) (s : State) : Res :=
  inOrder s (onBench stack bench
    (let t := s.stopPast stack bench
     match t.pick stack bench with
     | none => .next (t.modBench stack bench (fun x => { x with cycle := x.cycle + 1, issued := false }))
     | some ci =>
       let u := t.issue ⟨stack, bench, ci⟩
       .next (u.modBench stack bench (fun x =>
         { x with
           cycle := x.cycle + 1
           issued := true
           inRow := if x.issued && x.last == ci then x.inRow + 1 else 1
           last := ci }))))

end Sys2Proof.Machine
end

