-- ==== Sys2Proof/Machine/Access.lean ====
section
/-! DEFINITION. What every register write has in common: the unit it names, who may write it, which
bits it takes (00_scope.md R7, R14; 15_startup_and_defects.md R455, R463; 19_register_map.md R545 to
R548, R559), and the state of a host core. -/

namespace Sys2Proof.Machine

/-- The stack in whose block a BAR0 offset lies (Table 19-1). -/
def stackOfOffset (o : Nat) : Option Nat :=
  if 0x1000000 ≤ o ∧ o < 0x3000000 then some ((o - 0x1000000) / 0x400000) else none

/-- The port in whose block a BAR0 offset lies. -/
def portOfOffset (o : Nat) : Option Nat :=
  if 0x600000 ≤ o ∧ o < 0x624000 then some ((o - 0x600000) / 0x1000) else none

def Reg.stack? (r : Reg) : Option Nat := stackOfOffset r.offset

/-- Row 8 of the quiet counters counts for the module's own blocks (R545). -/
def moduleRow : Nat := 8

def rowOfOffset (o : Nat) : Nat := (stackOfOffset o).getD moduleRow

/-- Count a register access that is ignored and counted (Table 18-3, REGISTER). -/
def State.countAt (s : State) (r : Reg) : State := s.quiet (rowOfOffset r.offset) qRegister

/-- The unit of an offset is present and has not failed (R7, R463). -/
def State.unitAnswers (s : State) (o : Nat) : Bool :=
  (match stackOfOffset o with
   | some n => s.stackUp n
   | none => true)
  && (match portOfOffset o with
   | some p => s.portPresent p
   | none => true)

/-- The runtime-owned registers (R548). -/
def runtimeOwned : Reg → Bool
  | .XLT_CFG _ | .XLT_FQ_IDX _ | .XLT_FQ_RESOLVE _ | .XLT_CTX _ _ => true
  | .BCH_WDOG_CFG _ | .BCH_RESEAT _ | .BCH_BENCH_CFG _ _ => true
  | .HCORE_CFG _ | .HCORE_EVT_IDX _ | .HCORE_DRING_CFG _ _ | .HCORE_DRING_IDX _ _ => true
  | .ABT_CWIN_CFG _ | .ABT_DEAD_STATUS _ | .ABT_LINE_STATUS _ | .ABT_COLL_CFG _ => true
  | .ABT_COLL_STATUS _ | .MEM_ERR_LOG _ => true
  | _ => false

/-- The registers that ignore BAR0 writes in every case (R548). -/
def notFromBar0 : Reg → Bool
  | .ABT_RECOVERY _ | .HCORE_WEIGHTS_ADDR _ | .HCORE_WEIGHTS_CTRL _ => true
  | _ => false

def coreReset : Nat := 0
def coreRun : Nat := 1
def coreWfi : Nat := 2
def coreWarn : Nat := 3
def coreHung : Nat := 4

/-- STATE of HCORE_CORE. -/
def State.coreSt (s : State) (n c : Nat) : Nat := s.fld (.HCORE_CORE n c) HCORE_CORE_STATE

/-- The core is in RUN, WFI or WDOG_WARN: it executes instructions or waits to (R189). A failed stack is held in reset
(15_startup_and_defects.md R463). -/
def State.coreActive (s : State) (n c : Nat) : Bool :=
  s.stackUp n && (s.coreSt n c == coreRun || s.coreSt n c == coreWfi || s.coreSt n c == coreWarn)

def State.ready (s : State) : Bool := s.bit .CAP_START CAP_START_READY

/-- Debug is open (17_security_and_tenancy.md R516). -/
def State.debugOpen (s : State) : Bool := s.bit .SEC_STATUS SEC_STATUS_DEBUG_OPEN

/-- The two registers of the JTAG DEBUG chain, which JTAG writes before READY as after it (17_security_and_tenancy.md R516;
DEDUCED, log entry 44). -/
def debugReg : Reg → Bool
  | .SEC_DEBUG_ACCESS_CTL | .SEC_DEBUG_ACCESS_DATA => true
  | _ => false

/-- What becomes of a write. -/
inductive Admit where
  | ok
  | ignored
  | counted
  deriving DecidableEq, Repr

/-- A write over BAR0, or as BAR0 takes it, before the register's own rule. Before READY only
CAP_RECOVERY takes one (R455). -/
def State.admitBar (s : State) (r : Reg) : Admit :=
  if !s.boot.bar0 then .ignored
  else if !s.ready && r != .CAP_RECOVERY then .counted
  else if !s.unitAnswers r.offset then .ignored
  else .ok

/-- The offset lies in a block that the fabric manager writes (R559). -/
def inSwcOrPort (o : Nat) : Bool :=
  (decide (0x500000 ≤ o) && decide (o < 0x600000)) || (portOfOffset o).isSome

/-- Whether a requester's write reaches a register (R7, R455, R463, R548, R554, R559). A host core
reaches its own stack's registers only. -/
def State.permit (s : State) (who : Requester) (r : Reg) : Admit :=
  let sealed := match r.stack? with
    | some n => runtimeOwned r && s.sealedOnly n
    | none => false
  match who with
  | .bar0 =>
    match s.admitBar r with
    | .ok => if sealed || notFromBar0 r then .counted else .ok
    | a => a
  | .debug =>
    if !s.debugOpen then .counted else if debugReg r then .ok else s.admitBar r
  | .core n c =>
    if r.stack? = some n ∧ s.coreActive n c = true ∧ s.unitAnswers r.offset = true then .ok else .ignored
  | .fm =>
    if !inSwcOrPort r.offset || !s.unitAnswers r.offset then .counted
    else if sealed then .counted else .ok

/-- A write to register `r` with the effect `eff`. -/
def State.onWrite (s : State) (who : Requester) (r : Reg) (eff : State → State) : State :=
  match s.permit who r with
  | .ok => eff s
  | .ignored => s
  | .counted => s.countAt r

/-! ### The latch of a lower half (R14, 19_register_map.md R547) -/

def latchKey (who : Requester) (o : Nat) : Requester × Nat := (who, o - o % 8)

/-- The half that a requester has latched for a register (R547). -/
def State.latch? (s : State) (who : Requester) (o : Nat) : Option (BitVec 32) :=
  (s.latches.find? (fun p => decide (p.1 = latchKey who o))).map (·.2)

def State.dropLatch (s : State) (who : Requester) (o : Nat) : State :=
  { s with latches := s.latches.filter (fun p => !decide (p.1 = latchKey who o)) }

def State.setLatch (s : State) (who : Requester) (o : Nat) (v : BitVec 32) : State :=
  { s.dropLatch who o with latches := (latchKey who o, v) :: (s.dropLatch who o).latches }

/-- A 64-bit write to register `r` with the effect `eff`: it discards the lower half that its requester has
latched (R547). -/
def State.onWord (s : State) (who : Requester) (r : Reg) (eff : State → State) : State :=
  (s.dropLatch who r.offset).onWrite who r eff

/-- Every bit of the register is written. -/
def wholeWrite : Word := BitVec.allOnes 64

/-- The upper half alone is written (R14). -/
def upperWrite : Word := 0xFFFFFFFF00000000

/-- The word after a write of the bits `live`: RW bits take the value, W1C bits written 1 clear. -/
def mergeWrite (old v live : Word) (a : Access) : Word :=
  let rw := a.rw &&& live
  ((old &&& ~~~rw) ||| (v &&& rw)) &&& ~~~(v &&& a.w1c &&& live)

/-- A write with no effect beyond its own fields. -/
def State.plainWrite (s : State) (r : Reg) (v live : Word) : State :=
  s.setReg r (mergeWrite (s.reg r) v live r.access)

/-- A write of 1 to a one-bit field among the bits written. -/
def writesOne (v live : Word) (f : Field) : Bool := getF (v &&& live) f != 0

/-- A field is written: its lowest bit is among the bits written. -/
def writesField (live : Word) (f : Field) : Bool := live.getLsbD f.lo

/-- A register that a stack's block holds, written by a command of its own row. -/
def stackWrite (n : Nat) (who : Requester) (r : Reg) (s : State) (eff : State → State) : Res :=
  onStack n (.next (s.onWord who r eff))

end Sys2Proof.Machine
end

