-- ==== Sys2Proof/Machine/Control.lean ====
section
/-! DEFINITION. The watchdog, RESUME and KILL of bench contexts, the replies they receive, and the job
of a bench (04_benches.md R100, R127 to R132; 05_spatial_pipelines.md R143, R160). -/

namespace Sys2Proof.Machine

/-! ### The progress watchdog (R127 to R129) -/

/-- An interval field in milliseconds: 101 to 127 act as 100 (Tables 04-12, 06-6). -/
def intervalMs (v : Nat) : Nat := Nat.min 100 v

/-- The timer of a context has reached an interval (0 disables). -/
def Ctx.expired (x : Ctx) (now ms : Nat) : Bool :=
  timerRuns x.st && !x.dbgStop && decide (0 < ms) && decide (ms * ticksPerMs ≤ x.timer now)

def State.wdogMs (s : State) (n : Nat) : Nat :=
  intervalMs (s.fld (.BCH_WDOG_CFG n) BCH_WDOG_CFG_INTERVAL)

/-- Enter HUNG, remembering the state left, and post CTX_HUNG with the program counter. -/
def State.hang (s : State) (c : CtxId) : State :=
  (s.modCtx c (fun y => { y.enter s.now .hung with hungFrom := y.st })).event c.stack evCtxHung c.bench
    c.ctx (s.pcShown c)

/-- CTX_WATCHDOG_EXPIRE. -/
def execCtxWatchdogExpire (c : CtxId) (s : State) : Res :=
  onCtx c (whenOk ((s.ctx c).expired s.now (s.wdogMs c.stack)) s (s.hang c))

/-- A write of BCH_WDOG_CFG applies at once to every running timer. -/
def State.wrWdogCfg (n : Nat) (v live : Word) (s : State) : State :=
  let t := s.plainWrite (.BCH_WDOG_CFG n) v live
  ((t.stack n).contexts n).foldl (fun u c =>
    if (u.ctx c).expired u.now (u.wdogMs n) then u.hang c else u) t

/-- WDOG_INTERVAL_WRITE. -/
def execWdogIntervalWrite (who : Requester) (stack : Nat) (value : Word) (s : State) : Res :=
  stackWrite stack who (.BCH_WDOG_CFG stack) s (State.wrWdogCfg stack value wholeWrite)

/-- A HUNG context returns to the state it left, and its timer restarts; a stop that has met it takes effect. -/
def State.resumeCtx (s : State) (c : CtxId) : State :=
  if (s.ctx c).st = .hung then
    let t := s.modCtx c (fun x => { x.restart s.now with st := x.hungFrom })
    if (s.ctx c).stopDue = 0 then t.refresh c else t.stop c (s.ctx c).stopDue
  else s

/-! ### KILL (R130 to R132, R144) -/

/-- The context leaves its page faults (08_translation.md R261). -/
def Stack.leaveFaults (k : Stack) (b c : Nat) : Stack :=
  let leaves (w : Waiter) : Bool := match w with
    | .ctx b' c' _ => b' == b && c' == c
    | .desc _ _ _ => false
  { k with faults := k.faults.map (fun f => { f with waiters := f.waiters.filter (fun w => !leaves w) }) }

/-- Requests of a context that wait in open faults. -/
def Stack.faultReqs (k : Stack) (b c : Nat) : List Nat :=
  k.faults.flatMap (fun f => f.waiters.filterMap (fun w => match w with
    | .ctx b' c' r => if b' = b ∧ c' = c then some r else none
    | .desc _ _ _ => none))

/-- What is left of a killed context's requests: those that wait on page faults and those whose reply
has come go; the rest keep no destination, so that every later reply is discarded. -/
def Stack.killReqs (k : Stack) (b c : Nat) : Stack :=
  let gone := k.faultReqs b c
  { k.leaveFaults b c with
    reqs := k.reqs.filterMap (fun r =>
      if r.src = .ctx b c then
        if r.st = .done ∨ gone.contains r.id = true then none else some { r with dest := 0 }
      else some r) }

/-- The states in which KILL or a teardown has an effect. -/
def killable : CtxSt → Bool
  | .run | .waitRemote | .waitFault | .waitFlag | .waitBeat | .waitLink | .hung | .stopped => true
  | .idle | .halted | .killed => false

/-- The CAUSE that a kill leaves (Table 04-13). -/
def killCause (x : Ctx) (torn : Bool) : BitVec 4 :=
  if x.st = .stopped then x.cause else if x.st = .hung ∧ torn = false then 2 else 3

/-- The debug stop of a context is released (19_register_map.md R556). -/
def State.dbgGo (s : State) (c : CtxId) : State := s.modCtx c (fun x => { x with dbgStop := false })

/-- KILL, or a teardown, reaches a context. A HALT with nothing left to wait for takes effect before a KILL
(R131); before a teardown it does not, since an abandoned access completes no HALT (R298). A teardown that reaches a
context already in KILLED changes nothing: its CAUSE and the end of its LAUNCH stay those of the KILL (DESIGN CHOICE, log
entry 217). -/
def State.killCtx (s : State) (c : CtxId) (torn : Bool) : State :=
  if !torn && s.haltDone c && alive (s.ctx c).st then (s.enterHalted c).dbgGo c
  else if killable (s.ctx c).st then
    let t := s.modCtx c (fun x =>
      { x.enter s.now .killed with
        cause := killCause x torn
        waits := []
        torn := x.torn || torn
        stopDue := 0
        dbgStop := false })
    ((t.releaseLinks c).modStack c.stack (fun k => k.killReqs c.bench c.ctx)).settleLate c.stack
  else if (s.ctx c).st = .killed then s.dbgGo c
  else s

/-- A write of BCH_CTX_CTRL: KILL wins over RESUME (R137). -/
def State.wrCtxCtrl (c : CtxId) (v live : Word) (s : State) : State :=
  if writesOne v live BCH_CTX_CTRL_KILL then s.killCtx c false
  else if writesOne v live BCH_CTX_CTRL_RESUME then s.resumeCtx c
  else s

/-- RESUME: a write of 2 to BCH_CTX_CTRL. -/
def execResume (who : Requester) (c : CtxId) (s : State) : Res :=
  onCtx c (.next (s.onWord who (.BCH_CTX_CTRL c.stack c.bench c.ctx) (State.wrCtxCtrl c 2 wholeWrite)))

/-- KILL: a write of 1 to BCH_CTX_CTRL. -/
def execKill (who : Requester) (c : CtxId) (s : State) : Res :=
  onCtx c (.next (s.onWord who (.BCH_CTX_CTRL c.stack c.bench c.ctx) (State.wrCtxCtrl c 1 wholeWrite)))

/-- No request of a context remains at the abutment. -/
def Stack.dropCtxReqs (k : Stack) (b c : Nat) : Stack :=
  { k with reqs := k.reqs.filter (fun r => !decide (r.src = .ctx b c)) }

/-- KILLED_DRAINED (R130, R299). -/
def execKilledDrained (c : CtxId) (s : State) : Res :=
  onCtx c (whenOk (decide ((s.ctx c).st = .killed) && (s.stack c.stack).settled c.bench c.ctx) s
    ((s.modStack c.stack (fun k => k.dropCtxReqs c.bench c.ctx)).modCtx c (fun x => x.enter s.now .idle)))

/-! ### Replies (R100, R109) -/

/-- Replace bytes of a list from position `o`. -/
def putAt (l : List Byte) (o : Nat) (bs : List Byte) : List Byte :=
  l.take o ++ bs ++ l.drop (o + bs.length)

/-- The bytes that the pieces of an access return, in their places. -/
def replyBytes (ps : List Req) : List Byte :=
  ps.foldl (fun l r => putAt l r.destOff r.reply) (zeros granule)

/-- Write the result of a load or atomic to its register. A register that a later instruction has
written keeps that value (R93). -/
def Ctx.takeReply (x : Ctx) (dest : Nat) (bs : List Byte) : Ctx :=
  if dest = 0 then x
  else if dest < 32 then x.setSreg dest (leWord (bs.take 8))
  else x.setVreg (dest - 32) (lanesOf bs)

/-- FABRIC_REPLY_TO_CONTEXT: every piece of an access has been answered. A poisoned reply stops the
context and writes nothing. -/
def execFabricReplyToContext (stack req : Nat) (s : State) : Res :=
  onStack stack (match (s.stack stack).reqs.find? (fun r => r.id == req) with
    | none => .next s
    | some r =>
      match r.src with
      | .ctx b ci =>
        let c : CtxId := ⟨stack, b, ci⟩
        let ps := (s.stack stack).reqs.filter (fun q => decide (q.src = r.src) && q.acc == r.acc)
        if ps.all (fun q => decide (q.st = .done)) then
          let t := s.modStack stack (fun k =>
            { k with reqs := k.reqs.filter (fun q => !(decide (q.src = r.src) && q.acc == r.acc)) })
          if ps.any (·.poisoned) then .next ((t.stop c 5).refresh c)
          else .next ((t.modCtx c (fun x => x.takeReply r.dest (replyBytes ps))).refresh c)
        else .next s
      | .ring _ _ => .next s
      | .rebuild _ => .next s)

/-! ### The job of a bench (R143, R160, R162) -/

/-- Every context of a bench is in IDLE or HALTED. -/
def Bench.quietCtxs (x : Bench) : Bool :=
  x.ctxs.all (fun p => decide (p.2.st = .idle) || decide (p.2.st = .halted))

def State.reseatBusy (s : State) (n : Nat) : Bool := s.bit (.BCH_RESEAT n) BCH_RESEAT_BUSY

def closedUseField : Field := BCH_LINK_STATUS_CLOSED_USE

/-- Set the job of a bench: its receive buffers are emptied and its neighbours' credits restored. -/
def State.setJob (s : State) (n b job : Nat) : State :=
  ((s.setFld (.BCH_BENCH_CFG n b) BCH_BENCH_CFG_JOB job).setFld (.BCH_LINK_STATUS n b) closedUseField
    0).emptyLinks n b

/-- A write of BCH_BENCH_CFG. -/
def State.wrBenchCfg (n b : Nat) (v live : Word) (s : State) : State :=
  if s.reseatBusy n || !(s.bench n b).quietCtxs then s.countAt (.BCH_BENCH_CFG n b)
  else if s.vacant n b then s
  else if writesField live BCH_BENCH_CFG_JOB then s.setJob n b (getF v BCH_BENCH_CFG_JOB)
  else s

/-- JOB_WRITE. -/
def execJobWrite (who : Requester) (stack bench : Nat) (value : Word) (s : State) : Res :=
  onBench stack bench
    (.next (s.onWord who (.BCH_BENCH_CFG stack bench) (State.wrBenchCfg stack bench value wholeWrite)))

end Sys2Proof.Machine
end

