-- ==== Sys2Proof/Machine/Clocking.lean ====
section
/-! DEFINITION. The arithmetic clock steps of the stacks, and the re-seat of a row
(05_spatial_pipelines.md R150 to R163). -/

namespace Sys2Proof.Machine

/-- Table 05-2. A pass of R152 goes through the pairs in this order (DESIGN CHOICE, log entry 239: a hold of R153 lowers a
step without setting changed, so that the order can show in the result). -/
def adjacentPairs : List (Nat × Nat) :=
  [(0, 1), (1, 2), (2, 3), (4, 5), (5, 6), (6, 7), (0, 4), (1, 5), (2, 6), (3, 7)]

/-- The step that power and thermal control set (R151; 16_power.md R486). -/
def State.requestedStep (s : State) (n : Nat) : Nat :=
  Nat.min (s.fld (.PWR_STEP n) PWR_STEP_CAP_STEP) (s.fld (.PWR_STEP n) PWR_STEP_THERMAL_STEP)

/-- A stack's step under the pair rules, and which of them has lowered it. -/
structure Pace where
  k : Nat
  byClock : Bool
  byTemp : Bool
  deriving DecidableEq, Repr

/-- floor(1.15 k) -/
def pace115 (k : Nat) : Nat := 115 * k / 100

def Pace.lower (p : Pace) (bound : Nat) : Pace :=
  if bound < p.k then { p with k := bound, byClock := true } else p

def Pace.hold (p : Pace) (bound : Nat) : Pace :=
  if bound < p.k then { p with k := bound, byTemp := true } else p

def noPace : Pace := ⟨64, false, false⟩

/-- One pair of R152's loop, and whether its 115 % rule has lowered a step (`changed`). -/
def pairStep (held : List (Nat × Nat)) (u : Tab Pace × Bool) (p : Nat × Nat) : Tab Pace × Bool :=
  let a := Tab.get noPace u.1 p.1
  let b := Tab.get noPace u.1 p.2
  let a1 := a.lower (pace115 b.k)
  let b1 := b.lower (pace115 a1.k)
  let m := Nat.min a1.k b1.k
  let a2 := if held.contains p then a1.hold m else a1
  let b2 := if held.contains p then b1.hold m else b1
  (Tab.put (Tab.put u.1 p.1 a2) p.2 b2,
    u.2 || decide (pace115 b.k < a.k) || decide (pace115 a1.k < b.k))

/-- The passes that R152 can need: each but the last lowers a step, and eight steps stand at 64 at most. -/
def paceFuel : Nat := 512

/-- The loop of R152: it ends with a pass in which the 115 % rule has lowered no step. A step that a hold
has lowered alone starts no further pass. -/
def paceLoop (pairs held : List (Nat × Nat)) : Nat → Tab Pace → Tab Pace
  | 0, t => t
  | f + 1, t =>
    let u := pairs.foldl (pairStep held) (t, false)
    if u.2 then paceLoop pairs held f u.1 else u.1

/-- The pairs with both stacks present. -/
def State.livePairs (s : State) : List (Nat × Nat) :=
  adjacentPairs.filter (fun p => s.stackPresent p.1 && s.stackPresent p.2)

def gapOf (temps : List Nat) (p : Nat × Nat) : Nat :=
  let a := nth 0 temps p.1
  let b := nth 0 temps p.2
  (a - b) + (b - a)

/-- The temperature-held pairs after an evaluation (R153). -/
def holdPairs (temps : List Nat) (pairs held : List (Nat × Nat)) : List (Nat × Nat) :=
  pairs.filter (fun p =>
    if held.contains p then decide (18 < gapOf temps p) else decide (20 < gapOf temps p))

def stackNums : List Nat := List.range 8

def State.presentStacks (s : State) : List Nat := stackNums.filter (fun n => s.stackPresent n)

/-- The evaluation of R152 and R153 at a beat that is a multiple of 64 (R154): the requested steps and
the temperatures appear, and each applied step waits for APPLY_CLOCK_STEP. `temps` is the hottest
junction of each stack in degrees Celsius. -/
def State.evalClock (s : State) (temps : List Nat) : State :=
  let pairs := s.livePairs
  let held := holdPairs temps pairs s.power.tempHeld
  let start : Tab Pace := s.presentStacks.map (fun n => (n, ⟨s.requestedStep n, false, false⟩))
  let paces := paceLoop pairs held paceFuel start
  let t : State := { s with power := { s.power with tempHeld := held } }
  paces.foldl (fun u p =>
    let v := (u.setFld (.BCH_CLOCK p.1) BCH_CLOCK_REQUESTED (s.requestedStep p.1)).setFld
      (.BCH_CLOCK p.1) BCH_CLOCK_TJ (nth 0 temps p.1)
    v.modStack p.1 (fun k => { k with nextStep := some p.2.k, nextNeighbour := (p.2.byClock, p.2.byTemp) })) t

/-- The module runs: powered and past READY. -/
def State.runs (s : State) : Bool := s.boot.powered && s.ready

/-- The beat is a multiple of 64 (R154). A module without power counts no beats. -/
def State.at64 (s : State) : Bool := s.boot.powered && decide (s.beatNow.toNat % 64 = 0)

/-- CLOCK_EVALUATION. -/
def execClockEvaluation (temps : List Nat) (s : State) : Res := whenOk s.at64 s (s.evalClock temps)

def neighboursOf (n : Nat) : List Nat :=
  adjacentPairs.filterMap (fun p => if p.1 = n then some p.2 else if p.2 = n then some p.1 else none)

/-- Every present adjacent stack is unbound or bound to the stack's own tenant (R155). A stack that is being released is
no unbound one yet (DESIGN CHOICE, log entry 218). -/
def State.neighbourSeen (s : State) (n : Nat) : Bool :=
  ((neighboursOf n).filter (fun m => s.stackPresent m)).all (fun m =>
    s.stackState m == 0 || (s.stackState n != 0 && s.tenantOf m == s.tenantOf n))

def boolBit (b : Bool) (i : Nat) : Nat := if b then 2 ^ i else 0

/-- A stack's step stands below its requested step because of a stack of another tenant (R155). -/
def State.slowedAcross (s : State) (n : Nat) : Bool :=
  !s.neighbourSeen n
    && (s.bit (.BCH_CLOCK n) BCH_CLOCK_NEIGHBOUR_CLOCK || s.bit (.BCH_CLOCK n) BCH_CLOCK_NEIGHBOUR_TEMP)

/-- A stack's step is reduced under R480 or R486 (16_power.md R489). -/
def State.stepReduced (s : State) (n : Nat) : Bool := decide (s.requestedStep n < 64)

/-- What the throttle state counts holds now: a reduced step, a limit that the demand exceeds, or a slowing across a
tenant boundary (16_power.md R489; 17_security_and_tenancy.md R513). -/
def State.throttleHolds (s : State) : Bool :=
  s.presentStacks.any (fun n => s.stepReduced n || s.slowedAcross n)
    || decide (1000 * s.power.lastLimit < s.power.demand)

/-- Take it into the throttle bit of the present window. -/
def State.noteThrottle (s : State) : State :=
  { s with power := { s.power with throttled := s.power.throttled || s.throttleHolds } }

/-- APPLY_CLOCK_STEP (R154, R155): an evaluated step takes effect. -/
def execApplyClockStep (stack : Nat) (s : State) : Res :=
  onStack stack (match (s.stack stack).nextStep with
    | none => .next s
    | some k =>
      let nb := (s.stack stack).nextNeighbour
      let r : Reg := .BCH_CLOCK stack
      let was := (s.bit r BCH_CLOCK_NEIGHBOUR_CLOCK, s.bit r BCH_CLOCK_NEIGHBOUR_TEMP)
      let t := (((s.setFld r BCH_CLOCK_APPLIED k).setBit r BCH_CLOCK_NEIGHBOUR_CLOCK nb.1).setBit r
        BCH_CLOCK_NEIGHBOUR_TEMP nb.2).modStack stack (fun x => { x with nextStep := none })
      if !s.neighbourSeen stack then
        .next (if nb.1 || nb.2 then { t with power := { t.power with throttled := true } } else t)
      else if was = nb then .next t
      else .next (t.event stack evNeighbour noBench 0 (boolBit nb.1 0 + boolBit nb.2 1 + k * 2 ^ 8)))

/-! ### Re-seat (R158, R161 to R163) -/

def rowBenches (y : Nat) : List Nat := (List.range 21).map (fun x => 21 * y + x)

def State.bypass (s : State) (n y : Nat) : Nat := s.fld (.BCH_ROW_MAP n y) BCH_ROW_MAP_BYPASS

/-- The vacant logical columns of a row, ascending. -/
def State.vacantCols (s : State) (n y : Nat) : List Nat :=
  (List.range 21).filter (fun x => s.vacant n (21 * y + x))

/-- The row's spare is usable (R158). -/
def State.spareOk (s : State) (n y : Nat) : Bool :=
  s.bypass n y == 21 && !s.unitFailed kindBench n (22 * y + 21)

/-- The rows that a re-seat changes, with the lowest vacant column of each. -/
def State.reseatRows (s : State) (n : Nat) : List (Nat × Nat) :=
  (List.range 16).filterMap (fun y =>
    match s.vacantCols n y with
    | x :: _ => if s.spareOk n y then some (y, x) else none
    | [] => none)

/-- Every bench of the stack has JOB 0, and every context is in IDLE or HALTED. -/
def State.stackIdle (s : State) (n : Nat) : Bool :=
  (List.range 336).all (fun b => s.jobOf n b == 0) && (s.stack n).benches.all (fun p => p.2.quietCtxs)

/-- A write of BCH_RESEAT: DONE is cleared by writing 1, GO starts a re-seat or is ignored and counted. -/
def State.wrReseat (n : Nat) (v live : Word) (s : State) : State :=
  if writesOne v live BCH_RESEAT_GO then
    if s.reseatBusy n || !s.stackIdle n then s.countAt (.BCH_RESEAT n)
    else
      ((s.plainWrite (.BCH_RESEAT n) v live).setBit (.BCH_RESEAT n) BCH_RESEAT_BUSY true).modStack n
        (fun k => { k with reseat := s.reseatRows n })
  else s.plainWrite (.BCH_RESEAT n) v live

/-- RESEAT_GO: a write of 1 to BCH_RESEAT. -/
def execReseatGo (who : Requester) (stack : Nat) (s : State) : Res :=
  stackWrite stack who (.BCH_RESEAT stack) s (State.wrReseat stack 1 wholeWrite)

/-- The drawer and the program store of a logical bench are set to zero, and its link buffers emptied. -/
def State.clearBench (s : State) (n b : Nat) : State :=
  (s.modStack n (fun k =>
    { (k.setBench b { k.bench b with prog := [], bundles := 0 }) with
      drawer := Mem.clear k.drawer (drawerKey b 0) (drawerKey (b + 1) 0)
      drawerBad := k.drawerBad.filter (fun w => !covers (drawerKey b 0) (drawerKey (b + 1) 0) w)
      drawerSoft := k.drawerSoft.filter (fun w => !covers (drawerKey b 0) (drawerKey (b + 1) 0) w) })).emptyLinks n b

/-- A row takes its new bypass. Where the physical column that logical column x now names is itself listed, x stays
vacant (DESIGN CHOICE, log entry 219). -/
def State.moveRow (s : State) (n : Nat) (row : Nat × Nat) : State :=
  let t := s.setFld (.BCH_ROW_MAP n row.1) BCH_ROW_MAP_BYPASS row.2
  ((List.range 21).filter (fun x => decide (row.2 ≤ x))).foldl
    (fun u x => u.clearBench n (21 * row.1 + x)) t

/-- RESEAT_DONE (R162). -/
def execReseatDone (stack : Nat) (s : State) : Res :=
  let rows := (s.stack stack).reseat
  let mask := rows.foldl (fun m r => m + 2 ^ r.1) 0
  let r : Reg := .BCH_RESEAT stack
  onStack stack (whenOk (s.reseatBusy stack) s
    (((((rows.foldl (fun t row => t.moveRow stack row) s).setBit r BCH_RESEAT_BUSY false).setBit r
      BCH_RESEAT_DONE true).setFld r BCH_RESEAT_ROWS mask).modStack stack
        (fun k => { k with reseat := [] }) |>.event stack evReseatDone noBench 0 mask))

end Sys2Proof.Machine
end

