-- ==== Sys2Proof/Machine/Cores.lean ====
section
/-! DEFINITION. The host cores: loading the runtime, starting and restarting cores, their watchdogs, and
the set-up of the device-side rings (06_host_cores.md R165 to R191; 17_security_and_tenancy.md R501,
R508). -/

namespace Sys2Proof.Machine

def pageSize : Nat := 4096

/-- Bytes of runtime SRAM (R165). -/
def sramSize : Nat := 0x800000

/-- Extend a measurement: M := SHA-512(M ‖ record) (17_security_and_tenancy.md R508). -/
def extendBy (m rec_ : List Byte) : List Byte := Config.sha512 (m ++ rec_)

/-! ### The runtime image (R167, R168, R501) -/

/-- GO is taken: the stack is BOUND, no runtime runs, the size is 1 to 1,024 pages and the image lies in
the near tier. -/
def State.bootFits (s : State) (n : Nat) (w : Word) : Bool :=
  let pages := getF w HCORE_BOOT_SIZE
  s.bound n && !s.bit (.HCORE_BOOT n) HCORE_BOOT_RUNNING && decide (0 < pages) && decide (pages ≤ 1024)
    && decide (getF w HCORE_BOOT_ADDR * pageSize + pages * pageSize ≤ s.nearSize n)

/-- A write of HCORE_BOOT: with GO it starts the copy of the image, or is ignored and counted. -/
def State.wrBoot (n : Nat) (v live : Word) (s : State) : State :=
  let r : Reg := .HCORE_BOOT n
  let t := s.plainWrite r v live
  if writesOne v live HCORE_BOOT_GO then
    if s.bootFits n (t.reg r) then
      t.modStack n (fun k =>
        { k with booting := some (t.fld r HCORE_BOOT_ADDR * pageSize, t.fld r HCORE_BOOT_SIZE) })
    else s.countAt r
  else t

/-- RUNTIME_GO: a write of HCORE_BOOT; `value` carries GO. -/
def execRuntimeGo (who : Requester) (stack : Nat) (value : Word) (s : State) : Res :=
  stackWrite stack who (.HCORE_BOOT stack) s (State.wrBoot stack value wholeWrite)

/-- The core that takes core 0's place: the lowest not in the defect list (15_startup_and_defects.md
R461). -/
def State.firstCore (s : State) (n : Nat) : Option Nat :=
  (List.range 8).find? (fun c => !s.unitFailed kindCore n c)

/-- A start at runtime SRAM address 0 in supervisor mode, with a0 holding the stack number, a1 the SRAM size and
a2 a value (R167, R188). -/
def runtimeStart (n a2 : Nat) : CoreStart := ⟨n, sramSize, a2, 0, .supervisor⟩

/-- Start a core. -/
def State.startCore (s : State) (n c : Nat) (x : CoreStart) : State :=
  (s.setFld (.HCORE_CORE n c) HCORE_CORE_STATE coreRun).modStack n (fun k =>
    { k with kicked := Tab.put k.kicked c s.now, coreArgs := Tab.put k.coreArgs c x })

/-- The record of an image that has been copied whole (17_security_and_tenancy.md Table 17-5). -/
def bootRecord (image : List Byte) (pages : Nat) : List Byte :=
  Config.sha512 image ++ le2 pages ++ zeros 6

/-- RUNTIME_COPY_DONE (R167, R168): a POISON line abandons the copy. -/
def execRuntimeCopyDone (stack : Nat) (s : State) : Res :=
  onStack stack (match (s.stack stack).booting with
    | none => .next s
    | some (addr, pages) =>
      if !s.stackUp stack || s.tierBusy stack false addr (pages * pageSize) then .next s else
      let a := s.loadTier stack false addr (pages * pageSize)
      let t := a.state.modStack stack (fun k => { k with booting := none })
      if a.poisoned then .next t
      else
        let u := (t.modStack stack (fun k =>
          { k with
            sram := Tab.splice Mem.unlisted k.sram 0 a.bytes
            measCore := extendBy k.measCore (bootRecord a.bytes pages) })).setBit
          (.HCORE_BOOT stack) HCORE_BOOT_RUNNING true
        match s.firstCore stack with
        | some c => .next (u.startCore stack c (runtimeStart stack 0))
        | none => .next u)

/-! ### The state of the cores (R166, R189) -/

/-- No core of a running runtime is in RUN, WFI or WDOG_WARN (R189). -/
def State.noCoreLeft (s : State) (n : Nat) : Bool :=
  s.bit (.HCORE_BOOT n) HCORE_BOOT_RUNNING && !(List.range 8).any (fun c => s.coreActive n c)

/-- The host and the fabric manager learn that no core is left. -/
def State.tellNoCore (s : State) (n : Nat) : State :=
  if s.noCoreLeft n then (s.notify HOSTIF_NOTIFY_NO_CORE).notice 5 n [] else s

/-- A core can be started: it stands in RESET, its stack runs a runtime, and it is not in the defect list. -/
def State.hartStartable (s : State) (n c : Nat) : Bool :=
  s.stackUp n && s.bit (.HCORE_BOOT n) HCORE_BOOT_RUNNING && s.coreSt n c == coreReset && !s.unitFailed kindCore n c

/-- The core leaves RUN by a call of its own: it executes instructions. -/
def State.hartCalls (s : State) (n c : Nat) : Bool :=
  s.stackUp n && (s.coreSt n c == coreRun || s.coreSt n c == coreWarn)

/-- A core is in a mode (R166). -/
def Stack.setMode (k : Stack) (c : Nat) (m : CoreMode) : Stack :=
  { k with coreArgs := Tab.modify CoreStart.reset k.coreArgs c (fun x => { x with mode := m }) }

/-- The state of a hart that the extension reports: 0 started, 1 stopped, 4 suspended. -/
def State.hartState (s : State) (n c : Nat) : Nat :=
  if !s.coreActive n c then 1 else if s.coreSt n c == coreWfi then 4 else 0

/-- HART_START (R166, R167): the runtime starts a core that stands in RESET, in supervisor mode at the address it
names, with a0 holding the core's number and a1 the value it gives. The other calls of the extension stop a core, which
goes back to the firmware, suspend it until it is resumed, and tell its state; and the runtime moves between its two modes
(PRESUMED, log entry 180: the RISC-V Supervisor Binary Interface). -/
def execHartStart (stack core : Nat) (args : HartArgs) (s : State) : Res :=
  let at_ (st : Nat) : State := s.setFld (.HCORE_CORE stack core) HCORE_CORE_STATE st
  onStack stack
    (if core < 8 then
      match args with
      | .start addr a1 =>
        whenOk (s.hartStartable stack core) s
          (s.startCore stack core ⟨core, a1.toNat, 0, addr.toNat, .supervisor⟩)
      | .stop =>
        whenOk (s.hartCalls stack core) s
          (((at_ coreReset).modStack stack (fun k => k.setMode core .machine)).tellNoCore stack)
      | .suspend => whenOk (s.hartCalls stack core) s (at_ coreWfi)
      | .resume => whenOk (s.stackUp stack && s.coreSt stack core == coreWfi) s (at_ coreRun)
      | .status =>
        whenOk (s.stackUp stack && s.bit (.HCORE_BOOT stack) HCORE_BOOT_RUNNING) s
          (s.emit (.coreData (BitVec.ofNat 64 (s.hartState stack core))))
      | .mode user =>
        whenOk (s.hartCalls stack core) s
          (s.modStack stack (fun k => k.setMode core (if user then .user else .supervisor)))
     else noUnit)

/-! ### Core watchdogs (R186 to R189) -/

def State.coreWdogMs (s : State) (n : Nat) : Nat :=
  intervalMs (s.fld (.HCORE_CFG n) HCORE_CFG_WDOG_INTERVAL)

/-- The timer of a core has reached a number of its intervals. -/
def State.coreTimer (s : State) (n c stages : Nat) : Bool :=
  decide (0 < s.coreWdogMs n) &&
    decide (Tab.get 0 (s.stack n).kicked c + stages * s.coreWdogMs n * ticksPerMs ≤ s.now)

/-- A core stops and enters HUNG; the host and the fabric manager are notified (R187). -/
def State.hangCore (s : State) (n c : Nat) : State :=
  (((s.setFld (.HCORE_CORE n c) HCORE_CORE_STATE coreHung).notify HOSTIF_NOTIFY_CORE_HUNG).notice 4 n
    (le1 c)).tellNoCore n

/-- CORE_WDOG_WARN. -/
def execCoreWdogWarn (stack core : Nat) (s : State) : Res :=
  onStack stack
    (if core < 8 then
      whenOk (s.stackUp stack && (s.coreSt stack core == coreRun || s.coreSt stack core == coreWfi)
          && s.coreTimer stack core 1) s
        ((s.setFld (.HCORE_CORE stack core) HCORE_CORE_STATE coreWarn).event stack evCoreWdog noBench 0 core)
     else noUnit)

/-- CORE_WDOG_HUNG. -/
def execCoreWdogHung (stack core : Nat) (s : State) : Res :=
  onStack stack
    (if core < 8 then
      whenOk (s.stackUp stack && s.coreSt stack core == coreWarn && s.coreTimer stack core 2) s (s.hangCore stack core)
     else noUnit)

/-- RESTART (R188): a core in RESET, and a core in the defect list (15_startup_and_defects.md Table
15-6), are left alone. -/
def State.restartCore (s : State) (n c : Nat) : State :=
  if s.coreSt n c = coreReset ∨ s.unitFailed kindCore n c = true then s
  else (s.startCore n c (runtimeStart n 1)).satFld (.HCORE_CORE n c) HCORE_CORE_RESETS 1

/-- KICK (R186): the timer restarts, and a warned core returns to RUN. -/
def State.kickCore (s : State) (n c : Nat) : State :=
  let t := s.modStack n (fun k => { k with kicked := Tab.put k.kicked c s.now })
  if s.coreSt n c = coreWarn then t.setFld (.HCORE_CORE n c) HCORE_CORE_STATE coreRun else t

/-- A write of HCORE_CORE. -/
def State.wrCore (n c : Nat) (v live : Word) (s : State) : State :=
  let t := if writesOne v live HCORE_CORE_RESTART then s.restartCore n c else s
  if writesOne v live HCORE_CORE_KICK then t.kickCore n c else t

def kickBit : Word := 0x4000000000000000
def restartBit : Word := 0x8000000000000000

/-- KICK: a write of HCORE_CORE with KICK set. -/
def execKick (who : Requester) (stack core : Nat) (s : State) : Res :=
  if core < 8 then stackWrite stack who (.HCORE_CORE stack core) s (State.wrCore stack core kickBit wholeWrite)
  else noUnit

/-- RESTART: a write of HCORE_CORE with RESTART set. -/
def execRestart (who : Requester) (stack core : Nat) (s : State) : Res :=
  if core < 8 then
    stackWrite stack who (.HCORE_CORE stack core) s (State.wrCore stack core restartBit wholeWrite)
  else noUnit

/-! ### Device-side rings (R181, R184, R191) -/

/-- A power of two from 16 to 4,096. -/
def dringSizeOk (v : Nat) : Bool := [16, 32, 64, 128, 256, 512, 1024, 2048, 4096].contains v

/-- The entries of an enabled device-side ring; 0 while it is disabled. -/
def State.dringSize (s : State) (n r : Nat) : Nat :=
  let v := s.fld (.HCORE_DRING_CFG n r) HCORE_DRING_CFG_SIZE
  if dringSizeOk v then v else 0

/-- A write of HCORE_DRING_CFG. A size that R184 does not allow leaves the ring disabled, and the write
is counted; every non-zero size sets the indices to 0 (R191). -/
def State.wrDringCfg (n r : Nat) (v live : Word) (s : State) : State :=
  let q : Reg := .HCORE_DRING_CFG n r
  let size := getF v HCORE_DRING_CFG_SIZE
  let t := s.plainWrite q v live
  if writesField live HCORE_DRING_CFG_SIZE ∧ size ≠ 0 then
    let u := t.setReg (.HCORE_DRING_IDX n r) 0
    if dringSizeOk size then u else u.countAt q
  else t

/-- DRING_CFG_WRITE. -/
def execDringCfgWrite (who : Requester) (stack ring : Nat) (value : Word) (s : State) : Res :=
  if ring < 8 then
    stackWrite stack who (.HCORE_DRING_CFG stack ring) s (State.wrDringCfg stack ring value wholeWrite)
  else noUnit

/-- A write of HCORE_DRING_IDX: TAIL posts descriptors. -/
def State.wrDringIdx (n r : Nat) (v live : Word) (s : State) : State :=
  s.plainWrite (.HCORE_DRING_IDX n r) v live

/-- DRING_DOORBELL. -/
def execDringDoorbell (who : Requester) (stack ring : Nat) (value : Word) (s : State) : Res :=
  if ring < 8 then
    stackWrite stack who (.HCORE_DRING_IDX stack ring) s (State.wrDringIdx stack ring value wholeWrite)
  else noUnit

end Sys2Proof.Machine
end

