-- ==== Sys2Proof/Machine/Descriptors.lean ====
section
/-! DEFINITION. Descriptors: their fields and checks (07_rings_and_doorbells.md R207, R213 to R219,
R228), the translation of their operands into segments (08_translation.md R246 to R249), and the
accesses they make (R209, R588; 09_fabric_memory.md R210). -/

namespace Sys2Proof.Machine

/-! ### Access -/

def State.desc? (s : State) (h : Nat) : Option Desc := s.host.descs.find? (fun d => d.handle == h)

def State.setDescs (s : State) (l : List Desc) : State := { s with host := { s.host with descs := l } }

def State.modDesc (s : State) (h : Nat) (f : Desc → Desc) : State :=
  s.setDescs (s.host.descs.map (fun d => if d.handle = h then f d else d))

def Desc.word (d : Desc) (i : Nat) : Word := nth 0 d.words i

/-- Bits [hi:lo] of word `i`. -/
def Desc.bits (d : Desc) (i hi lo : Nat) : Nat := bitsOf (d.word i).toNat hi lo

def Desc.flag (d : Desc) (i k : Nat) : Bool := (d.word i).getLsbD k

def Desc.opcode (d : Desc) : Nat := d.bits 0 63 56
def Desc.ver (d : Desc) : Nat := d.bits 0 55 52
def Desc.irq (d : Desc) : Bool := d.flag 0 49

def dCopy : Nat := 0x01
def dFill : Nat := 0x02
def dLaunch : Nat := 0x03
def dCollective : Nat := 0x04
def dFence : Nat := 0x05
def dKeystone : Nat := 0x06
def dWaitBeat : Nat := 0x07
def dAtBeat : Nat := 0x08
def dSpanOpen : Nat := 0x09
def dSpanClose : Nat := 0x0A
def dSnapshot : Nat := 0x0B
def dAttest : Nat := 0x0C
def dInvalidate : Nat := 0x0D
def dNop : Nat := 0x0E

/-- The flags, with the implied ones of Table 07-11. -/
def Desc.wait (d : Desc) : Bool := d.flag 0 51 || d.opcode == dFence
def Desc.hold (d : Desc) : Bool := d.flag 0 50 || d.opcode == dFence || d.opcode == dWaitBeat

/-- The status codes of Table 07-14. -/
def stOk : Nat := 0x00
def stAbsent : Nat := 0x01
def stFault : Nat := 0x02
def stDead : Nat := 0x03
def stTorn : Nat := 0x04
def stCrc : Nat := 0x05
def stMissing : Nat := 0x06
def stVersion : Nat := 0x07
def stBad : Nat := 0x08
def stTimeout : Nat := 0x09
def stFenced : Nat := 0x0A

/-- The number of a device-side ring in the counters and records, and the tenant's ring of the host. -/
def RingId.isHost : RingId → Bool
  | .host _ => true
  | .dev _ _ => false

/-- A host ring is enabled: VER is not 0 (Table 07-1). -/
def State.ringOn (s : State) (r : Nat) : Bool :=
  s.fld (.HOSTIF_RING_CFG r) HOSTIF_RING_CFG_VER != 0

def State.ring (s : State) (r : Nat) : Ring := Tab.get Ring.reset s.host.rings r

def State.modRing (s : State) (r : Nat) (f : Ring → Ring) : State :=
  { s with host := { s.host with rings := Tab.put s.host.rings r (f (s.ring r)) } }

/-- The stacks that a ring's descriptors may name (R501, R502, Table 07-1): bits of stacks that are
absent or not BOUND read 0, and so do on a plain ring those of a tenant with SEALED_ONLY, and on a sealed ring those of
another tenant than its own (R15, log entry 246). -/
def State.ringStack (s : State) (q : RingId) (n : Nat) : Bool :=
  match q with
  | .host r =>
    let c : Reg := .HOSTIF_RING_CFG r
    bitOf (s.fld c HOSTIF_RING_CFG_STACKS) n && s.stackUp n && s.bound n
      && (if s.bit c HOSTIF_RING_CFG_SEALED then s.tenantOf n == s.fld c HOSTIF_RING_CFG_TENANT else !s.sealedOnly n)
  | .dev m _ => m == n

/-- The stack is one of the ring's own tenant, whether or not the ring's STACKS names it: the ring's TENANT for a sealed
ring, and for another the tenant of a stack that it names (R15, log entry 246). -/
def State.ringOwns (s : State) (q : RingId) (n : Nat) : Bool :=
  s.stackUp n && s.bound n && match q with
    | .host r =>
      let c : Reg := .HOSTIF_RING_CFG r
      if s.bit c HOSTIF_RING_CFG_SEALED then s.tenantOf n == s.fld c HOSTIF_RING_CFG_TENANT
      else stackNums.any (fun m => s.ringStack q m && s.tenantOf m == s.tenantOf n)
    | .dev m _ => s.bound m && s.tenantOf m == s.tenantOf n

def State.ringSealed (s : State) : RingId → Bool
  | .host r => s.bit (.HOSTIF_RING_CFG r) HOSTIF_RING_CFG_SEALED
  | .dev _ _ => false

def State.ringVer (s : State) : RingId → Nat
  | .host r => s.fld (.HOSTIF_RING_CFG r) HOSTIF_RING_CFG_VER
  | .dev _ _ => 4

def State.ringCtx (s : State) : RingId → Nat
  | .host r => s.fld (.HOSTIF_RING_CFG r) HOSTIF_RING_CFG_CTX
  | .dev n r => s.fld (.HCORE_DRING_CFG n r) HCORE_DRING_CFG_CTX

/-! ### Fields and checks -/

/-- The bits that a word of a descriptor may set (Tables 07-9, 07-12). -/
def maskOf (l : List (Nat × Nat)) : Word := l.foldl (fun m p => m ||| (⟨p.1, p.2⟩ : Field).mask) 0

def usedBits (op i : Nat) : Word :=
  let all := BitVec.allOnes 64
  match op, i with
  | 0x01, 3 => maskOf [(63, 61), (39, 0)]
  | 0x01, _ => all
  | 0x02, 1 | 0x02, 2 => all
  | 0x02, 3 => maskOf [(62, 62), (39, 0)]
  | 0x03, 1 | 0x03, 3 => all
  | 0x03, 2 => maskOf [(63, 48), (40, 32), (24, 16)]
  | 0x04, 3 => maskOf [(63, 63), (39, 0)]
  | 0x04, 4 => maskOf [(63, 6)]
  | 0x04, _ => all
  | 0x05, 1 => maskOf [(63, 48)]
  | 0x06, 1 | 0x06, 2 => all
  | 0x07, 1 => maskOf [(47, 0)]
  | 0x08, 1 => maskOf [(63, 63), (47, 0)]
  | 0x08, 2 | 0x08, 3 => all
  | 0x09, 1 => all
  | 0x09, 2 => maskOf [(63, 48), (39, 0)]
  | 0x09, 3 => maskOf [(54, 0)]
  | 0x09, 4 => maskOf [(40, 32), (24, 16)]
  | 0x09, 5 => maskOf [(18, 0)]
  | 0x0A, 1 => all
  | 0x0B, 1 => maskOf [(47, 0)]
  | 0x0B, 4 => maskOf [(63, 63), (39, 0)]
  | 0x0B, _ => all
  | 0x0C, _ => all
  | 0x0D, 1 => all
  | 0x0D, 2 => maskOf [(62, 62), (39, 0)]
  | _, _ => 0

/-- Every bit that the tables do not assign is 0 (R207). -/
def Desc.fieldsOk (d : Desc) : Bool :=
  d.bits 0 48 47 == 0 && d.bits 0 43 32 == 0 &&
    [1, 2, 3, 4, 5].all (fun i => d.word i &&& ~~~usedBits d.opcode i == 0)

/-- The version in which an opcode first appears; none for a reserved one (Table 07-11). -/
def firstVersion (op : Nat) : Option Nat :=
  if op = dCopy ∨ op = dFill ∨ op = dLaunch ∨ op = dCollective ∨ op = dFence ∨ op = dInvalidate
      ∨ op = dNop then some 2
  else if 0x06 ≤ op ∧ op ≤ 0x0B then some 3
  else if op = dAttest then some 4
  else none

-- fields of COLLECTIVE
def Desc.count (d : Desc) : Nat := d.bits 3 39 0
def Desc.group (d : Desc) : BitVec 16 := BitVec.ofNat 16 (d.bits 4 63 48)
def Desc.members (d : Desc) : Nat := d.bits 4 47 32
def Desc.rank (d : Desc) : Nat := d.bits 4 31 16
def Desc.cop (d : Desc) : Nat := d.bits 4 15 12
def Desc.redop (d : Desc) : Nat := d.bits 4 11 10
def Desc.cfmt (d : Desc) : Nat := d.bits 4 9 6
def Desc.root (d : Desc) : Nat := d.bits 5 63 48
def Desc.startBeat (d : Desc) : BitVec 48 := BitVec.ofNat 48 (d.bits 5 47 0)

/-- Bytes of an element of a collective (12_collectives.md R380, R392). -/
def Desc.elemBytes (d : Desc) : Nat := Nat.max 1 (fmtWidth d.cfmt / 8)

/-- The op reduces (Table 12-1). -/
def reduces (op : Nat) : Bool := decide (op ≤ 2)

/-- The extents of src and dst in elements (Table 12-1). -/
def Desc.collExtents (d : Desc) : Nat × Nat :=
  let n := d.count
  let all := d.members * n
  match d.cop with
  | 0 => (n, n)
  | 1 => (n, if d.rank = d.root then n else 0)
  | 2 => (all, n)
  | 3 => (n, all)
  | 4 => (if d.rank = d.root then n else 0, n)
  | 5 => (all, all)
  | _ => (0, 0)

/-- R382. -/
def Desc.collBad (d : Desc) : Bool :=
  (d.cop == 6 && d.count != 0)
    || ((d.cop == 2 || d.cop == 3 || d.cop == 5) && decide (2 ^ 40 - 1 < d.members * d.count))
    || (reduces d.cop && isScaledFmt d.cfmt)

/-- The checks of Table 07-11 that the descriptor's own words decide, with reason 7. -/
def Desc.staticBad (d : Desc) : Bool :=
  let benches (i : Nat) : Bool :=
    decide (d.bits i 24 16 < d.bits i 40 32) || decide (335 < d.bits i 24 16)
  match d.opcode with
  | 0x01 => d.bits 4 2 0 != 0
  | 0x03 => d.bits 1 4 0 != 0 || d.bits 2 63 48 == 0 || benches 2
  | 0x04 =>
    d.members == 0 || decide (32768 < d.members) || decide (d.members ≤ d.rank)
      || decide (d.members ≤ d.root) || decide (6 < d.cop) || d.redop == 3
      || (fmtOf d.cfmt).isNone || d.collBad
  | 0x06 => d.bits 1 2 0 != 0
  | 0x08 => d.bits 2 2 0 != 0
  | 0x09 =>
    d.bits 3 54 48 == 0 || decide (64 < d.bits 3 54 48) || d.bits 5 18 0 == 0 || d.bits 2 39 0 == 0
      || benches 4
  | 0x0B => decide (16 * 0x100000 < d.bits 4 39 0) || d.bits 5 2 0 != 0
  | 0x0C => d.bits 5 5 0 != 0
  | 0x0D => d.bits 1 11 0 != 0 || d.bits 2 11 0 != 0
  | _ => false

/-- ATTEST is taken from sealed host rings only (R183, R216). -/
def State.opcodeBarred (s : State) (d : Desc) : Bool :=
  d.opcode == dAttest && !s.ringSealed d.ring

/-- The lowest reason of BAD_DESC at fetch; 0 none (Table 07-15). -/
def State.badReason (s : State) (d : Desc) : Nat :=
  if !s.ringSealed d.ring && (d.word 6 != 0 || d.word 7 != 0) then 2
  else if (firstVersion d.opcode).isNone then 3
  else if !d.fieldsOk then 4
  else if !s.ringStack d.ring d.stack then 5
  else if s.opcodeBarred d then 6
  else if d.staticBad then 7
  else 0

/-- The beat that a descriptor names (R223). -/
def Desc.beat? (d : Desc) : Option (BitVec 48) :=
  let at_ (i : Nat) : Option (BitVec 48) := some (BitVec.ofNat 48 (d.bits i 47 0))
  match d.opcode with
  | 0x04 => if d.flag 3 63 then some d.startBeat else none
  | 0x07 | 0x08 | 0x0A | 0x0B => at_ 1
  | 0x09 => at_ 3
  | _ => none

/-- The detail of the TIMEOUT that rejects a beat-naming descriptor (R34, R38, R44, R228); 0 none. -/
def State.beatReject (s : State) (d : Desc) : Nat :=
  match d.beat? with
  | none => 0
  | some b =>
    if s.mismatch then 3
    else if s.lostOver then 2
    else if s.beatsUntil b < 16 ∨ 2 ^ 47 ≤ s.beatsUntil b then 1
    else 0

/-- The 64 bytes of a descriptor as its words. -/
def wordsOf (bs : List Byte) : List Word := (elements 8 bs).map (BitVec.ofNat 64)

/-- The seal of R214 verifies. -/
def State.sealOk (s : State) (r : Nat) (seq : Word) (bs : List Byte) : Bool :=
  let t := s.fld (.HOSTIF_RING_CFG r) HOSTIF_RING_CFG_TENANT
  let key := (Tab.get ⟨[], [], false⟩ s.keeper.tenants t).ringKey
  Config.gcmTag key (beBytes 2 r ++ [0, 0] ++ beBytes 8 seq.toNat) (bs.take 48) == bs.drop 48

/-- The descriptor needs a unit that the module lacks (R8): its stack, or integer formats of a
COLLECTIVE (12_collectives.md R382). -/
def State.needsAbsent (s : State) (d : Desc) : Bool :=
  !s.stackPresent d.stack || (d.opcode == dCollective && !s.intPresent && isIntFmt d.cfmt)

/-- The module lacks a unit that the program of a LAUNCH may need (03_number_formats.md R78, R590). -/
def State.mayLack (s : State) : Bool := !s.intPresent || !s.strictPresent

/-- The descriptor is a LAUNCH whose image still has to be read to tell whether it needs an absent unit, which its
status gives before any other (R10, R228). One that names a stack of no tenant or another's reaches
nothing there (R15). -/
def State.imageTells (s : State) (d : Desc) : Bool :=
  d.opcode == dLaunch && s.mayLack && s.ringOwns d.ring d.stack && d.status != BitVec.ofNat 8 stAbsent

/-- The span_id checks of SPAN_OPEN and SPAN_CLOSE (Table 07-11). -/
def State.spanIdBad (s : State) (d : Desc) : Bool :=
  let held (id : Nat) : Bool := (s.stack d.stack).spansOut.any (fun x => x.id.toNat == id)
  (d.opcode == dSpanOpen && held (d.bits 2 63 48)) || (d.opcode == dSpanClose && !held (d.bits 1 63 48))

/-- The status and detail of a descriptor at fetch (R228). A span_id is checked again when the descriptor starts,
after the descriptors before it; here it counts only where the beat is rejected too. -/
def State.fetchStatus (s : State) (d : Desc) (sealed : Bool) : Nat × Nat :=
  if s.needsAbsent d then (stAbsent, 0)
  else if !sealed then (stBad, 1)
  else if d.ver < 2 ∨ s.ringVer d.ring < d.ver ∨ d.ver < (firstVersion d.opcode).getD 0 then
    (stVersion, d.ver)
  else if s.badReason d ≠ 0 then (stBad, s.badReason d)
  else if s.beatReject d ≠ 0 then (if s.spanIdBad d then (stBad, 10) else (stTimeout, s.beatReject d))
  else (stOk, 0)

/-! ### Operands and segments (08_translation.md R246 to R248) -/

/-- Bytes of the program image as far as it is known: its header, and once that has been read its bundles
(04_benches.md Table 04-11). Where the module has every unit, the bundles of a bundle_count that R134 does not accept are
left unread: they could tell nothing. -/
def State.imageLen (s : State) (d : Desc) : Nat :=
  let count := leNat (d.data.take 2)
  64 + 32 * (if count ≤ 2048 ∨ s.mayLack = true then count else 0)

/-- The virtual operands: word, address, bytes; an operand of no bytes is not translated. -/
def State.operands (s : State) (d : Desc) : List (Nat × Nat × Nat) :=
  let op (on : Bool) (word src len : Nat) : List (Nat × Nat × Nat) :=
    if on && len != 0 then [(word, (d.word src).toNat, len)] else []
  match d.opcode with
  | 0x01 => op (!d.flag 3 63) 1 1 (d.bits 3 39 0) ++ op (!d.flag 3 62) 2 2 (d.bits 3 39 0)
      ++ op (d.flag 3 61) 4 4 8
  | 0x02 => op (!d.flag 3 62) 1 1 (d.bits 3 39 0)
  | 0x03 => op true 1 1 (s.imageLen d)
  | 0x04 => op true 1 1 (d.collExtents.1 * d.elemBytes) ++ op true 2 2 (d.collExtents.2 * d.elemBytes)
  | 0x06 => op true 1 1 8
  | 0x08 => op true 2 2 8
  | 0x0B => op true 2 2 (d.bits 4 39 0) ++ op true 3 3 (d.bits 4 39 0) ++ op (d.flag 4 63) 5 5 8
  | _ => []

/-- Append a translated range: it lengthens the last segment where the fabric addresses follow on. -/
def addSeg : List Seg → Seg → List Seg
  | [], x => [x]
  | [y], x =>
    if y.word = x.word ∧ y.node = x.node ∧ y.rights = x.rights ∧ y.offset + y.len = x.offset
        ∧ y.va + y.len = x.va then
      [{ y with len := y.len + x.len, page := Nat.min y.page x.page }]
    else [y, x]
  | y :: t, x => y :: addSeg t x

/-- How the translation of a descriptor ends. -/
inductive Prep where
  | segs (l : List Seg)
  /-- it waits on an open fault, or on a walk in progress, behind the segments `l` -/
  | faulted (l : List Seg)
  /-- an operand has too many segments, the first of which are `l` -/
  | many (word : Nat) (l : List Seg)
  | noWalker
  deriving DecidableEq, Repr

def maxSegs : Nat := 4096

/-- The access of an operand, as a fault's access code (Table 08-8). -/
def operandWrites (op word : Nat) : Bool :=
  match op with
  | 0x01 => word != 1
  | 0x03 => false
  | 0x04 => word == 2
  | 0x0B => word != 2
  | _ => true

def operandAccess (op word : Nat) : Nat := if operandWrites op word then 1 else 0

/-- Another miss came before that of a descriptor (R244). -/
def Stack.behind (k : Stack) : Waiter → Bool
  | .desc _ h _ => !(k.misses.takeWhile (Waiter.notDesc h)).isEmpty
  | .ctx _ _ _ => !k.misses.isEmpty

/-- Translate `left` bytes of an operand. A miss joins the open fault or the walk in progress of its page (R244,
R245), and waits behind the misses that came before it. The walks that it starts are made within the step that
translates, but for one that reads a bank under repair (DEDUCED, log entry 34: R246 gives the result, and R243 how many walkers there are).
What lies outside the 57-bit space is one segment without rights, which counts as any other (DESIGN CHOICE, log entry
245). -/
def State.transRange : Nat → State → Nat → Nat → Waiter → Nat → Nat → Nat → Nat → List Seg → State × Prep
  | 0, s, _, _, _, _, _, _, _, acc => (s, .segs acc)
  | fuel + 1, s, n, ctx, w, code, word, va, left, acc =>
    if left = 0 then (s, .segs acc)
    else if maxSegs < acc.length then (s, .many word acc)
    else
      let take (t : State) (e : TlbEntry) : State × Prep :=
        let len := Nat.min left (e.va + e.size - va)
        let x : Seg := ⟨word, va, len, e.node, e.offset va, e.rights, e.page⟩
        t.transRange fuel n ctx w code word (va + len) (left - len) (addSeg acc x)
      match (s.stack n).lookup ctx va with
      | .outside => (s, .segs (addSeg acc ⟨word, va, left, 0xFFFF, va, 0, 4096⟩))
      | .hit e => take s e
      | .miss =>
        if ((s.stack n).faultOf ctx (pageOf va)).isSome then
          (s.modStack n (fun k => k.joinFault ctx (pageOf va) w), .faulted acc)
        else if (s.stack n).walks.any (fun f => f.ctx == ctx && f.page == pageOf va) then
          (s.modStack n (fun k => k.joinWalk ctx (pageOf va) w), .faulted acc)
        else if (s.stack n).behind w || decide (s.walkers n ≤ (s.stack n).walkersBusy) then (s, .noWalker)
        else if s.walkBusy n ctx va then
          (s.modStack n (fun k =>
            { k with walks := k.walks ++ [{ ctx := ctx, page := pageOf va, access := BitVec.ofNat 2 code, waiters := [w] }] }),
            .faulted acc)
        else
          let r := s.walk n ctx va
          match r.2 with
          | .leaf e => take r.1 e
          | .fault c l entry => (r.1.openFault n ctx (pageOf va) c l code entry [w], .faulted acc)

/-- Translate every operand in ascending order of word. -/
def State.transAll : List (Nat × Nat × Nat) → State → Desc → List Seg → State × Prep
  | [], s, _, acc => (s, .segs acc)
  | (word, va, len) :: t, s, d, acc =>
    let r := s.transRange (len / 4096 + 2) d.stack d.xctx (.desc d.ring d.handle word)
      (operandAccess d.opcode word) word va len acc
    match r.2 with
    | .segs l => if maxSegs < l.length then (r.1, .many word l) else transAll t r.1 d l
    | p => (r.1, p)

/-- Segments that the descriptors of a stack hold (Table 08-13, SEG_FREE). -/
def State.segsHeld (s : State) (n : Nat) : Nat :=
  sumNat (s.host.descs.map (fun d => if d.stack = n then d.segs.length else 0))

def segStore : Nat := 65536

/-- A collective's segments name the executing stack's own node (12_collectives.md R381). The segment that
stands for the part of an operand outside the space (log entry 245) names no node: its accesses are violations
(08_translation.md R232). -/
def State.collSegsBad (s : State) (d : Desc) (l : List Seg) : Bool :=
  d.opcode == dCollective && l.any (fun x => x.node != s.node d.stack && vaInside x.va)

/-- A failure found at fetch, which ends the descriptor at its turn; an earlier one stays. -/
def Desc.failAt (d : Desc) (status detail : Nat) : Desc :=
  if d.status = 0 then { d with status := BitVec.ofNat 8 status, detail := BitVec.ofNat 32 detail } else d

/-- How a descriptor waits for a walker. -/
def Desc.waiter (d : Desc) : Waiter := .desc d.ring d.handle 0

/-- Give a descriptor its segments, or let it wait: for its fault, for room, or for a walker. What has been translated
stays in the look-aside buffer. -/
def State.prepare (s : State) (d : Desc) : State × Desc :=
  let d0 : Desc := { d with segs := [], before := [] }
  let t := s.modDesc d.handle (fun _ => d0)
  let r := State.transAll (t.operands d0) t d0 []
  let u := r.1.modStack d.stack (fun k => k.leaveMisses d.handle)
  match r.2 with
  | .segs l =>
    if u.collSegsBad d l then (u, { d0 with st := .fetched }.failAt stBad 7)
    else if segStore < u.segsHeld d.stack + l.length then (u, { d0 with st := .waitSegs })
    else (u, { d0 with st := .fetched, segs := l })
  | .faulted l => (u, { d0 with st := .waitFault, before := if u.imageTells d then l else [] })
  | .many word l =>
    (u, { d0 with st := .fetched, segs := if u.imageTells d then l else [] }.failAt stFault word)
  | .noWalker =>
    (r.1.modStack d.stack (fun k => k.awaitWalker d.handle d.waiter), { d0 with st := .waitSegs })

/-! ### The accesses of a descriptor -/

def Desc.src (d : Desc) : Src := .ring d.ring d.handle

def State.descReqs (s : State) (d : Desc) : List Req :=
  (s.stack d.stack).reqs.filter (fun r => decide (r.src = d.src))

def Desc.segsOf (d : Desc) (word : Nat) : List Seg := d.segs.filter (fun x => x.word == word)

/-- A translated request of a descriptor. -/
def Desc.req (d : Desc) (id : Nat) (op param : BitVec 8) (x : Seg) (off len : Nat) (payload : List Byte)
    (destOff : Nat) : Req :=
  { id := id, src := d.src, acc := x.word, op := op, param := param, xctx := d.xctx, va := x.va + off,
    len := len, payload := payload, st := .held, node := x.node, offset := x.offset + off, seq := 0,
    firstSent := 0, resends := 0, dest := 0, destOff := destOff, span := 0, offers := [], bad := false, reply := [],
    poisoned := false }

def State.addReqs (s : State) (n : Nat) (rs : List Req) : State :=
  s.modStack n (fun k => { k with reqs := k.reqs ++ rs })

/-- The part of a segment list from byte `from_` of the operand on. -/
def dropSegs : Nat → List Seg → List Seg
  | _, [] => []
  | n, x :: t =>
    if x.len ≤ n then dropSegs (n - x.len) t
    else { x with va := x.va + n, offset := x.offset + n, len := x.len - n } :: t

/-- Bytes that one LOAD carries (Table 10-3). -/
def loadPiece : Nat := 256

/-- The loads of one segment; one that lacks R, or names node 0xFFFF, reads as zeros and is counted
(08_translation.md R239, 09_fabric_memory.md Table 09-6). -/
def State.readSeg (s : State) (d : Desc) (x : Seg) : State :=
  if !x.rights.getLsbD 0 ∨ x.node = 0xFFFF then
    let id := s.fresh
    let r := d.req id.1 opLoad 0 x 0 x.len [] 0
    (id.2.addReqs d.stack [{ r with st := .done, reply := zeros x.len }]).quiet d.stack
      (if x.rights.getLsbD 0 then qSource else qRights)
  else
    (pieces loadPiece x.va x.len).foldl (fun t p =>
      let id := t.fresh
      id.2.addReqs d.stack [d.req id.1 opLoad (BitVec.ofNat 8 (p.2 - 1)) x p.1 p.2 [] 0]) s

/-- Read an operand from byte `from_` on. -/
def State.readOperand (s : State) (d : Desc) (word from_ : Nat) : State :=
  (dropSegs from_ (d.segsOf word)).foldl (fun t x => t.readSeg d x) s

/-- Bytes that one STORE carries at most (09_fabric_memory.md Table 09-3, R283), within one page (R272). -/
def storePiece (x : Seg) : Nat := Nat.min (if jzb2 x.node then 4096 else 8192) (Nat.max 1 x.page)

/-- The stores of one segment; one that lacks W, or names node 0xFFFF, is dropped and counted. -/
def State.writeSeg (s : State) (d : Desc) (op : BitVec 8) (x : Seg) (bs : List Byte) : State :=
  if !x.rights.getLsbD 1 then s.quiet d.stack qRights
  else if x.node = 0xFFFF then s.quiet d.stack qSource
  else
    (pieces (storePiece x) x.va x.len).foldl (fun t p =>
      let id := t.fresh
      id.2.addReqs d.stack [d.req id.1 op 0 x p.1 p.2 ((bs.drop p.1).take p.2) 0]) s

/-- Store bytes to an operand. -/
def State.writeOperand (s : State) (d : Desc) (op : BitVec 8) (word : Nat) (bs : List Byte) : State :=
  ((d.segsOf word).foldl (fun (p : State × List Byte) x =>
    (p.1.writeSeg d op x (p.2.take x.len), p.2.drop x.len)) (s, bs)).1

/-- Store bytes to host memory (R193). -/
def State.hostWrite (s : State) (a : Nat) (bs : List Byte) : State :=
  { s with hostMem := Mem.writeBytes s.hostMem a bs }

def State.hostRead (s : State) (a len : Nat) : List Byte := Mem.readBytes s.hostMem a len

/-! ### The end of a descriptor -/

/-- Its effects are acknowledged: the record is to be written. -/
def State.finishDesc (s : State) (h : Nat) : State :=
  s.modDesc h (fun d => { d with st := .finished, phase := .idle, engine := 0, waits := [] })

/-- The requests of a descriptor that have not been sent are not sent; replies it waits for are
discarded when they come. -/
def Stack.dropUnsent (k : Stack) (src : Src) : Stack :=
  { k with reqs := k.reqs.filter (fun r => !decide (r.src = src) || decide (r.st = .sent)) }

/-- The requests of a descriptor are gone; a reply that still comes finds none. -/
def State.dropDescReqs (s : State) (d : Desc) : State :=
  s.modStack d.stack (fun k => { k with reqs := k.reqs.filter (fun r => !decide (r.src = d.src)) })

/-- The header of a fetched LAUNCH has been read: the whole extent of its image is translated (08_translation.md
R246). Where the header cannot be read, the LAUNCH fails at its turn. The faults that this finds are written by the
step (`State.writeFound`). -/
def State.takeImageHeader (s : State) (h : Nat) : State :=
  match s.desc? h with
  | none => s
  | some d =>
    let rs := s.descReqs d
    if d.st = .waitHeader ∧ rs.all (fun r => decide (r.st = .done)) = true then
      let t := s.dropDescReqs d
      match rs.find? (·.poisoned) with
      | some r => t.modDesc h (fun x => { x with st := .fetched }.failAt stFault r.acc)
      | none =>
        let e : Desc := { d with data := rs.flatMap (·.reply), st := .waitSegs, segs := [] }
        let p := (t.modDesc h (fun _ => e)).prepare e
        p.1.modDesc h (fun _ => p.2)
    else s

/-- A descriptor takes what `prepare` has given it; a LAUNCH whose header is not known yet reads it. -/
def State.prepared (s : State) (d : Desc) : State :=
  if d.opcode = dLaunch ∧ d.st = .fetched ∧ d.data.isEmpty = true ∧ d.segs.isEmpty = false then
    ((s.modDesc d.handle (fun _ => { d with st := .waitHeader })).readOperand d 1 0).takeImageHeader d.handle
  else s.modDesc d.handle (fun _ => d)

/-! ### What the program of a LAUNCH needs (R10, 04_benches.md R134) -/

/-- Words of the image header, and the bundles it gives (04_benches.md Table 04-11). -/
def Desc.imageWord (d : Desc) (i : Nat) : Nat := leNat ((d.data.drop (8 * i)).take 8)
def Desc.imageCount (d : Desc) : Nat := bitsOf (d.imageWord 0) 15 0
/-- The instruction words of the image. -/
def Desc.program (d : Desc) : List Word := (elements 8 (d.data.drop 64)).map (BitVec.ofNat 64)

/-- What the bundles are found to hold. -/
def State.programFlaw (s : State) (d : Desc) : Flaw :=
  let p := d.program
  (chunksOf 4 p.length p).foldl (fun (a : Flaw) ws =>
    a.or (bundleFlaw s.intPresent s.strictPresent d.imageCount ws)) .none

/-- What a LAUNCH has read of its image so far: what its loads have brought, with NOPs for the rest. -/
def State.imageSoFar (s : State) (d : Desc) : Desc :=
  { d with data := d.data ++ (s.descReqs d).flatMap (fun r =>
      if r.st = .done ∧ r.poisoned = false then r.reply else zeros r.len) }

/-- A LAUNCH that has not started its contexts ends with ABSENT where what it has read needs an absent unit, whatever
else ends it (R8, R10). -/
def State.showsAbsent (s : State) (d : Desc) : Bool :=
  d.opcode == dLaunch && s.mayLack && decide (d.phase ≠ .held) && s.programFlaw (s.imageSoFar d) == .absent

/-- A failure ends a descriptor (R228): it makes no further access, and its record follows once its sent
accesses are answered. The first failure names the status. -/
def State.failDesc (s : State) (h status detail : Nat) : State :=
  match s.desc? h with
  | none => s
  | some d =>
    if d.st = .finished ∨ d.phase = .ending then s
    else
      let t := s.modStack d.stack (fun k => k.dropUnsent d.src)
      -- one that failed at its fetch keeps that status
      let keep := decide (d.phase ≠ .held) && d.status != 0
      let absent := s.showsAbsent d
      let u := t.modDesc h (fun x =>
        { x with
          status := if absent then BitVec.ofNat 8 stAbsent else if keep then x.status else BitVec.ofNat 8 status
          detail := if absent then 0 else if keep then x.detail else BitVec.ofNat 32 detail
          st := .running, phase := .ending, waits := [] })
      if (u.descReqs d).isEmpty then u.finishDesc h else u

/-- Take a descriptor out of the waiters of the page faults and the walks of its stack. -/
def State.leaveFaultsDesc (s : State) (d : Desc) : State :=
  s.modStack d.stack (fun k =>
    { k with
      faults := k.faults.map (fun f => { f with waiters := f.waiters.filter (Waiter.notDesc d.handle) })
      walks := k.walks.map (fun f => { f with waiters := f.waiters.filter (Waiter.notDesc d.handle) })
      misses := k.misses.filter (Waiter.notDesc d.handle) })

end Sys2Proof.Machine
end

