-- ==== Sys2Proof/Machine/Holds.lean ====
section
/-! DEFINITION. What an access waits for at its source: earlier accesses of the same source to the same line or to a
coherent window, and banks under repair (09_fabric_memory.md R278, R301 to R303; 13_memory_tiers.md R422). -/

namespace Sys2Proof.Machine

/-- One source: a context of a bench, or a ring on the stack where its descriptors execute
(09_fabric_memory.md, before R278; 07_rings_and_doorbells.md R210). -/
def sameSource : Src → Src → Bool
  | .ctx b c, .ctx b' c' => b == b' && c == c'
  | .ring q _, .ring q' _ => decide (q = q')
  | .rebuild i, .rebuild j => i == j
  | .ctx _ _, .ring _ _ | .ctx _ _, .rebuild _ | .ring _ _, .ctx _ _ | .ring _ _, .rebuild _
  | .rebuild _, .ctx _ _ | .rebuild _, .ring _ _ => false

/-- The requests that the same source issued before request `id` and that are unanswered. -/
def Stack.earlierOpen (k : Stack) (r : Req) : List Req :=
  (k.reqs.takeWhile (fun q => q.id != r.id)).filter (fun q => sameSource q.src r.src && decide (q.st ≠ .done))

/-- Two accesses touch one line. -/
def sameLine (a b : Req) : Bool :=
  a.node == b.node && decide (a.offset / lineSize ≤ (b.offset + b.len - 1) / lineSize)
    && decide (b.offset / lineSize ≤ (a.offset + a.len - 1) / lineSize)

/-- R278. An earlier access whose translation is not known yet may touch any line. -/
def Stack.lineHeld (k : Stack) (r : Req) : Bool :=
  (k.earlierOpen r).any (fun q =>
    !(q.op == opLoad && r.op == opLoad) && (decide (q.st = .walking) || sameLine q r))

/-- The coherent windows of a stack: base and bytes (R301, R307). -/
def State.windowsOf (s : State) (n : Nat) : List (Nat × Nat) :=
  let r : Reg := .ABT_CWIN_CFG n
  (if s.bit r ABT_CWIN_CFG_ENABLE then
    [(s.fld r ABT_CWIN_CFG_BASE * gib, s.fld r ABT_CWIN_CFG_SIZE * gib)] else [])
  ++ (match (s.stack n).oldWindow with
    | some (b, z) => [(b * gib, z * gib)]
    | none => [])

/-- A byte of the access lies in a coherent window of the stack. -/
def State.inWindow (s : State) (n off len : Nat) : Bool :=
  (s.windowsOf n).any (fun w => decide (off < w.1 + w.2) && decide (w.1 < off + len))

/-- The node is one of this module. -/
def State.ownNode (s : State) (node : BitVec 16) : Bool :=
  modulePos node == modulePos s.baseNode && !jzb2 node

/-- The access lies in a coherent window (R303): of a stack of this module, or of another module, whose windows are
free values here. -/
def State.toWindow (s : State) (r : Req) : Bool :=
  if s.ownNode r.node then s.inWindow (r.node.toNat % 8) r.offset r.len
  else !jzb2 r.node && (linesOf r.offset r.len).any (Config.remoteWindow r.node)

/-- R303. An earlier access whose translation is not known yet may go to any window. -/
def State.windowHeld (s : State) (n : Nat) (r : Req) : Bool :=
  ((s.stack n).earlierOpen r).any (fun q => decide (q.st = .walking) || s.toWindow q) && s.toWindow r

/-- A segment of the source lies in a bank under repair: its read waits (13_memory_tiers.md R422). -/
def State.sourceBusy (s : State) (d : Desc) : Bool :=
  (d.segsOf 1).any (fun x => x.rights.getLsbD 0 && s.bankBusy d.stack x.offset x.len)

/-- A load of the source waits: it touches a line of an earlier access of the ring that is unanswered, other than a load,
or goes to a coherent window after one that is unanswered (09_fabric_memory.md R278, R302, R303). -/
def State.sourceHeld (s : State) (d : Desc) : Bool :=
  (d.segsOf 1).any (fun x =>
    let r := d.req 0 opLoad 0 x 0 x.len [] 0
    x.rights.getLsbD 0 && ((s.stack d.stack).lineHeld r || s.windowHeld d.stack r))

/-- The loads of the source of a collective can be made. -/
def State.sourceReady (s : State) (d : Desc) : Bool := !s.sourceBusy d && !s.sourceHeld d

end Sys2Proof.Machine
end

