-- ==== Sys2Proof/Machine/Rings.lean ====
section
/-! DEFINITION. Descriptor rings: set-up, doorbells, the fetch and the start of a descriptor, and the
completion record (07_rings_and_doorbells.md R192 to R216, R224 to R228; 06_host_cores.md R181 to R185). -/

namespace Sys2Proof.Machine

/-- Answer for host ring `r`. -/
def onRing (r : Nat) (x : Res) : Res := if r < 64 then x else noUnit

/-- The descriptors of a ring that are fetched and not completed. -/
def State.ringDescs (s : State) (q : RingId) : List Desc := s.host.descs.filter (fun d => decide (d.ring = q))

/-- DRAINED: the ring is disabled and nothing of it is outstanding (Table 07-5). -/
def State.ringDrained (s : State) (r : Nat) : Bool := !s.ringOn r && (s.ringDescs (.host r)).isEmpty

/-! ### Enabling and disabling (R199 to R201) -/

/-- A power of two from 16 to 65,536. -/
def ringSizeOk (n : Nat) : Bool := (List.range 13).any (fun i => n == 16 * 2 ^ i)

/-- The conditions of R199. -/
def State.ringFits (s : State) (r : Nat) : Bool :=
  let q : Reg := .HOSTIF_RING_CFG r
  let need := if s.bit q HOSTIF_RING_CFG_SEALED then 4 else 2
  ringSizeOk (s.fld q HOSTIF_RING_CFG_SIZE) && decide (need ≤ s.fld q HOSTIF_RING_CFG_VER_REQ)
    && (!s.bit q HOSTIF_RING_CFG_SEALED ||
      (List.range 8).all (fun n =>
        !s.ringStack (.host r) n || s.tenantOf n == s.fld q HOSTIF_RING_CFG_TENANT))

/-- Enable a ring: its counts are 0, and its doorbell line is read. -/
def State.enableRing (s : State) (r : Nat) : State :=
  let q : Reg := .HOSTIF_RING_CFG r
  let t := s.setFld q HOSTIF_RING_CFG_VER (Nat.min (s.fld q HOSTIF_RING_CFG_VER_REQ) 4)
  let u := (t.setReg (.HOSTIF_RING_IDX r) 0).setReg (.HOSTIF_RING_CIDX r) 0
  u.modRing r (fun _ => { size := s.fld q HOSTIF_RING_CFG_SIZE, lineHeld := false, reading := true })

/-- Disable a ring; its outstanding descriptors run on, with the SIZE it was enabled with. ERROR clears
(R197). -/
def State.disableRing (s : State) (r : Nat) : State :=
  let q : Reg := .HOSTIF_RING_CFG r
  let t := (s.setFld q HOSTIF_RING_CFG_SIZE 0).setFld q HOSTIF_RING_CFG_VER 0
  let u := (t.setBit (.HOSTIF_RING_STATUS r) HOSTIF_RING_STATUS_ERROR false).setFld
    (.HOSTIF_RING_STATUS r) HOSTIF_RING_STATUS_ERROR_CODE 0
  u.modRing r (fun x => { x with lineHeld := false, reading := false })

/-- A write of HOSTIF_RING_CFG. -/
def State.wrRingCfg (r : Nat) (v live : Word) (s : State) : State :=
  let q : Reg := .HOSTIF_RING_CFG r
  let size := writesField live HOSTIF_RING_CFG_SIZE
  if s.ringOn r then
    if size ∧ getF v HOSTIF_RING_CFG_SIZE = 0 then s.disableRing r else s.countAt q
  else if !s.ringDrained r then s.countAt q
  else
    let t := s.plainWrite q v live
    if size ∧ getF v HOSTIF_RING_CFG_SIZE ≠ 0 then
      if t.ringFits r then t.enableRing r else t.countAt q
    else t

/-- A write of HOSTIF_RING_DESC, HOSTIF_RING_CPL or HOSTIF_RING_DB (R200). -/
def State.wrRingArea (q : Reg) (r : Nat) (v live : Word) (s : State) : State :=
  if s.ringDrained r then s.plainWrite q v live else s.countAt q

/-- RING_ENABLE: a write of HOSTIF_RING_CFG with a non-zero SIZE. -/
def execRingEnable (who : Requester) (ring : Nat) (value : Word) (s : State) : Res :=
  onRing ring (.next (s.onWord who (.HOSTIF_RING_CFG ring) (State.wrRingCfg ring value wholeWrite)))

/-- RING_DISABLE: a write of HOSTIF_RING_CFG with SIZE 0. -/
def execRingDisable (who : Requester) (ring : Nat) (value : Word) (s : State) : Res :=
  onRing ring (.next (s.onWord who (.HOSTIF_RING_CFG ring) (State.wrRingCfg ring value wholeWrite)))

/-! ### Doorbells (R203 to R205) -/

/-- Stop fetching with a code of R197; a ring in error keeps its code. One that meets a disabled ring which still drains
stands across its next enable (DESIGN CHOICE, log entry 243). -/
def State.ringError (s : State) (r code : Nat) : State :=
  if s.bit (.HOSTIF_RING_STATUS r) HOSTIF_RING_STATUS_ERROR then s
  else (s.setBit (.HOSTIF_RING_STATUS r) HOSTIF_RING_STATUS_ERROR true).setFld
    (.HOSTIF_RING_STATUS r) HOSTIF_RING_STATUS_ERROR_CODE code

/-- DOORBELL_SNOOP: what the host has written to its memory, up to the doorbell line of an enabled ring;
the line leaves the cache and a new read starts. -/
def execDoorbellSnoop (ring : Nat) (written : List Host.Cell) (s : State) : Res :=
  let t := { s with hostMem := written.foldl (fun m c => Mem.write m c.1 c.2) s.hostMem }
  onRing ring (.next (if s.ringOn ring && (s.ring ring).lineHeld then
    t.modRing ring (fun x => { x with lineHeld := false, reading := true }) else t))

/-- `a - b` modulo 2^32. -/
def sub32 (a b : Nat) : Nat := (a % 2 ^ 32 + 2 ^ 32 - b % 2 ^ 32) % 2 ^ 32

def State.dbAddr (s : State) (r : Nat) : Nat := 64 * s.fld (.HOSTIF_RING_DB r) HOSTIF_RING_DB_ADDR

/-- Completions have run past the host's consumption by more than SIZE (R197, code 2). -/
def State.checkRoom (s : State) (r : Nat) : State :=
  if (s.ring r).size < sub32 (s.fld (.HOSTIF_RING_CIDX r) HOSTIF_RING_CIDX_COMPLETED)
      (s.fld (.HOSTIF_RING_CIDX r) HOSTIF_RING_CIDX_CONSUMED) then s.ringError r 2
  else s

/-- Take P and U from the line, and check the counts (R197). Where codes 1 and 2 both hold, 1 is shown (DESIGN CHOICE, log
entry 242). -/
def State.takeDoorbell (s : State) (r : Nat) : State :=
  let p := leNat (s.hostRead (s.dbAddr r) 4)
  let u := leNat (s.hostRead (s.dbAddr r + 8) 4)
  let t := (s.setFld (.HOSTIF_RING_IDX r) HOSTIF_RING_IDX_POSTED p).setFld (.HOSTIF_RING_CIDX r)
    HOSTIF_RING_CIDX_CONSUMED u
  let t := t.modRing r (fun x => { x with lineHeld := true, reading := false })
  if (t.ring r).size < sub32 p (t.fld (.HOSTIF_RING_IDX r) HOSTIF_RING_IDX_HEAD) then t.ringError r 1
  else t.checkRoom r

/-- DOORBELL_READ_DONE. -/
def execDoorbellReadDone (ring : Nat) (cxlErr : Bool) (s : State) : Res :=
  onRing ring (whenOk (s.ringOn ring && (s.ring ring).reading) s
    (if cxlErr then
      (s.modRing ring (fun x => { x with reading := false })).ringError ring 3
     else s.takeDoorbell ring))

/-- DOORBELL_POLL: the line is read again at least once every 1,024 beats. -/
def execDoorbellPoll (ring : Nat) (s : State) : Res :=
  onRing ring (whenOk (s.ringOn ring) s (s.modRing ring (fun x => { x with reading := true })))

/-! ### Fetch (R195, R196, R207, R211, R213 to R216) -/

/-- An operand of a fetched descriptor of the ring waits on a fault or for segments (R211, R248). -/
def State.ringStalled (s : State) (q : RingId) : Bool :=
  (s.ringDescs q).any (fun d => decide (d.st = .waitFault) || decide (d.st = .waitSegs))

/-- A host ring has a descriptor to fetch, and room for its record (R195, R197). -/
def State.hostMayFetch (s : State) (r : Nat) : Bool :=
  let h := s.fld (.HOSTIF_RING_IDX r) HOSTIF_RING_IDX_HEAD
  s.ringOn r && !s.bit (.HOSTIF_RING_STATUS r) HOSTIF_RING_STATUS_ERROR
    && h != s.fld (.HOSTIF_RING_IDX r) HOSTIF_RING_IDX_POSTED
    && decide (sub32 h (s.fld (.HOSTIF_RING_CIDX r) HOSTIF_RING_CIDX_CONSUMED) < (s.ring r).size)
    && !s.ringStalled (.host r)

/-- A device-side ring has a descriptor to fetch. Nothing tests how far TAIL lies ahead of HEAD (DESIGN CHOICE, log
entry 221). -/
def State.devMayFetch (s : State) (n r : Nat) : Bool :=
  s.stackUp n && s.dringSize n r != 0 && !s.ringStalled (.dev n r)
    && s.fld (.HCORE_DRING_IDX n r) HCORE_DRING_IDX_HEAD != s.fld (.HCORE_DRING_IDX n r) HCORE_DRING_IDX_TAIL

def State.mayFetch (s : State) : RingId → Bool
  | .host r => s.hostMayFetch r
  | .dev n r => s.devMayFetch n r

/-- Host memory address of descriptor `h` of a ring. -/
def State.descAddr (s : State) (r h : Nat) : Nat :=
  4096 * s.fld (.HOSTIF_RING_DESC r) HOSTIF_RING_DESC_ADDR + 64 * (h % Nat.max 1 (s.ring r).size)

/-- The stack that the next descriptor of a ring names: its arbiter takes it. -/
def State.headStack (s : State) : RingId → Nat
  | .host r => bitsOf (leNat (s.hostRead (s.descAddr r (s.fld (.HOSTIF_RING_IDX r) HOSTIF_RING_IDX_HEAD)) 8)) 46 44
  | .dev n _ => n

/-- A ring's place in the round-robin of an arbiter (06_host_cores.md R185; log entry 182). -/
def ringPlace : RingId → Nat
  | .dev _ r => r
  | .host r => 8 + r

/-- The ring at a place of the round-robin of stack `n`. -/
def ringAt (n i : Nat) : RingId := if i < 8 then .dev n i else .host (i - 8)

/-- Places after the ring taken last. -/
def Stack.afterLast (k : Stack) (i : Nat) : Nat := (i + 72 - k.lastRing - 1) % 72

/-- The turn of a ring: of the rings with a descriptor for its stack, it comes next after the one taken last. -/
def State.ringTurn (s : State) (q : RingId) : Bool :=
  let n := s.headStack q
  let k := s.stack n
  (List.range 72).all (fun i =>
    !(s.mayFetch (ringAt n i) && s.headStack (ringAt n i) == n)
      || decide (k.afterLast (ringPlace q) ≤ k.afterLast i))

/-- The arbiter has taken a descriptor of a ring. -/
def State.tookRing (s : State) (n : Nat) (q : RingId) : State :=
  s.modStack n (fun k => { k with lastRing := ringPlace q })

/-- A descriptor as it stands at its fetch. -/
def State.newDesc (s : State) (q : RingId) (index : Nat) (bs : List Byte) : Desc :=
  { handle := s.host.nextHandle, ring := q, index := index, words := wordsOf bs,
    stack := bitsOf (leNat (bs.take 8)) 46 44, xctx := s.ringCtx q, st := .fetched, phase := .idle,
    data := [], waits := [], status := 0, detail := 0, segs := [], before := [], order := s.host.nextOrder, startNo := 0,
    engine := 0, since := 0 }

/-- Check and translate a fetched descriptor. A LAUNCH whose image still tells whether it needs an absent unit is
translated whatever its checks have found (R10). -/
def State.takeDesc (s : State) (q : RingId) (index : Nat) (bs : List Byte) (sealed : Bool) : State :=
  let d := s.newDesc q index bs
  let r := s.fetchStatus d sealed
  let d := { d with status := BitVec.ofNat 8 r.1, detail := BitVec.ofNat 32 r.2 }
  let t : State :=
    { s with host := { s.host with
        descs := s.host.descs ++ [d]
        nextHandle := s.host.nextHandle + 1
        nextOrder := s.host.nextOrder + 1 } }
  if r.1 = stOk ∨ s.imageTells d = true then
    let p := t.prepare d
    (p.1.prepared p.2).writeFound s d.stack
  else t

/-- Fetch from a host ring: SEQ advances at every fetch, and a failed seal is counted (R202, R215). -/
def State.fetchHost (s : State) (r : Nat) : State :=
  let h := s.fld (.HOSTIF_RING_IDX r) HOSTIF_RING_IDX_HEAD
  let bs := s.hostRead (s.descAddr r h) 64
  let seq := s.reg (.HOSTIF_RING_SEQ r)
  let ok := !s.ringSealed (.host r) || s.sealOk r seq bs
  let t := s.takeDesc (.host r) h bs ok
  let u := (t.setFld (.HOSTIF_RING_IDX r) HOSTIF_RING_IDX_HEAD (h + 1)).setReg (.HOSTIF_RING_SEQ r) (seq + 1)
  let u := u.tookRing (s.headStack (.host r)) (.host r)
  if ok then u else u.satFld .SEC_STATUS SEC_STATUS_SEAL_FAIL 1

/-- Fetch from a device-side ring. A ring area that runs past the 8 MiB of runtime SRAM is read there too (DESIGN CHOICE,
log entry 220). -/
def State.fetchDev (s : State) (n r : Nat) : State :=
  let h := s.fld (.HCORE_DRING_IDX n r) HCORE_DRING_IDX_HEAD
  let base := 4096 * s.fld (.HCORE_DRING_CFG n r) HCORE_DRING_CFG_DESC_BASE
  let bs := Mem.readBytes (s.stack n).sram (base + 64 * (h % Nat.max 1 (s.dringSize n r))) 64
  ((s.takeDesc (.dev n r) h bs true).setFld (.HCORE_DRING_IDX n r) HCORE_DRING_IDX_HEAD (h + 1)).tookRing n (.dev n r)

/-- DESCRIPTOR_FETCH, at the ring's turn. -/
def execDescriptorFetch (ring : RingId) (cxlErr : Bool) (s : State) : Res :=
  match ring with
  | .host r =>
    onRing r (whenOk (s.hostMayFetch r && s.ringTurn (.host r)) s
      (if cxlErr then s.ringError r 3 else s.fetchHost r))
  | .dev n r =>
    if n < 8 ∧ r < 8 then whenOk (s.devMayFetch n r && s.ringTurn (.dev n r)) s (s.fetchDev n r)
    else noUnit

/-! ### Start (R208, R588) -/

/-- Descriptors of the same ring that were fetched before. -/
def State.earlierDescs (s : State) (d : Desc) : List Desc :=
  (s.ringDescs d.ring).filter (fun x => decide (x.order < d.order))

/-- Not yet started. -/
def Desc.unstarted (d : Desc) : Bool :=
  (decide (d.st = .fetched) || decide (d.st = .waitSegs) || decide (d.st = .waitFault) || decide (d.st = .waitHeader))
    && decide (d.phase = .idle)

/-- The ring's order lets the descriptor start. -/
def State.turnOk (s : State) (d : Desc) : Bool :=
  let before := s.earlierDescs d
  before.all (fun x => !x.unstarted && !x.hold) && (!d.wait || before.isEmpty)

/-- The work that a DMA engine carries. -/
def Desc.needsEngine (d : Desc) : Bool :=
  d.opcode == dCopy || d.opcode == dFill || d.opcode == dSnapshot || d.opcode == dLaunch

/-- The lowest DMA engine that is free and has not failed. -/
def State.freeEngine (s : State) (n : Nat) : Option Nat :=
  (List.range 16).find? (fun i =>
    !s.unitFailed kindDma n i
      && !s.host.descs.any (fun d => d.stack == n && d.engine == i + 1)
      && !(s.stack n).rebuilds.any (fun b => b.engine == i + 1))

/-- A descriptor that failed at its fetch ends at its turn, but for a LAUNCH whose image is still to be read (R10). -/
def State.endsAtTurn (s : State) (d : Desc) : Bool :=
  d.status != 0 && (!s.imageTells d || d.segs.isEmpty)

/-- The place of the next descriptor to start. -/
def State.nextStart (s : State) : Nat := s.host.descs.foldl (fun m d => Nat.max m d.startNo) 0 + 1

/-- DESCRIPTOR_START. A descriptor that failed at its fetch ends at its turn, with no effect. -/
def execDescriptorStart (desc : Nat) (s : State) : Res :=
  match s.desc? desc with
  | none => .next s
  | some d =>
    if d.st = .fetched ∧ s.turnOk d = true then
      if s.endsAtTurn d then .next (s.finishDesc desc)
      else if d.needsEngine then
        match s.freeEngine d.stack with
        | some i => .next (s.modDesc desc (fun x => { x with st := .started, startNo := s.nextStart, engine := i + 1 }))
        | none => .next s
      else .next (s.modDesc desc (fun x => { x with st := .started, startNo := s.nextStart }))
    else .next s

/-! ### Events at a beat (R32, R34, R38, R39, R44) -/

/-- The class of a scheduled descriptor (R39). -/
def Desc.releaseClass (d : Desc) : Nat :=
  if d.opcode = dSpanClose then 1
  else if d.opcode = dSpanOpen then 2
  else if d.opcode = dSnapshot then 4
  else if d.opcode = dCollective then 5
  else 6

/-- A scheduled event: its beat, its class and its order of acceptance. -/
abbrev Due := BitVec 48 × Nat × Nat

/-- A snapshot of the stack at the same beat has not read its whole source (R221). -/
def State.snapReading (s : State) (n : Nat) (b : BitVec 48) : Bool :=
  s.host.descs.any (fun d => d.stack == n && d.opcode == dSnapshot && decide (d.beat? = some b)
    && decide (d.st = .running) && decide (d.phase = .source))

/-- Something else than its turn holds an event past its beat: a snapshot of its own stack that still reads (R221), or for
a collective its header result or its source. It stands in no other event's way (R40). -/
def State.heldBack (s : State) (d : Desc) (b : BitVec 48) : Bool :=
  (decide (5 ≤ d.releaseClass) && s.snapReading d.stack b)
    || (d.opcode == dCollective && !((s.stack d.stack).colls.any (fun c => c.desc == d.handle && c.phase == 2)
      && s.sourceReady d))

/-- The events scheduled and not yet taken effect. Those that something else holds, and caps and ramps that R45 holds, stand
in no one's way. -/
def State.scheduled (s : State) : List Due :=
  s.host.descs.filterMap (fun d => match d.beat?, d.st with
    | some b, .armed => if s.heldBack d b then none else some (b, d.releaseClass, d.order)
    | _, _ => none)
  ++ (if s.lostOver || s.mismatch then [] else s.power.held.map (fun h => (h.beat, 3, h.order)))

def State.beatAge (s : State) (b : BitVec 48) : Nat := (s.beatNow - b).toNat

/-- `a` takes effect before `b` (R39). -/
def State.dueBefore (s : State) (a b : Due) : Bool :=
  let x := s.beatAge a.1
  let y := s.beatAge b.1
  decide (y < x) || (x == y && (decide (a.2.1 < b.2.1) || (a.2.1 == b.2.1 && decide (a.2.2 < b.2.2))))

/-- It is the event's turn. -/
def State.myTurn (s : State) (e : Due) : Bool :=
  s.reached e.1 && !s.scheduled.any (fun x => s.reached x.1 && s.dueBefore x e)

/-- An armed descriptor takes effect now. -/
def State.fires (s : State) (d : Desc) : Bool :=
  match d.beat? with
  | none => false
  | some b =>
    decide (d.st = .armed) && !s.lostOver && !s.mismatch && s.myTurn (b, d.releaseClass, d.order)
      && (decide (d.releaseClass < 5) || !s.snapReading d.stack b)

/-- Every scheduled descriptor whose event has not taken effect completes with TIMEOUT (R34, R44). -/
def State.timeoutScheduled (s : State) (detail : Nat) : State :=
  s.host.descs.foldl (fun t d =>
    if d.beat?.isSome ∧ (d.st = .armed ∨ d.st = .started ∨ d.unstarted = true) ∧ d.status = 0 then
      (t.leaveFaultsDesc d).failDesc d.handle stTimeout detail
    else t) s

/-! ### Completion (R201, R209, R224, R225) -/

/-- The 16 bytes of a completion record (Table 07-13). -/
def recordBytes (d : Desc) (head : Nat) (phase : Bool) : List Byte :=
  leBytes 8 (d.index % 65536 * 2 ^ 48 + d.status.toNat * 2 ^ 40 + d.opcode * 2 ^ 32 + d.bits 0 31 0)
    ++ leBytes 8 (head % 65536 * 2 ^ 48 + d.detail.toNat * 2 ^ 16 + (if phase then 1 else 0))

/-- The phase bit of count `c` in a ring of `size` entries. -/
def phaseOf (c size : Nat) : Bool := c / Nat.max 1 size % 2 == 0

/-- The record of a descriptor of a host ring. The interrupt goes out even where a CXL error keeps the record from being
written (DESIGN CHOICE, log entry 244). -/
def State.completeHost (s : State) (r : Nat) (d : Desc) (cxlErr : Bool) : State :=
  let c := s.fld (.HOSTIF_RING_CIDX r) HOSTIF_RING_CIDX_COMPLETED
  let size := (s.ring r).size
  let at_ := 4096 * s.fld (.HOSTIF_RING_CPL r) HOSTIF_RING_CPL_ADDR + 16 * (c % Nat.max 1 size)
  let rec_ := recordBytes d (s.fld (.HOSTIF_RING_IDX r) HOSTIF_RING_IDX_HEAD) (phaseOf c size)
  let u := (if cxlErr then s.ringError r 3 else s.hostWrite at_ rec_).setFld (.HOSTIF_RING_CIDX r)
    HOSTIF_RING_CIDX_COMPLETED (c + 1)
  let t := u.checkRoom r
  if d.irq then t.msix (t.fld (.HOSTIF_RING_CFG r) HOSTIF_RING_CFG_MSIX) else t

/-- The record of a descriptor of a device-side ring; DRING_DONE is posted when the ring's IRQ bit is
set (Tables 06-3, 06-9). A ring disabled meanwhile has no place for the record. -/
def State.completeDev (s : State) (n r : Nat) (d : Desc) : State :=
  let q : Reg := .HCORE_DRING_IDX n r
  let c := s.fld q HCORE_DRING_IDX_CPL_HEAD
  let size := s.dringSize n r
  if size = 0 then s
  else
    let at_ := 4096 * s.fld (.HCORE_DRING_CFG n r) HCORE_DRING_CFG_CPL_BASE + 16 * (c % size)
    let rec_ := recordBytes d (s.fld q HCORE_DRING_IDX_HEAD) (phaseOf c size)
    let t := (s.modStack n (fun k => { k with sram := Mem.writeBytes k.sram at_ rec_ })).setFld q
      HCORE_DRING_IDX_CPL_HEAD (c + 1)
    if s.bit (.HCORE_DRING_CFG n r) HCORE_DRING_CFG_IRQ then t.event n evDringDone noBench 0 r else t

end Sys2Proof.Machine
end

