-- ==== Sys2Proof/Machine/Engines.lean ====
section
/-! DEFINITION. What descriptors do: COPY, FILL, KEYSTONE, FENCE, WAIT_BEAT, AT_BEAT, SNAPSHOT, NOP and
LAUNCH (07_rings_and_doorbells.md R209, R218 to R221, R229, R588; 04_benches.md R133 to R135). A
descriptor moves on when every access of its present phase has been answered. -/

namespace Sys2Proof.Machine

/-! ### Moving on -/

/-- The state of a running descriptor. -/
def State.phase (s : State) (h : Nat) (p : DescPhase) : State :=
  s.modDesc h (fun d => { d with st := .running, phase := p })

/-- Replies that the descriptor has received, in the order of its accesses. -/
def State.descReplies (s : State) (d : Desc) : List Byte := (s.descReqs d).flatMap (·.reply)

/-- The store that ends a descriptor: to operand `word`, or nothing. -/
def State.lastStore (s : State) (d : Desc) (on : Bool) (op : BitVec 8) (word : Nat) (w : Word) : State :=
  if on then
    let t := (s.phase d.handle .flag).writeOperand d op word (leBytes 8 w.toNat)
    if (t.descReqs d).isEmpty then t.finishDesc d.handle else t
  else s.finishDesc d.handle

/-- The pattern of FILL: destination byte i holds byte i mod 8. -/
def fillBytes (pattern : Word) (len : Nat) : List Byte :=
  ((List.replicate (len / 8 + 1) (leBytes 8 pattern.toNat)).flatten).take len

/-- The length field of COPY, FILL and SNAPSHOT. -/
def Desc.length (d : Desc) : Nat := if d.opcode = dSnapshot then d.bits 4 39 0 else d.bits 3 39 0

/-- What follows the destination: the flag of COPY, the digest of SNAPSHOT (R221). -/
def State.afterDest (s : State) (d : Desc) : State :=
  if d.opcode = dCopy then s.lastStore d (d.flag 3 61) opKeystone 4 (d.word 5)
  else if d.opcode = dSnapshot then s.lastStore d (d.flag 4 63) opStore 5 (crc64 d.data)
  else s.finishDesc d.handle

/-- Two ranges share a byte. -/
def overlap (a la b lb : Nat) : Bool := decide (a < b + lb) && decide (b < a + la)

/-- The source and the destination of a COPY overlap (R220). -/
def Desc.copyOverlaps (d : Desc) : Bool :=
  let len := d.length
  if d.flag 3 63 && d.flag 3 62 then overlap (d.word 1).toNat len (d.word 2).toNat len
  else (d.segsOf 1).any (fun x => (d.segsOf 2).any (fun y =>
    x.node == y.node && overlap x.offset x.len y.offset y.len))

/-- Store what a COPY or a SNAPSHOT has read. The result of a COPY onto its own source is a free value
(R220). -/
def State.storeDest (s : State) (d : Desc) : State :=
  let free := d.opcode == dCopy && d.copyOverlaps
  let p := if free then s.takeFree else (0, s)
  let bs := if free then leBytes d.data.length p.1 else d.data
  let host := d.opcode == dCopy && d.flag 3 62
  let word := if d.opcode = dCopy then 2 else 3
  if host then (p.2.hostWrite (d.word 2).toNat bs).afterDest d
  else
    let t := (p.2.phase d.handle .dest).writeOperand d opStore word bs
    if (t.descReqs d).isEmpty then t.afterDest d else t

/-! ### LAUNCH -/

def Desc.job (d : Desc) : Nat := d.bits 2 63 48
def Desc.first (d : Desc) : Nat := d.bits 2 40 32
def Desc.last (d : Desc) : Nat := d.bits 2 24 16
def Desc.named (d : Desc) : List Nat := (List.range 336).filter (fun b => decide (d.first ≤ b) && decide (b ≤ d.last))

/-- Contexts started and entries of the image header (Table 04-11). -/
def Desc.ctxMask (d : Desc) : Nat := bitsOf (d.imageWord 0) 23 16
def Desc.entry (d : Desc) (c : Nat) : Nat :=
  bitsOf (d.imageWord (1 + c / 4)) (16 * (c % 4) + 15) (16 * (c % 4))

/-- The contexts that a LAUNCH starts on a bench. -/
def Desc.starts (d : Desc) : List Nat := (List.range 8).filter (fun c => bitOf d.ctxMask c)

/-- The checks of the named benches (Table 07-11, R134): their job, and contexts in IDLE or HALTED. -/
def State.benchesBad (s : State) (d : Desc) : Bool :=
  d.named.any (fun b => !s.vacant d.stack b &&
    (s.jobOf d.stack b != d.job || !(s.bench d.stack b).quietCtxs))

/-- The checks of the header (R133, R134). -/
def Desc.headerBad (d : Desc) : Bool :=
  bitsOf (d.imageWord 0) 63 24 != 0 || d.imageCount == 0 || decide (2048 < d.imageCount) || d.ctxMask == 0
    || [3, 4, 5, 6, 7].any (fun i => d.imageWord i != 0)
    || (List.range 8).any (fun c =>
      if bitOf d.ctxMask c then decide (d.imageCount ≤ d.entry c) else d.entry c != 0)

/-- The lowest vacant bench that a LAUNCH names (R160). -/
def State.vacantNamed (s : State) (d : Desc) : Option Nat := d.named.find? (fun b => s.vacant d.stack b)

/-- How a context that a LAUNCH started has ended: 0 OK, 1 TIMEOUT, 2 FAULT, 3 TORN_DOWN (R135). -/
def Ctx.outcome (x : Ctx) : Nat :=
  if x.torn || x.cause == 3 then 3
  else if x.cause = 4 ∨ x.cause = 5 ∨ x.cause = 7 then 2
  else if x.cause = 2 ∨ x.cause = 6 then 1
  else 0

/-- The rank of a status of R135. -/
def statusRank (st : BitVec 8) : Nat :=
  if st.toNat = stTorn then 3 else if st.toNat = stFault then 2 else if st.toNat = stTimeout then 1 else 0

/-- Take the outcome of a context on bench `b` into the status of its LAUNCH. -/
def Desc.takeOutcome (d : Desc) (b : Nat) (x : Ctx) : Desc :=
  let r := statusRank d.status
  match x.outcome with
  | 3 => { d with status := BitVec.ofNat 8 stTorn, detail := BitVec.ofNat 32 d.job }
  | 2 =>
    if r < 2 ∨ (r = 2 ∧ b < d.detail.toNat) then
      { d with status := BitVec.ofNat 8 stFault, detail := BitVec.ofNat 32 b }
    else d
  | 1 => if r < 1 then { d with status := BitVec.ofNat 8 stTimeout, detail := 5 } else d
  | _ => d

/-- A context starts (R77, R82, R88, R135): registers and flags zero, its generator seeded. -/
def Ctx.start (x : Ctx) (now : Nat) (d : Desc) (bench ctx : Nat) : Ctx :=
  { x with
    st := .run, hungFrom := .run, stopDue := 0, pc := d.entry ctx, sregs := [], vregs := [], kregs := [],
    tile := [], tileInt := false, rng := srSeed (d.word 3) bench ctx, flags := 0, xctx := d.xctx,
    launch := d.handle, timerAcc := 0, timerFrom := now, waits := [], torn := false, ready := [],
    tileReady := 0, arrDone := 0, left := false }

/-- Ballast stops on a bench that a LAUNCH names (16_power.md R481). -/
def State.endBallast (s : State) (n b : Nat) : State :=
  let t := s.modStack n (fun k => { k with ballast := k.ballast.filter (· != b) })
  if (s.stack n).ballast.contains b then
    t.setBit .PWR_STATUS PWR_STATUS_BALLAST ((List.range 8).any (fun m => !(t.stack m).ballast.isEmpty))
  else t

/-- Load the program of one named bench and start its contexts. A context that an earlier LAUNCH
started and that has ended leaves its outcome with that LAUNCH. -/
def State.startBench (s : State) (d : Desc) (b : Nat) : State :=
  let x := s.bench d.stack b
  let t := d.starts.foldl (fun u c =>
    u.modDesc (x.ctx c).launch (fun e =>
      if e.opcode = dLaunch ∧ e.stack = d.stack ∧ e.phase = .held then e.takeOutcome b (x.ctx c) else e)) s
  (t.endBallast d.stack b).modBench d.stack b (fun y =>
    d.starts.foldl (fun z c => z.setCtx c ((z.ctx c).start s.now d b c))
      { y with prog := Tab.splice 0 y.prog 0 d.program, bundles := d.imageCount })

/-- The record of a LAUNCH (17_security_and_tenancy.md Table 17-5). -/
def Desc.launchRecord (d : Desc) : List Byte :=
  Config.sha512 d.data ++ le2 d.job ++ le2 d.first ++ le2 d.last ++ zeros 2

/-- Every context in the mask starts on every named bench; the image load's engine is free again. -/
def State.startLaunch (s : State) (d : Desc) : State :=
  let t := d.named.foldl (fun u b => u.startBench d b) s
  let u := t.modStack d.stack (fun k =>
    { k with
      owner := Tab.set 0 k.owner d.xctx d.job
      measBench := extendBy k.measBench d.launchRecord })
  u.modDesc d.handle (fun x => { x with st := .running, phase := .held, engine := 0 })

/-- The bytes of the image that have been translated. -/
def Desc.imageHeld (d : Desc) : Nat := sumNat ((d.segsOf 1).map (·.len))

/-- What of the image has been translated is read, from the byte that comes next. -/
def State.readImage (s : State) (d : Desc) : State :=
  let e : Desc := { d with st := .running, phase := .source, before := [] }
  (s.modDesc d.handle (fun _ => e)).readOperand e 1 d.data.length

/-- A page of the image cannot be had: the LAUNCH ends with FAULT, unless the program before that page needs an absent
unit (R10). -/
def Desc.imageCut (d : Desc) (l : List Seg) : Desc := { d with segs := l }.failAt stFault 1

/-- The image is longer than its header said at fetch: the rest is translated and read. The faults that this finds are
written by the step (`State.writeFound`). -/
def State.restOfImage (s : State) (d : Desc) : State :=
  let left := s.imageLen d - d.imageHeld
  let r := s.transRange (left / 4096 + 2) d.stack d.xctx (.desc d.ring d.handle 1) 0 1
    ((d.word 1).toNat + d.imageHeld) left d.segs
  let u := r.1.modStack d.stack (fun k => k.leaveMisses d.handle)
  match r.2 with
  | .segs l =>
    if maxSegs < l.length then u.readImage (d.imageCut l)
    else if segStore < u.segsHeld d.stack + (l.length - d.segs.length) then
      u.modDesc d.handle (fun x => { x with st := .waitSegs, phase := .header })
    else u.readImage { d with segs := l }
  | .faulted l => u.modDesc d.handle (fun x => { x with st := .waitFault, phase := .header, before := l })
  | .many _ l => u.readImage (d.imageCut l)
  | .noWalker =>
    (r.1.modStack d.stack (fun k => k.awaitWalker d.handle d.waiter)).modDesc d.handle (fun x =>
      { x with st := .waitSegs, phase := .header })

/-- The image has been read, or what of it can be: the checks of R134 in order, then R160, then the start. A LAUNCH that its fetch
found wrong keeps that status unless its program needs an absent unit (R10). -/
def State.checkImage (s : State) (d : Desc) : State :=
  match s.programFlaw d with
  | .absent => (s.modDesc d.handle (fun x => { x with status := 0 })).failDesc d.handle stAbsent 0
  | .badDesc => s.failDesc d.handle stBad 8
  | .none =>
    if d.headerBad || s.benchesBad d then s.failDesc d.handle stBad 8
    else match s.vacantNamed d with
      | some b => s.failDesc d.handle stFault b
      | none => if d.status = 0 then s.startLaunch d else s.failDesc d.handle stBad 8

/-- What was translated of the image has been read. -/
def State.imageRead (s : State) (d : Desc) : State :=
  if d.data.length < s.imageLen d ∧ d.status.toNat ≠ stFault then (s.restOfImage d).writeFound s d.stack
  else s.checkImage { d with data := d.data.take (s.imageLen d) }

/-- Every access of the present phase has been answered: the descriptor moves on. A poisoned reply ends
it with FAULT at the operand's word (13_memory_tiers.md R417). -/
def State.phaseEnd (s : State) (d : Desc) : State :=
  let rs := s.descReqs d
  let t := s.dropDescReqs d
  match d.phase with
  | .ending => t.finishDesc d.handle
  | .source =>
    let e : Desc := { d with data := d.data ++ s.descReplies d }
    match rs.find? (·.poisoned) with
    | some r =>
      let f := e.failAt stFault r.acc
      if s.imageTells d then (t.modDesc d.handle (fun _ => f)).imageRead f else t.failDesc d.handle stFault r.acc
    | none =>
      let u := t.modDesc d.handle (fun _ => e)
      if d.opcode = dLaunch then u.imageRead e
      else u.storeDest e
  | .dest => t.afterDest d
  | .flag => t.finishDesc d.handle
  | .idle | .held | .header => s

/-- The descriptor moves on if nothing of it is outstanding; one with nothing left to read or write
passes several phases at once. -/
def State.moveDesc : Nat → State → Nat → State
  | 0, s, _ => s
  | fuel + 1, s, h =>
    match s.desc? h with
    | none => s
    | some d =>
      if d.st = .waitHeader then (s.takeImageHeader h).writeFound s d.stack
      else if decide (d.st = .running) && (s.descReqs d).all (fun r => decide (r.st = .done))
          && d.phase != .idle && d.phase != .held && d.phase != .header then
        State.moveDesc fuel (s.phaseEnd d) h
      else s

/-- Phases that can pass at once. -/
def moveFuel : Nat := 6

/-- Begin reading operand `word`. -/
def State.beginRead (s : State) (d : Desc) (p : DescPhase) (word : Nat) : State :=
  ((s.phase d.handle p).readOperand d word 0).moveDesc moveFuel d.handle

/-! ### The commands -/

/-- The meaning of a started descriptor of an opcode. -/
def onStarted (s : State) (h op : Nat) (f : Desc → State) : Res :=
  match s.desc? h with
  | none => .next s
  | some d => whenOk (decide (d.st = .started) && d.opcode == op) s (f d)

/-- COPY. -/
def execCopy (desc : Nat) (s : State) : Res :=
  onStarted s desc dCopy (fun d =>
    if d.length = 0 then s.afterDest d
    else if d.flag 3 63 then
      let e : Desc := { d with data := s.hostRead (d.word 1).toNat d.length, st := .running, phase := .dest }
      (s.modDesc desc (fun _ => e)).storeDest e
    else s.beginRead d .source 1)

/-- FILL. -/
def execFill (desc : Nat) (s : State) : Res :=
  onStarted s desc dFill (fun d =>
    let bs := fillBytes (d.word 2) d.length
    if d.flag 3 62 then (s.hostWrite (d.word 1).toNat bs).finishDesc desc
    else ((s.phase desc .dest).writeOperand d opStore 1 bs).moveDesc moveFuel desc)

/-- KEYSTONE. -/
def execKeystone (desc : Nat) (s : State) : Res :=
  onStarted s desc dKeystone (fun d => s.lastStore d true opKeystone 1 (d.word 2))

/-- NOP. -/
def execNopDescriptor (desc : Nat) (s : State) : Res := onStarted s desc dNop (fun _ => s.finishDesc desc)

/-- The accesses that a FENCE of `job` covers: those outstanding of contexts of the job's benches, loads
apart. -/
def State.fenceCovers (s : State) (n job : Nat) : List Nat :=
  distinct ((s.stack n).reqs.filterMap (fun r => match r.src with
    | .ctx b _ => if r.op ≠ opLoad ∧ r.st ≠ .done ∧ s.jobOf n b = job then some r.acc else none
    | .ring _ _ => none
    | .rebuild _ => none))

/-- FENCE: it completes when the accesses it covers have been acknowledged; at once for job 0. -/
def execFence (desc : Nat) (s : State) : Res :=
  onStarted s desc dFence (fun d =>
    let job := d.bits 1 63 48
    if job = 0 then s.finishDesc desc
    else s.modDesc desc (fun x =>
      { x with st := .running, phase := .held, waits := s.fenceCovers d.stack job }))

/-- A descriptor is armed for its beat. -/
def State.arm (s : State) (h : Nat) : State := s.modDesc h (fun d => { d with st := .armed })

/-- WAIT_BEAT and AT_BEAT are armed. -/
def execWaitBeat (desc : Nat) (s : State) : Res := onStarted s desc dWaitBeat (fun _ => s.arm desc)
def execAtBeat (desc : Nat) (s : State) : Res := onStarted s desc dAtBeat (fun _ => s.arm desc)

/-- The meaning of an armed descriptor of an opcode at its beat. -/
def onFire (s : State) (h op : Nat) (f : Desc → State) : Res :=
  match s.desc? h with
  | none => .next s
  | some d => whenOk (d.opcode == op && s.fires d) s (f d)

/-- WAIT_BEAT_RELEASE. -/
def execWaitBeatRelease (desc : Nat) (s : State) : Res :=
  onFire s desc dWaitBeat (fun _ => s.finishDesc desc)

/-- AT_BEAT_RELEASE. -/
def execAtBeatRelease (desc : Nat) (s : State) : Res :=
  onFire s desc dAtBeat (fun d =>
    s.lastStore d true (if d.flag 1 63 then opKeystone else opStore) 2 (d.word 3))

/-- SNAPSHOT is armed for its beat. -/
def execSnapshot (desc : Nat) (s : State) : Res := onStarted s desc dSnapshot (fun _ => s.arm desc)

/-- SNAPSHOT_START: at its beat it reads its source; with length 0 it stores the digest of nothing. -/
def execSnapshotStart (desc : Nat) (s : State) : Res :=
  onFire s desc dSnapshot (fun d => if d.length = 0 then s.afterDest d else s.beginRead d .source 2)

/-- LAUNCH: the image is read whole, for R134 tells the units that its program needs before anything else. Where
the module has every unit, the checks of the named benches come first. -/
def execLaunch (desc : Nat) (s : State) : Res :=
  onStarted s desc dLaunch (fun d =>
    if !s.mayLack && s.benchesBad d then s.failDesc desc stBad 8
    else (s.modDesc desc (fun x => { x with data := [] })).beginRead { d with data := [] } .source 1)

/-- The contexts that a LAUNCH has started and that still belong to it. -/
def State.launched (s : State) (d : Desc) : List (Nat × Ctx) :=
  d.named.flatMap (fun b => (d.starts.map (fun c => (b, (s.bench d.stack b).ctx c))).filter
    (fun p => p.2.launch == d.handle))

/-- A LAUNCH takes the outcome of the contexts that it has started (R135). -/
def State.endLaunch (s : State) (d : Desc) : State :=
  (s.modDesc d.handle (fun x => (s.launched d).foldl (fun y p => y.takeOutcome p.1 p.2) x)).finishDesc d.handle

/-- LAUNCH_COMPLETE: every started context has reached IDLE or HALTED. -/
def execLaunchComplete (desc : Nat) (s : State) : Res :=
  match s.desc? desc with
  | none => .next s
  | some d =>
    let l := s.launched d
    whenOk (d.opcode == dLaunch && decide (d.st = .running) && decide (d.phase = .held)
        && l.all (fun p => decide (p.2.st = .idle) || decide (p.2.st = .halted))) s
      (s.endLaunch d)

/-! ### Translating again, and completion (R201, R209, R211, R224, R225; 08_translation.md R248) -/

/-- Translate the operands of a descriptor again: one that had not started stands fetched, and a LAUNCH
goes on with its image (08_translation.md R250). -/
def State.prepareAgain (s : State) (d : Desc) : State :=
  if d.phase = .header then (s.restOfImage d).moveDesc moveFuel d.handle
  else
    let t := if d.st = .waitHeader then s.dropDescReqs d else s
    let p := t.prepare d
    p.1.prepared p.2

/-- Descriptors that wait for room in the segment store, or for a walker, are translated again. -/
def State.retrySegs (s : State) (n : Nat) : State :=
  s.host.descs.foldl (fun t d => if d.stack = n ∧ d.st = .waitSegs then t.prepareAgain d else t) s

/-- The covered accesses of a FENCE that are still unanswered (R282). -/
def State.fenceOpen (s : State) (d : Desc) : Bool :=
  (s.stack d.stack).reqs.any (fun r => r.byCtx && d.waits.contains r.acc && decide (r.st ≠ .done))

/-- A descriptor's effects are acknowledged: it has finished, or is a FENCE whose accesses are all
answered. -/
def State.settledDesc (s : State) (d : Desc) : Bool :=
  decide (d.st = .finished)
    || (decide (d.st = .running) && decide (d.phase = .held) && d.opcode == dFence && !s.fenceOpen d)

/-- COMPLETION_WRITE. -/
def execCompletionWrite (desc : Nat) (cxlErr : Bool) (s : State) : Res :=
  match s.desc? desc with
  | none => .next s
  | some d =>
    whenOk (s.settledDesc d) s
      (let t := s.setDescs (s.host.descs.filter (fun x => x.handle != desc))
       let u := match d.ring with
         | .host r => t.completeHost r d cxlErr
         | .dev n r => t.completeDev n r d
       (u.retrySegs d.stack).writeFound s d.stack)

end Sys2Proof.Machine
end

