-- ==== Sys2Proof/Machine/Faults.lean ====
section
/-! DEFINITION. Walks, page faults and their resolution, shootdowns, and the translation registers of a
stack (08_translation.md R243 to R266). -/

namespace Sys2Proof.Machine

/-! ### Walks (R243 to R245) -/

/-- The context that issued a request shows the state that the request now leaves it in. -/
def State.refreshSrc (s : State) (n : Nat) (r : Req) : State :=
  match r.src with
  | .ctx b c => s.refresh ⟨n, b, c⟩
  | .ring _ _ => s
  | .rebuild _ => s

/-- WALK_START: the miss that has waited longest takes a free walker, or joins what has begun for its
page meanwhile. -/
def State.startWalk (s : State) (n : Nat) (r : Req) : State :=
  let page := pageOf r.va
  (s.modStack n (fun k =>
    let k := { k with misses := k.misses.filter (fun w => !w.isReq r.id) }
    if (k.faultOf r.xctx page).isSome then
      (if s.killedReq n r then { k with reqs := k.reqs.filter (fun q => q.id != r.id) }
       else k.joinFault r.xctx page (waiterOf r))
    else if k.walks.any (fun w => w.ctx == r.xctx && w.page == page) then
      k.joinWalk r.xctx page (waiterOf r)
    else
      { k with walks := k.walks ++
        [{ ctx := r.xctx, page := page, access := BitVec.ofNat 2 (accessCode r.op), waiters := [waiterOf r] }] })).settleLate
    n |>.refreshSrc n r

/-- A descriptor whose miss has waited longest is translated. -/
def State.startDescWalk (s : State) (n h : Nat) : State :=
  match s.desc? h with
  | some d =>
    if d.stack = n ∧ d.st = .waitSegs then (s.prepareAgain d).writeFound s n
    else s.modStack n (fun k => k.leaveMisses h)
  | none => s.modStack n (fun k => k.leaveMisses h)

/-- WALK_START: `req` is the request, or the descriptor, whose miss has waited longest. -/
def execWalkStart (stack req : Nat) (s : State) : Res :=
  onStack stack
    (let k := s.stack stack
     if k.walkersBusy < s.walkers stack then
       match k.misses.head? with
       | some (.ctx _ _ i) =>
         whenOk (i == req) s (match k.reqs.find? (fun r => r.id == req) with
           | some r => s.startWalk stack r
           | none => s.modStack stack (fun k => { k with misses := k.misses.filter (fun w => !w.isReq req) }))
       | some (.desc _ h _) => whenOk (h == req) s (s.startDescWalk stack h)
       | none => .next s
     else .next s)

/-- The contexts among waiters. -/
def waiterCtxs (n : Nat) (ws : List Waiter) : List CtxId :=
  ws.filterMap (fun w => match w with
    | .ctx b c _ => some ⟨n, b, c⟩
    | .desc _ _ _ => none)

def State.refreshAll (s : State) (cs : List CtxId) : State := cs.foldl (fun t c => t.refresh c) s

/-- Requests of killed contexts leave a walk that faults (R261). -/
def State.liveWaiters (s : State) (n : Nat) (ws : List Waiter) : List Waiter :=
  ws.filter (fun w => match w with
    | .ctx b c _ => decide ((s.ctx ⟨n, b, c⟩).st ≠ .killed)
    | .desc _ _ _ => true)

/-- The requests of waiters that have left are gone. -/
def Stack.dropLeft (k : Stack) (all live : List Waiter) : Stack :=
  let gone := all.filterMap (fun w => match w with
    | .ctx _ _ r => if live.contains w then none else some r
    | .desc _ _ _ => none)
  { k with reqs := k.reqs.filter (fun r => !gone.contains r.id) }

/-- Every waiter's translation is tried again. -/
def State.releaseWaiters (s : State) (n : Nat) (ws : List Waiter) : State :=
  let t := ws.foldl (fun t w => match w with
    | .ctx _ _ r => t.retryReq n r
    | .desc _ h _ => match t.desc? h with
      | some d => if d.st = .waitFault then t.prepareAgain d else t
      | none => t) s
  t.refreshAll (waiterCtxs n ws)

/-- WALK_COMPLETE: the tables are read, the buffer is filled or a fault opens. -/
def State.endWalk (s : State) (n : Nat) (w : Walk) : State :=
  let s0 := s.modStack n (fun k => { k with walks := k.walks.filter (fun x => x != w) })
  let r := s0.walk n w.ctx (w.page * 4096)
  match r.2 with
  | .leaf _ => ((r.1.releaseWaiters n w.waiters).retrySegs n).writeFound s n
  | .fault cause level entry =>
    let live := r.1.liveWaiters n w.waiters
    let t := ((r.1.modStack n (fun k => k.dropLeft w.waiters live)).settleLate n).openFault n w.ctx w.page cause level
      w.access.toNat entry live
    ((t.refreshAll (waiterCtxs n live)).retrySegs n).writeFound s n

def execWalkComplete (stack ctx page : Nat) (s : State) : Res :=
  onStack stack (match (s.stack stack).walks.find? (fun w => w.ctx == ctx && w.page == page) with
    | some w => whenOk (!s.walkBusy stack ctx (page * 4096)) s (s.endWalk stack w)
    | none => .next s)

/-! ### The fault queue (R257 to R262) -/

/-- HELD_FAULT_WRITE: the fault held longest is written when the queue has room. -/
def execHeldFaultWrite (stack : Nat) (s : State) : Res :=
  onStack stack (match (s.stack stack).faults.find? (fun f => f.seq.isNone) with
    | none => .next s
    | some f =>
      whenOk (s.fqOpen stack) s
        (let p := s.writeFault stack f
         (p.1.modStack stack (fun k =>
           { k with faults := k.faults.map (fun g => if g = f then p.2 else g) })).retrySegs stack |>.writeFound s stack))

/-- A fault closes. No two open faults are of one page (R245). -/
def Stack.closeFault (k : Stack) (f : Fault8) : Stack :=
  { k with faults := k.faults.filter (fun g => !(g.ctx == f.ctx && g.page == f.page)) }

/-- RETRY: every waiter walks again. -/
def State.retryFault (s : State) (n : Nat) (f : Fault8) : State :=
  ((s.modStack n (fun k => k.closeFault f)).releaseWaiters n f.waiters).writeFound s n

/-- A LAUNCH whose image waits on a fault that fails: what stands before the page is still read where it can tell that
an absent unit is needed (R10). -/
def State.failWaiter (s : State) (h word : Nat) : State :=
  match s.desc? h with
  | none => s
  | some d =>
    if d.st = .waitFault ∧ s.imageTells d = true then
      let e := d.imageCut d.before
      if d.phase = .header then (s.readImage e).moveDesc moveFuel h
      else s.modDesc h (fun _ => { e with st := .fetched })
    else s.failDesc h stFault word

/-- FAIL: descriptor waiters complete with FAULT, context waiters are killed. -/
def State.failFault (s : State) (n : Nat) (f : Fault8) : State :=
  let t := (waiterCtxs n f.waiters).foldl (fun t c => t.killCtx c false) s
  let u := f.waiters.foldl (fun t w => match w with
    | .ctx _ _ _ => t
    | .desc _ h word => t.failWaiter h word) t
  u.modStack n (fun k => k.closeFault f)

/-- A write of XLT_FQ_RESOLVE. Where a fault of before the queue was last turned on carries the seq of a later
one, the later is meant (log entry 177). -/
def State.wrFqResolve (n : Nat) (v live : Word) (s : State) : State :=
  if writesField live XLT_FQ_RESOLVE_SEQ then
    match (s.stack n).faults.reverse.find? (fun f => f.seq == some (BitVec.ofNat 16 (getF v XLT_FQ_RESOLVE_SEQ))) with
    | none => s.countAt (.XLT_FQ_RESOLVE n)
    | some f => if getF v XLT_FQ_RESOLVE_ACTION = 0 then s.retryFault n f else s.failFault n f
  else s

/-- FAULT_RETRY and FAULT_FAIL: writes of XLT_FQ_RESOLVE. -/
def execFaultRetry (who : Requester) (stack : Nat) (seq : BitVec 16) (s : State) : Res :=
  stackWrite stack who (.XLT_FQ_RESOLVE stack) s (State.wrFqResolve stack (seq.setWidth 64) wholeWrite)

def execFaultFail (who : Requester) (stack : Nat) (seq : BitVec 16) (s : State) : Res :=
  stackWrite stack who (.XLT_FQ_RESOLVE stack) s
    (State.wrFqResolve stack (0x10000 ||| seq.setWidth 64) wholeWrite)

/-- A write of XLT_CFG (Table 08-10). -/
def State.wrXltCfg (n : Nat) (v live : Word) (s : State) : State :=
  let q : Reg := .XLT_CFG n
  let t := s.plainWrite q v live
  let was := s.bit q XLT_CFG_FQ_ON
  if was ∧ t.fld q XLT_CFG_FQ_BASE ≠ s.fld q XLT_CFG_FQ_BASE then s.countAt q
  else if t.bit q XLT_CFG_FQ_ON ∧ 124 < t.fld q XLT_CFG_FQ_BASE then
    (t.setBit q XLT_CFG_FQ_ON false).countAt q
  else if t.bit q XLT_CFG_FQ_ON ∧ was = false then
    (t.setFld (.XLT_FQ_IDX n) XLT_FQ_IDX_HEAD 0).setFld (.XLT_FQ_IDX n) XLT_FQ_IDX_TAIL 0
  else t

/-- FQ_CFG_WRITE. -/
def execFqCfgWrite (who : Requester) (stack : Nat) (value : Word) (s : State) : Res :=
  stackWrite stack who (.XLT_CFG stack) s (State.wrXltCfg stack value wholeWrite)

/-! ### Shootdowns (R250 to R255, R266) -/

def spaceSize : Nat := 2 ^ 57

def TlbEntry.hits (e : TlbEntry) (ctx lo len : Nat) : Bool := e.ctx == ctx && overlap e.va e.size lo len

/-- The range that a walk-cache entry covers. -/
def WalkPtr.hits (p : WalkPtr) (ctx lo len : Nat) : Bool :=
  let span := levelSize (p.level + 1)
  p.ctx == ctx && overlap (p.va / span * span) span lo len

/-- A descriptor holds a translation of the range, be it one that it keeps while it waits on a fault. -/
def Desc.segsHit (d : Desc) (n ctx lo len : Nat) : Bool :=
  d.stack == n && d.xctx == ctx && (d.segs ++ d.before).any (fun x => overlap x.va x.len lo len)

/-- The contexts whose accesses a shootdown waits for: those with an access translated through a
dropped entry, or with an unanswered access to the range. -/
def Stack.drainCtxs (k : Stack) (ctx lo len : Nat) : List (Nat × Nat) :=
  (k.tlb.filter (fun e => e.hits ctx lo len)).flatMap (·.users)
    ++ k.reqs.filterMap (fun r => match r.src with
      | .ctx b c => if r.xctx = ctx ∧ r.st ≠ .walking ∧ overlap r.va r.len lo len then some (b, c) else none
      | .ring _ _ => none
      | .rebuild _ => none)

/-- The accesses that a shootdown waits for. -/
def Stack.drainAccs (k : Stack) (ctx lo len : Nat) : List Nat :=
  let cs := k.drainCtxs ctx lo len
  distinct (k.reqs.filterMap (fun r => match r.src with
    | .ctx b c => if r.xctx = ctx ∧ r.st ≠ .done ∧ cs.contains (b, c) then some r.acc else none
    | .ring _ _ => none
    | .rebuild _ => none))

/-- Start a shootdown: drop, translate again, which may make room in the segment store, and wait. A walk under way reads its tables when it ends,
after the drop. -/
def State.shoot (s : State) (n ctx lo len : Nat) (asker : Option Nat) : State × Nat :=
  let id := s.fresh
  let k := s.stack n
  let sh : Shoot :=
    { id := id.1, ctx := ctx, lo := lo, len := len,
      descs := (s.host.descs.filter (fun d => d.segsHit n ctx lo len && !d.unstarted)).map (·.handle),
      reqs := k.drainAccs ctx lo len, asker := asker }
  let t := id.2.modStack n (fun k =>
    { k with
      tlb := k.tlb.filter (fun e => !e.hits ctx lo len)
      walkCache := k.walkCache.filter (fun p => !p.hits ctx lo len)
      shoots := k.shoots ++ [sh] })
  let again := s.host.descs.filter (fun d => d.segsHit n ctx lo len && d.unstarted)
  (((again.foldl (fun u d => (u.leaveFaultsDesc d).prepareAgain { d with data := [] }) t).retrySegs n).writeFound s n, id.1)

/-- The drain step of a shootdown has nothing left to wait for. -/
def State.shootDrained (s : State) (n : Nat) (sh : Shoot) : Bool :=
  !s.host.descs.any (fun d => sh.descs.contains d.handle)
    && !(s.stack n).reqs.any (fun r => r.byCtx && sh.reqs.contains r.acc && decide (r.st ≠ .done))

/-- The INVALIDATE that asked has one shootdown less to wait for. -/
def State.shootAnswered (s : State) (h id : Nat) : State :=
  let t := s.modDesc h (fun d => { d with waits := d.waits.filter (fun i => i != id) })
  match t.desc? h with
  | some d => if d.waits.isEmpty && decide (d.st = .running) then t.finishDesc h else t
  | none => t

/-- SHOOTDOWN_DRAIN_DONE. -/
def execShootdownDrainDone (stack id : Nat) (s : State) : Res :=
  onStack stack (match (s.stack stack).shoots.find? (fun x => x.id == id) with
    | none => .next s
    | some sh =>
      whenOk (s.shootDrained stack sh) s
        (let t := s.modStack stack (fun k => { k with shoots := k.shoots.filter (fun x => x.id != id) })
         match sh.asker with
         | none => t.setBit (.XLT_CTX stack sh.ctx) XLT_CTX_BUSY false
         | some h => t.shootAnswered h id))

/-- A write of XLT_CTX (R266). -/
def State.wrXltCtx (n c : Nat) (v live : Word) (s : State) : State :=
  let q : Reg := .XLT_CTX n c
  if s.bit q XLT_CTX_BUSY then s.countAt q
  else
    let t := s.plainWrite q v live
    if s.bit q XLT_CTX_ENABLE &&
        (!t.bit q XLT_CTX_ENABLE || t.fld q XLT_CTX_ROOT != s.fld q XLT_CTX_ROOT) then
      ((t.setBit q XLT_CTX_BUSY true).shoot n c 0 spaceSize none).1
    else t

/-- CONTEXT_WRITE. -/
def execContextWrite (who : Requester) (stack ctx : Nat) (value : Word) (s : State) : Res :=
  if ctx < 256 then stackWrite stack who (.XLT_CTX stack ctx) s (State.wrXltCtx stack ctx value wholeWrite)
  else noUnit

/-- The stacks that an INVALIDATE names. -/
def State.invalStacks (s : State) (d : Desc) : List Nat :=
  if d.flag 2 62 then stackNums.filter (fun n => s.ringStack d.ring n) else [d.stack]

/-- INVALIDATE (R253, R229): one shootdown on each stack; length 0 drops nothing. -/
def execInvalidate (desc : Nat) (s : State) : Res :=
  onStarted s desc dInvalidate (fun d =>
    if d.bits 2 39 0 = 0 ∨ (s.invalStacks d).isEmpty = true then s.finishDesc desc
    else
      (s.invalStacks d).foldl (fun t n =>
        let p := t.shoot n d.xctx (d.word 1).toNat (d.bits 2 39 0) (some desc)
        p.1.modDesc desc (fun x => { x with waits := x.waits ++ [p.2] })) (s.phase desc .held))

end Sys2Proof.Machine
end

