-- ==== Sys2Proof/Machine/Teardown.lean ====
section
/-! DEFINITION. Dead nodes and what is abandoned with them, the end of a span at its source, and the
teardown of a job (09_fabric_memory.md R294 to R299; 12_collectives.md R405; 18_faults_and_recovery.md
R526 to R532). -/

namespace Sys2Proof.Machine

/-! ### Spans at their source -/

def State.span? (s : State) (n : Nat) (id : BitVec 16) : Option SpanOut :=
  (s.stack n).spansOut.find? (fun x => x.id == id)

def State.modSpan (s : State) (n : Nat) (id : BitVec 16) (f : SpanOut → SpanOut) : State :=
  s.modStack n (fun k => { k with spansOut := k.spansOut.map (fun x => if x.id = id then f x else x) })

/-- The number by which a request names its span. -/
def SpanOut.tag (x : SpanOut) : Nat := x.id.toNat + 1

def msgSpanRelease : Nat := 0x09

def State.spanRelease (s : State) (n : Nat) (id : BitVec 16) : State :=
  s.mgmt (s.node n) msgSpanRelease (le2 id.toNat)

/-- The span_id that a SPAN_CLOSE names. -/
def Desc.closes (d : Desc) : BitVec 16 := BitVec.ofNat 16 (d.bits 1 63 48)

/-- A span is CLOSED: SPAN_RELEASE is sent, and every SPAN_CLOSE that waits for it has finished (R315,
R317). -/
def State.dropSpan (s : State) (n : Nat) (x : SpanOut) : State :=
  let t := (s.modStack n (fun k =>
    { k with
      spansOut := k.spansOut.filter (fun y => y.id != x.id)
      reqs := k.reqs.map (fun r => { r with offers := r.offers.filter (fun i => i != x.id) }) })).spanRelease n x.id
  (s.host.descs.filter (fun d => d.opcode == dSpanClose && d.stack == n && d.closes == x.id
    && decide (d.phase = .held))).foldl (fun u d => u.finishDesc d.handle) t

/-! ### Abandoning requests (R296 to R298) -/

/-- The job that a bench's register holds, vacant or not. -/
def State.rawJob (s : State) (n b : Nat) : Nat := s.fld (.BCH_BENCH_CFG n b) BCH_BENCH_CFG_JOB

def outstandingReq (r : Req) : Bool := decide (r.st = .held) || decide (r.st = .sent)

/-- The jobs of the contexts that issued some requests. -/
def State.jobsOf (s : State) (n : Nat) (rs : List Req) : List Nat :=
  (distinct (rs.filterMap (fun r => match r.src with
    | .ctx b _ => some (s.rawJob n b)
    | .ring _ _ => none
    | .rebuild _ => none))).filter (fun j => j != 0)

/-- A descriptor met a dead or fenced node (R297). -/
def State.deadDesc (s : State) (h status : Nat) (node : BitVec 16) : State :=
  (s.failDesc h status node.toNat).moveDesc moveFuel h

/-- A FENCE that covers one of these accesses will complete with the node's status (R298). -/
def State.deadFences (s : State) (n : Nat) (accs : List Nat) (status : Nat) (node : BitVec 16) : State :=
  s.setDescs (s.host.descs.map (fun d =>
    if d.opcode = dFence ∧ d.stack = n ∧ d.st = .running ∧ d.status = 0
        ∧ d.waits.any (fun i => accs.contains i) = true then
      { d with status := BitVec.ofNat 8 status, detail := node.setWidth 32 }
    else d))

/-- What descriptors, fences and rebuilds make of requests that are gone, or answered at the source, for a
node. -/
def State.tellIssuers (s : State) (n : Nat) (gone : List Req) (status : Nat) (node : BitVec 16) : State :=
  let accs := gone.filterMap (fun r => match r.src with
    | .ctx _ _ => some r.acc
    | .ring _ _ => none
    | .rebuild _ => none)
  gone.foldl (fun t r => match r.src with
    | .ring _ h => t.deadDesc h status node
    | .rebuild q => t.modStack n (fun k =>
        { k with rebuilds := k.rebuilds.map (fun b =>
            if b.req.request.toNat = q then { b with result := 3 } else b) })
    | .ctx _ _ => t) (s.deadFences n accs status node)

/-- Abandon the outstanding requests that `p` picks. The jobs whose contexts issued them come back. -/
def State.abandon (s : State) (n : Nat) (p : Req → Bool) (status : Nat) (node : BitVec 16) :
    State × List Nat :=
  let goes (r : Req) : Bool := outstandingReq r && p r
  let gone := (s.stack n).reqs.filter goes
  let t := s.modStack n (fun k => { k with reqs := k.reqs.filter (fun r => !goes r) })
  (t.tellIssuers n gone status node, s.jobsOf n gone)

/-! ### Teardown (R527 to R529) -/

def causeDead : Nat := 1
def causeBench : Nat := 2
def causeStack : Nat := 3
def causeRelease : Nat := 4
def causeMessage : Nat := 5

/-- The benches that carry a job. -/
def State.jobBenches (s : State) (n job : Nat) : List Nat :=
  (List.range 336).filter (fun b => s.rawJob n b == job)

def State.jobCtxs (s : State) (n job : Nat) : List CtxId :=
  ((s.stack n).contexts n).filter (fun c => s.rawJob n c.bench == job)

/-- A context of a job owns translation context `c` (R527). -/
def Stack.owns (k : Stack) (job c : Nat) : Bool := Tab.get 0 k.owner c == job

/-- A frame that waits at the abutment is of a collective that ends: its group's up label and its instance. -/
def Stack.frameOf (k : Stack) (h : Nat) (f : Frame) : Bool :=
  k.colls.any (fun c => c.desc == h && bitsOf (leNat ((f.payload.drop 8).take 8)) 47 40 == c.inst.toNat
    && k.groups.any (fun g => g.id == c.group && g.up == f.label))

/-- A collective ends: its abutment sends no further frame for it. -/
def State.dropColl (s : State) (n h : Nat) : State :=
  s.modStack n (fun k =>
    { k with
      colls := k.colls.filter (fun c => c.desc != h)
      upWait := k.upWait.filter (fun f => !k.frameOf h f) })

/-- The job of a LAUNCH (07_rings_and_doorbells.md R216). -/
def Desc.launchJob (d : Desc) : Nat := bitsOf (d.word 2).toNat 63 48

/-- A descriptor of a torn job ends with TORN_DOWN. A LAUNCH of the job whose contexts have started ends as R135
gives. -/
def State.tearDesc (s : State) (n job : Nat) (d : Desc) : State :=
  if d.st = .finished ∨ (d.opcode = dLaunch ∧ d.phase = .held ∧ d.launchJob = job) then s
  else (((s.leaveFaultsDesc d).dropColl n d.handle).failDesc d.handle stTorn job).moveDesc moveFuel d.handle

/-- One job is torn down, steps 1 to 3 of R529; the jobs that this abandons accesses of come back, each with the node that
it met (R298). -/
def State.tearOne (s : State) (n job cause : Nat) : State × List (Nat × BitVec 16) :=
  let t := (s.jobCtxs n job).foldl (fun u c => u.killCtx c true) s
  let ds := t.host.descs.filter (fun d => d.stack == n && (t.stack n).owns job d.xctx)
  let u := ds.foldl (fun u d => u.tearDesc n job d) t
  let spans := (u.stack n).spansOut.filter (fun x => (u.stack n).owns job x.xctx)
  let v := spans.foldl (fun (p : State × List (Nat × BitVec 16)) x =>
    let q := (p.1.dropSpan n x).abandon n (fun r => r.span == x.tag) stDead x.dstNode
    (q.1, p.2 ++ q.2.map (fun j => (j, x.dstNode)))) (u, [])
  (v.1.modStack n (fun k =>
    { k with tears := k.tears ++ [⟨BitVec.ofNat 16 job, cause, false⟩] }), v.2)

def Stack.tearing (k : Stack) (job : Nat) : Bool := k.tears.any (fun x => x.job.toNat == job)

/-- A cause arrives during a teardown of the same job: the lowest code is reported (R528). -/
def Stack.lowerCause (k : Stack) (job cause : Nat) : Stack :=
  { k with tears := k.tears.map (fun x =>
      if x.job.toNat = job then { x with cause := Nat.min x.cause cause } else x) }

/-- JOB_FROZEN and TEARDOWN to the stack runtime, for a cause of a dead or fenced node (09_fabric_memory.md R296,
Table 09-8). -/
def State.tellFrozen (s : State) (n job cause : Nat) (node : BitVec 16) : State :=
  if cause = causeDead then (s.notice 2 n (le2 job ++ le2 node.toNat)).event n evTeardown noBench 0 job else s

/-- Tear down jobs, and the jobs whose accesses that abandons (R298). -/
def State.tearJobs : Nat → State → Nat → List (Nat × Nat × BitVec 16) → State
  | 0, s, _, _ => s
  | _ + 1, s, _, [] => s
  | fuel + 1, s, n, (job, cause, node) :: rest =>
    if job = 0 then State.tearJobs fuel s n rest
    else if (s.stack n).tearing job then
      State.tearJobs fuel (s.modStack n (fun k => k.lowerCause job cause)) n rest
    else
      let p := (s.tellFrozen n job cause node).tearOne n job cause
      State.tearJobs fuel p.1 n (rest ++ p.2.map (fun j => (j.1, causeDead, j.2)))

/-- Each of the 336 jobs that the benches can carry leaves at most that many behind. -/
def tearFuel : Nat := 336 * 337 + 336

/-- Tear down one job of a stack. -/
def State.tearJob (s : State) (n job cause : Nat) : State :=
  s.tearJobs tearFuel n [(job, cause, s.node n)]

/-! ### Dead nodes (R294 to R298) -/

def Stack.isDead (k : Stack) (node : BitVec 16) : Bool := k.dead.contains node

/-- An access met a dead or fenced node: the jobs are frozen, and ABT_DEAD_STATUS names the first of
them. -/
def State.freeze (s : State) (n : Nat) (node : BitVec 16) (jobs : List Nat) : State :=
  s.tearJobs tearFuel n (jobs.map (fun j => (j, causeDead, node)))

def howNotice : Nat := 1
def howTimer : Nat := 2
def howFenced : Nat := 3

/-- The bit of ABT_DEAD_STATUS that a mark sets. -/
def seenBit (how : Nat) : Field :=
  if how = howTimer then ABT_DEAD_STATUS_TIMER_SEEN
  else if how = howFenced then ABT_DEAD_STATUS_FENCED_SEEN
  else ABT_DEAD_STATUS_NOTICE_SEEN

/-- ABT_DEAD_STATUS after a node is marked dead or met as fenced. -/
def State.deadStatus (s : State) (n : Nat) (node : BitVec 16) (how : Nat) (jobs : List Nat) : State :=
  let r : Reg := .ABT_DEAD_STATUS n
  (((s.setFld r ABT_DEAD_STATUS_LAST_NODE node.toNat).setFld r ABT_DEAD_STATUS_LAST_JOB
    (jobs.head?.getD 0)).setBit r (seenBit how) true)

/-- The status of a descriptor that meets a node (R295, R297). -/
def Stack.deadCode (k : Stack) (node : BitVec 16) : Nat :=
  if k.fenced.contains node then stFenced else stDead

/-- Spans that a dead node closes (R335). -/
def SpanOut.live (x : SpanOut) : Bool :=
  match x.st with
  | .active | .draining | .paused | .closing => true
  | .requested | .armed | .closed => false

/-- Mark a node dead, or as fenced, at a source abutment: every outstanding request to it is abandoned,
the spans to it are closed, and its issuers learn of it. A node that is already marked is left as it
stands. -/
def State.markDead (s : State) (n : Nat) (node : BitVec 16) (how : Nat) : State :=
  let k := s.stack n
  if k.dead.contains node ∨ k.fenced.contains node then
    (if how = howFenced then s.deadStatus n node how [] else s)
  else
    let t := s.modStack n (fun k =>
      if how = howFenced then { k with fenced := node :: k.fenced } else { k with dead := node :: k.dead })
    let t := (t.satFld (.ABT_DEAD_STATUS n) ABT_DEAD_STATUS_COUNT 1).notice 1 n (le2 node.toNat ++ le1 how)
    let code := (t.stack n).deadCode node
    let u := (k.spansOut.filter (fun x => x.dstNode == node && x.live)).foldl (fun u x => u.dropSpan n x) t
    let p := u.abandon n (fun r => r.node == node) code node
    (p.1.deadStatus n node how p.2).freeze n node p.2

/-- A request meets a node marked dead or fenced before: it is answered at the source (R298). A fenced
node is seen again. -/
def State.meetDead (s : State) (n : Nat) (r : Req) : State :=
  let code := (s.stack n).deadCode r.node
  let p := s.abandon n (fun x => x.id == r.id) code r.node
  let t := if code = stFenced then p.1.deadStatus n r.node howFenced p.2 else p.1
  t.freeze n r.node p.2

/-! ### The commands -/

/-- TEARDOWN (R531) on one stack. -/
def State.teardownOn (s : State) (n job : Nat) : State :=
  if !s.stackUp n ∨ (s.jobBenches n job).isEmpty then s.mgmt (s.node n) 0x1C (le2 job ++ le1 n)
  else
    (s.tearJob n job causeMessage).modStack n (fun k =>
      { k with tears := k.tears.map (fun x => if x.job.toNat = job then { x with answer := true } else x) })

/-- Messages that the fabric manager sends are taken from it alone (R558); any other is discarded and
counted. -/
def onFm (s : State) (src : BitVec 16) (f : State) : Res :=
  .next (if s.fmNode != 0xFFFF && src == s.fmNode then f else s.quiet moduleRow qRegister)

/-- The stacks that a mask names. -/
def maskStacks (m : BitVec 8) : List Nat := stackNums.filter (fun n => m.getLsbD n)

/-- TEARDOWN. -/
def execTeardown (src job : BitVec 16) (stackMask : BitVec 8) (s : State) : Res :=
  onFm s src (if job = 0 then s else (maskStacks stackMask).foldl (fun t n => t.teardownOn n job.toNat) s)

/-- Every context that the teardown of a job killed has reached IDLE. -/
def State.tornQuiet (s : State) (n job : Nat) : Bool :=
  (s.jobCtxs n job).all (fun c => decide ((s.ctx c).st ≠ .killed))

/-- Step 4 of R529. -/
def State.endTear (s : State) (n : Nat) (x : Tear) : State :=
  let job := x.job.toNat
  let t := (s.jobBenches n job).foldl (fun u b => u.setJob n b 0) s
  let u := t.modStack n (fun k =>
    { k with
      owner := k.owner.filter (fun p => p.2 != job)
      tears := k.tears.filter (fun y => y.job != x.job) })
  let v := ((u.event n evTeardown noBench 0 job).notice 3 n (le2 job ++ le1 x.cause)).notify
    HOSTIF_NOTIFY_JOB_TORN_DOWN
  if x.answer then v.mgmt (v.node n) 0x1C (le2 job ++ le1 n) else v

/-- TEARDOWN_COMPLETE. -/
def execTeardownComplete (stack : Nat) (job : BitVec 16) (s : State) : Res :=
  onStack stack (match (s.stack stack).tears.find? (fun x => x.job == job) with
    | none => .next s
    | some x => whenOk (s.tornQuiet stack job.toNat) s (s.endTear stack x))

/-- CLEAR_DEAD (R532). -/
def execClearDead (src node : BitVec 16) (stackMask : BitVec 8) (s : State) : Res :=
  onFm s src ((maskStacks stackMask).foldl (fun t n => t.modStack n (fun k =>
    { k with
      dead := k.dead.filter (fun x => x != node)
      fenced := k.fenced.filter (fun x => x != node) })) s)

/-! ### A stack whose units stop (R505, 15_startup_and_defects.md R463) -/

/-- A descriptor that was fetched for the stack and is not yet torn down. -/
def State.releaseDesc (s : State) (d : Desc) : State :=
  if d.st = .finished ∨ d.phase = .ending ∨ (d.opcode = dLaunch ∧ d.phase = .held) then s
  else
    (((s.leaveFaultsDesc d).dropColl d.stack d.handle).failDesc d.handle stTorn
      (Tab.get 0 (s.stack d.stack).owner d.xctx)).moveDesc moveFuel d.handle

/-- The reply of a request: REBUILD_DONE or DIGEST. -/
def State.rebuildReply (s : State) (stack : Nat) (copy : Bool) (request : BitVec 32) (result : Nat) (digest : Word) :
    State :=
  s.mgmt (if stack < 8 then s.node stack else s.baseNode) (if copy then 0x22 else 0x24)
    (le4 request.toNat ++ le1 result ++ le8 digest.toNat)

/-- The abutment sends nothing more and the SRAM power domains of a stack are cycled (17_security_and_tenancy.md R505,
steps 3 and 4). A re-seat under way is gone with its mapping unchanged (log entry 241). -/
def Stack.cycled (k : Stack) : Stack :=
  { k with
    benches := [], drawer := [], drawerBad := [], drawerSoft := [], sram := [], tlb := [], walkCache := [], misses := [], walks := [],
    faults := [], shoots := [], owner := [], reqs := [], kicked := [], coreArgs := [], coreHeld := [], lastRing := 71, booting := none,
    spansIn := [], invals := [], lineHolds := [], lineOrder := [], upWait := [], colls := [], rebuilds := [], weights := none,
    nextStep := none, nextNeighbour := (false, false), reseat := [] }

/-- The shootdowns of a stack whose translations go end, and the INVALIDATEs that asked for them have them no
longer to wait for (08_translation.md R253); its segment store is emptied (R266). -/
def State.endShoots (s : State) (n : Nat) : State :=
  let t := s.setDescs (s.host.descs.map (fun d => if d.stack = n then { d with segs := [] } else d))
  (s.stack n).shoots.foldl (fun u sh => match sh.asker with
    | some h => u.shootAnswered h sh.id
    | none => u) t

/-- The rebuilds and digests of a stack end: a copy whose stores have all been answered with its own result, any other
because the stack is not BOUND (18_faults_and_recovery.md R541). -/
def State.endRebuilds (s : State) (n : Nat) : State :=
  (s.stack n).rebuilds.foldl (fun t b =>
    if b.copy && b.begun then t.rebuildReply n true b.req.request b.result b.digest
    else t.rebuildReply n b.copy b.req.request 5 (crc64 [])) s

/-- The LAUNCHes whose contexts have started end with what the contexts have come to (04_benches.md R135). -/
def State.endLaunches (s : State) (n : Nat) : State :=
  (s.host.descs.filter (fun d => d.stack == n && d.opcode == dLaunch && decide (d.st = .running) && decide (d.phase = .held))).foldl
    (fun t d => t.endLaunch d) s

/-- Device-side rings and half-written registers of the cores do not outlive what holds them: descriptors of the rings
of stack `n` are gone with its runtime SRAM, and the lower halves that its cores have latched with the cores. -/
def State.dropCoreSide (s : State) (n : Nat) : State :=
  let t := s.setDescs (s.host.descs.filter (fun d => match d.ring with
    | .dev m _ => m != n
    | .host _ => true))
  { t with latches := t.latches.filter (fun p => match p.1.1 with
      | .core m _ => m != n
      | .bar0 | .fm | .debug => true) }

/-- The units of a stack stop and lose what they hold; its host cores are in reset. -/
def State.cycleStack (s : State) (n : Nat) : State :=
  let t := (((s.endLaunches n).endRebuilds n).endShoots n).dropCoreSide n
  ((List.range 8).foldl (fun u c => u.setFld (.HCORE_CORE n c) HCORE_CORE_STATE coreReset) t).modStack n Stack.cycled

end Sys2Proof.Machine
end

