-- ==== Sys2Proof/Machine/Cells.lean ====
section
/-! DEFINITION. The cells and queues of the switch, the charge of a packet to its egress queue with its
mark or drop, the atomic combiner, and the routing of packets (10_spans_and_routing.md R308 to R310, R322
to R327, R331; 11_switch_die.md R342 to R350, R360 to R362, R373, R374; 00_scope.md R9). -/

namespace Sys2Proof.Machine

/-! ### Packets -/

def opSpanSync : BitVec 8 := 0x06
def opAck : BitVec 8 := 0x10
def opData : BitVec 8 := 0x11
def opAtomicReply : BitVec 8 := 0x12
def opSpanAck : BitVec 8 := 0x13
def opSyncReply : BitVec 8 := 0x14
def opDead : BitVec 8 := 0x15
def opSpanBroken : BitVec 8 := 0x16
def opInvalAck : BitVec 8 := 0x17
def opInval : BitVec 8 := 0x30

/-- The operations of Table 10-3. -/
def knownOp (op : BitVec 8) : Bool :=
  let o := op.toNat
  (decide (1 ≤ o) && decide (o ≤ 6)) || (decide (0x10 ≤ o) && decide (o ≤ 0x17))
    || o == 0x20 || o == 0x21 || o == 0x30

def yellow : BitVec 2 := 1
def red : BitVec 2 := 2

/-- Word 0 of a packet's header (Table 10-2). -/
def headerWord0 (p : Packet) : Word :=
  BitVec.ofNat 64 (p.dst.toNat * 2 ^ 48 + p.src.toNat * 2 ^ 32 + p.cls.toNat * 2 ^ 29 + p.vc.toNat * 2 ^ 27
    + p.colour.toNat * 2 ^ 25 + boolNat p.mark * 2 ^ 24 + p.tenant.toNat * 2 ^ 21 + boolNat p.poison * 2 ^ 20
    + p.via.toNat * 2 ^ 14 + boolNat p.nonmin * 2 ^ 13 + p.hops.toNat * 2 ^ 9 + p.gw.toNat * 2 ^ 3)

/-- The class P answer to a packet; it echoes the mark (R309). -/
def replyTo (p : Packet) (op : BitVec 8) (payload : List Byte) : Packet :=
  { newPacket p.dst p.src classP op 0 p.tenant 0 p.seq payload with mark := p.mark }

/-- Bytes of the operand of a routed ATOMIC. -/
def pktAtomicBytes (p : Packet) : Nat := atomicSize (bitsOf p.param.toNat 7 4) (p.param.getLsbD 0)

/-- The answer of a request that is treated as succeeding with no effect (R9, R287). -/
def silentReply (p : Packet) : Packet :=
  if p.op = opLoad then replyTo p opData (zeros (p.param.toNat + 1))
  else if p.op = opAtomic then replyTo p opAtomicReply (zeros (pktAtomicBytes p))
  else replyTo p opAck []

def isRequest (op : BitVec 8) : Bool := decide (1 ≤ op.toNat) && decide (op.toNat ≤ 5)

/-! ### Cells (R345 to R349) -/

def cellsOf (bytes : Nat) : Nat := (bytes + 255) / 256

def pktCells (p : Packet) : Nat := cellsOf (24 + p.payload.length)
def frameCells (f : Frame) : Nat := cellsOf (8 + f.payload.length)

/-- The index of a queue: Q on VC0 to VC2, then P, M and D each on VC0 and VC2 (R346). -/
def queueIndex (cls : BitVec 3) (vc : BitVec 2) : Nat :=
  if cls = classQ then Nat.min vc.toNat 2
  else 3 + 2 * (cls.toNat - 1) + (if vc = 2 then 1 else 0)

def pktQueue (p : Packet) : Nat := queueIndex p.cls p.vc

def queueKey (port queue : Nat) : Nat := 16 * port + queue

def Switch.egressQ (w : Switch) (port queue : Nat) : List Packet :=
  Tab.get [] w.egress (queueKey port queue)

def Switch.ingressQ (w : Switch) (port queue : Nat) : List Waiting :=
  Tab.get [] w.ingress (queueKey port queue)

/-- The requests that joined a merge after its first: one cell each (R362). -/
def Switch.mergedCells (w : Switch) (port queue : Nat) : Nat :=
  sumNat ((w.merges.filter (fun m => m.port == port && (m.reqs.head?.map pktQueue) == some queue)).map
    (fun m => m.reqs.length - 1))

/-- A reply to a request that a merge held. -/
def answersReq (p q : Packet) : Bool :=
  p.cls == classP && (p.op == opAck || p.op == opAtomicReply) && p.src == q.dst && p.dst == q.src && p.seq == q.seq

/-- The cells that a packet takes of reserves and queues: a reply that stands in its request's cell takes no other. -/
def Switch.newCells (w : Switch) (p : Packet) : Nat :=
  if w.replyCells.any (fun x => answersReq p x.2) then 0 else pktCells p

/-- The occupancy of an egress queue in cells. -/
def Switch.occupancy (w : Switch) (port queue : Nat) : Nat :=
  sumNat ((w.egressQ port queue).map w.newCells) + w.mergedCells port queue
    + (w.replyCells.filter (fun x => x.1 == queueKey port queue)).length

def cellTotal : Nat := 393216
def reserveCells : Nat := 33

def reserves : Variant → Nat
  | .l => 16764
  | _ => 26268

/-- Items of a trestle entry, by kind. -/
def Trestle.branches (t : Trestle) : List (Nat × Nat × BitVec 24) :=
  t.items.filterMap (fun i => match i with
    | .branch p l r => some (p, l, r)
    | _ => none)

def Trestle.ins (t : Trestle) : List (Nat × Nat × Nat × BitVec 24) :=
  t.items.filterMap (fun i => match i with
    | .input p l num r => some (p, l, num, r)
    | _ => none)

def Trestle.nodes (t : Trestle) : List (Nat × Nat × Nat) :=
  t.items.filterMap (fun i => match i with
    | .node num a b => some (num, a, b)
    | _ => none)

/-- Cells and share of its RESERVE item. -/
def Trestle.reserve (t : Trestle) : Nat × Nat :=
  (t.items.filterMap (fun i => match i with
    | .reserve c sh => some (c, sh)
    | _ => none)).head?.getD (0, 0)

/-- The cells that an entry reserves (before R369). -/
def Trestle.cells (t : Trestle) : Nat :=
  t.reserve.1 * (if t.reduction then t.ins.length + 1 else 2)

/-- The entries of this switch. -/
def Switch.own (w : Switch) : List Trestle := w.trestles.filter (fun t => t.owner == 8)

/-- Cells reserved by span and trestle entries (Table 11-9). -/
def Switch.spanReserved (w : Switch) : Nat :=
  sumNat (w.spanTab.map (·.cells)) + sumNat ((w.own.filter (·.committed)).map (·.cells))

/-- Cells of the shared region that egress queues hold. -/
def Switch.sharedUsed (w : Switch) : Nat :=
  sumNat ((distinct (w.egress.map Prod.fst ++ w.replyCells.map Prod.fst)).map (fun q =>
    w.occupancy (q / 16) (q % 16) - reserveCells))

/-- The cell is lost to every queue: neither an owner nor the free list holds it. -/
def Stray.lost (x : Stray) : Bool := x.item.isNone && x.listed == 0

/-- Free cells of the shared region. -/
def State.freeShared (s : State) : Nat :=
  cellTotal - reserves s.variant - s.sw.spanReserved - s.sw.sharedUsed - (s.sw.strays.filter Stray.lost).length

/-- An egress queue can take a packet of `c` cells (R348): each cell beyond the reserve while the queue's
shared cells are below the threshold. -/
def State.canCharge (s : State) (port queue c : Nat) : Bool :=
  let held := s.sw.occupancy port queue
  let alpha := Nat.min 8 (s.fld .SWC_CELL_CFG SWC_CELL_CFG_ALPHA)
  let need := held + c - reserveCells - (held - reserveCells)
  decide (need = 0)
    || decide (16 * (held - reserveCells + need - 1) < 2 ^ alpha * (s.freeShared - (need - 1)))

/-! ### Errors in cells (R350) -/

/-- The wrong bits of the words of a packet or frame that the switch holds. -/
def Switch.wrong (w : Switch) (x : Packet ⊕ Frame) : List Nat :=
  (w.cellErr.filter (fun e => e.1.1 == x)).map (·.2)

/-- It has an uncorrectable error. -/
def State.cellsBad (s : State) (x : Packet ⊕ Frame) : Bool := (s.sw.wrong x).any (fun e => decide (2 ≤ e))

/-- The owner of a cell releases it: one in quarantine goes back to the free list, and one that stands there already is
listed once more. -/
def Stray.release (x : Stray) : Option Stray :=
  if x.quarantined then none else some { x with owner := .free, item := none, listed := x.listed + 1 }

/-- The cells of what leaves the switch are released. -/
def releaseCells (x : Packet ⊕ Frame) (l : List Stray) : List Stray :=
  l.filterMap (fun c => if c.item = some x then c.release else some c)

/-- The errors and stray cells of a frame are those of the copies in whose place it stands. -/
def Switch.restate (w : Switch) (x : Packet ⊕ Frame) (ys : List (Packet ⊕ Frame)) : Switch :=
  { w with
    cellErr := w.cellErr.flatMap (fun e => if e.1.1 = x then ys.map (fun y => ((y, e.1.2), e.2)) else [e])
    strays := w.strays.map (fun c => if c.item = some x then { c with item := some (ys.head?.getD x) } else c) }

/-- The cells of a packet or frame are read as it leaves: each single-bit error is corrected and counted. -/
def State.readCells (s : State) (x : Packet ⊕ Frame) : State :=
  let t := s.modSw (fun w =>
    { w with cellErr := w.cellErr.filter (fun e => e.1.1 != x), strays := releaseCells x w.strays })
  t.satFld .SWC_CELL_STATUS SWC_CELL_STATUS_CORRECTED ((s.sw.wrong x).filter (fun e => e == 1)).length

/-- The packet as it is forwarded: poisoned when its cells have an uncorrectable error. -/
def State.forwarded (s : State) (p : Packet) : Packet := { p with poison := p.poison || s.cellsBad (.inl p) }

/-- A poisoned packet other than a poisoned reply is discarded and counted. -/
def State.discardPacket (s : State) : State := s.modSw (fun w => { w with discarded := w.discarded + 1 })

/-- The cell of a merged request is free once its reply has left (R362). -/
def State.dropReply (s : State) (p : Packet) : State :=
  s.modSw (fun w => { w with replyCells := w.replyCells.eraseP (fun x => answersReq p x.2) })

/-- A packet goes on in other words, in the same cells. -/
def State.restated (s : State) (p q : Packet) : State :=
  if p = q then s else s.modSw (fun w => w.restate (.inl p) [.inl q])

/-- The cells of what is discarded are released unread. -/
def State.freeCells (s : State) (x : Packet ⊕ Frame) : State :=
  s.modSw (fun w =>
    { w with cellErr := w.cellErr.filter (fun e => e.1.1 != x), strays := releaseCells x w.strays })

/-- The cells of a packet that is discarded are released. -/
def State.freePacket (s : State) (p : Packet) : State := (s.dropReply p).freeCells (.inl p)

/-- A packet leaves the egress queue of a port, and the merge that it stands for is released. -/
def State.takeEgress (s : State) (port queue : Nat) (p : Packet) : State :=
  ((s.readCells (.inl p)).dropReply p).modSw (fun w =>
    { w with
      egress := Tab.modify [] w.egress (queueKey port queue) (fun l => l.erase p)
      merges := w.merges.filter (fun m => !(m.port == port && m.reqs.head? == some p)) })

/-! ### Marking and dropping (R331) -/

def State.redFld (s : State) (port k : Nat) (f : Field) : Nat := s.fld (.PORT_RED port k) f

/-- What becomes of a packet when it is queued. -/
inductive Fate where
  | keep
  | mark
  | drop
  | maybe   -- a drop by a probability between 0 and 1
  deriving DecidableEq, Repr

def State.fate (s : State) (port : Nat) (p : Packet) : Fate :=
  let q := s.sw.occupancy port (pktQueue p)
  if port < 36 then
    if p.cls = classQ then
      let k := p.colour.toNat % 3
      let lo := 8 * s.redFld port k PORT_RED_MIN
      let hi := 8 * s.redFld port k PORT_RED_MAX
      if k = 0 then (if lo ≤ q then .mark else .keep)
      else if hi ≤ q then .drop
      else if lo ≤ q then
        (if s.redFld port k PORT_RED_PMAX * (q - lo) = 0 then .mark else .maybe)
      else .keep
    else if 8 * s.redFld port (2 + p.cls.toNat) PORT_RED_MIN ≤ q then .mark else .keep
  else if p.cls = classQ ∧ 64 * s.fld .SWC_ROUTE_CFG SWC_ROUTE_CFG_INT_MARK ≤ q then .mark
  else .keep

/-! ### The atomic combiner (R290, R291, R360 to R362) -/

def pktLine (p : Packet) : Nat := p.offset.toNat / lineSize

/-- The bytes that a request reaches. -/
def pktLen (p : Packet) : Nat :=
  if p.op = opLoad then p.param.toNat + 1 else if p.op = opAtomic then pktAtomicBytes p else p.payload.length

/-- The lines that a request touches, ascending. -/
def pktLines (p : Packet) : List Nat := linesOf p.offset.toNat (pktLen p)

/-- A request that the combiner can merge (R290, R360); none where the defect list names it (15_startup_and_defects.md
Table 15-2). -/
def State.mergeable (s : State) (n : Nat) (p : Packet) : Bool :=
  let sub := bitsOf p.param.toNat 7 4
  p.cls == classQ && !s.sw.noMerge && !s.unitFailed kindAtomic 0 0
    && ((p.op == opStore && decide (p.offset.toNat % lineSize + p.payload.length ≤ lineSize))
      || (p.op == opAtomic && [0, 1, 2, 5, 6, 7].contains sub))
    && !s.inWindow n (pktLine p * lineSize) lineSize

/-- A request joins a merge (R360). -/
def Merge.takes (m : Merge) (port : Nat) (p : Packet) : Bool :=
  m.port == port && decide (m.reqs.length < 64) && m.reqs.all (fun q => !(q.src == p.src && q.seq == p.seq))
    && match m.reqs with
      | [] => false
      | q :: _ =>
        q.dst == p.dst && pktLine q == pktLine p && q.op == p.op && q.param == p.param && q.tenant == p.tenant
          && q.payload.length == p.payload.length

def mergeRecords : Nat := 4096

/-- Put a packet into an egress queue. -/
def Switch.enqueue (w : Switch) (port : Nat) (p : Packet) : Switch :=
  { w with egress := Tab.modify [] w.egress (queueKey port (pktQueue p)) (fun l => l ++ [p]) }

/-- What a packet stands for: the merge that holds it, or itself. -/
def Switch.group (w : Switch) (port : Nat) (p : Packet) : List Packet :=
  ((w.merges.find? (fun m => m.port == port && m.reqs.contains p)).map (·.reqs)).getD [p]

/-- A data frame carries an access: a collective chunk is none. -/
def frameIsAccess (f : Frame) : Bool := bitsOf (leNat (f.payload.take 8)) 63 62 != 3

/-- What marks the operations of span frames, of host cores and of debug among those that wait for a line: no packet has more than
eight hops (10_spans_and_routing.md R310). -/
def hopsFrame : BitVec 4 := 15
def hopsCore : BitVec 4 := 14
def hopsDebug : BitVec 4 := 13

/-- The routed request that a data frame is checked and applied as (10_spans_and_routing.md R313). Its number names its
span and its place in it. -/
def framePacket (x : SpanIn) (n : BitVec 16) (f : Frame) : Packet :=
  let w := leNat (f.payload.take 8)
  let op := bitsOf w 63 62
  { newPacket x.src n classQ (if op = 2 then opAccum else if op = 1 then opKeystone else opStore)
      (BitVec.ofNat 8 (bitsOf w 61 60 * 64 + bitsOf w 59 56 * 4)) f.tenant (x.base + bitsOf w 39 0)
      (BitVec.ofNat 32 (x.id.toNat * 65536 + x.applied % 65536)) (f.payload.drop 8) with hops := hopsFrame }

/-- The frame of an incoming span that is applied next: of its epoch, and of none before it. -/
def SpanIn.next (x : SpanIn) : Option Frame :=
  if x.broken then none else x.waiting.find? (fun f => f.epoch == x.epoch)

/-- A debug access to a tier as the abutment takes it (19_register_map.md R554). -/
def debugPacket (node : BitVec 16) (a : DebugAcc) : Packet :=
  { newPacket node node classQ (if a.write then opStore else opLoad) 7 0 ((if a.far then farBase else 0) + a.addr) 0
      (if a.write then le8 a.data.toNat else []) with hops := hopsDebug }

/-- The access of a core as the abutment takes it: the lines that it touches, and its place among what waits for them. -/
def corePacket (node : BitVec 16) (a : CoreAcc) : Packet :=
  { newPacket node node classQ opLoad (BitVec.ofNat 8 (a.bytes - 1)) 0 a.off (BitVec.ofNat 32 a.core) [] with
    hops := hopsCore }

/-- The access that comes first among those of its core. -/
def Stack.coreFirst (k : Stack) (a : CoreAcc) : Bool := k.coreHeld.find? (fun b => b.core == a.core) == some a

/-- The operations that an abutment holds beside its queue: the next frame of each incoming span, the first access of
each core, and the access of debug. -/
def State.heldOps (s : State) (n : Nat) : List Packet :=
  let k := s.stack n
  k.spansIn.filterMap (fun x => (x.next.filter frameIsAccess).map (framePacket x (s.node n)))
    ++ (k.coreHeld.filter k.coreFirst).map (corePacket (s.node n))
    ++ ((s.keeper.debugHeld.filter (fun a => a.stack == n)).map (debugPacket (s.node n))).toList

/-- The operations that wait at an abutment: the requests in its queues, and what it holds beside them. -/
def State.opsAt (s : State) (n : Nat) : List Packet :=
  (([0, 1, 2].flatMap (fun q => s.sw.egressQ (intPort n) q)).filter (fun p => isRequest p.op)) ++ s.heldOps n

/-- Those operations in arrival order. -/
def State.opsInOrder (s : State) (n : Nat) : List Packet :=
  let l := s.opsAt n
  let k := (s.stack n).lineOrder
  k.filter l.contains ++ l.filter (fun p => !k.contains p)

/-- The operations that wait at an abutment for a line, in arrival order (R292, R293). -/
def State.lineWaiters (s : State) (n line : Nat) : List Packet :=
  (s.opsInOrder n).filter (fun p => (pktLines p).contains line)

/-- An operation comes to an abutment, behind those that wait there. -/
def State.came (s : State) (n : Nat) (p : Packet) : State :=
  let l := s.opsInOrder n
  s.modStack n (fun k => { k with lineOrder := l ++ [p] })

/-- The sources of those requests, those within merges among them. -/
def State.lineSources (s : State) (n line : Nat) : List Nat :=
  distinct ((s.lineWaiters n line).flatMap (fun p =>
    (s.sw.group (intPort n) p).map (fun q => q.src.toNat)))

/-- MAX_WAITING after a look at some lines of an abutment (09_fabric_memory.md Table 09-12). -/
def State.noteWaiting (s : State) (n : Nat) (lines : List Nat) : State :=
  let r : Reg := .ABT_LINE_STATUS n
  s.setFld r ABT_LINE_STATUS_MAX_WAITING (lines.foldl (fun m l =>
    Nat.max m (Nat.min 65535 (s.lineSources n l).length)) (s.fld r ABT_LINE_STATUS_MAX_WAITING))

/-- Queue a packet, merging it where it can. -/
def State.queuePacket (s : State) (port : Nat) (p : Packet) : State :=
  if 64 ≤ port ∧ port < 72 ∧ s.mergeable (port - 64) p = true then
    if s.sw.merges.any (fun m => m.takes port p) then
      let i := (s.sw.merges.findIdx? (fun m => m.takes port p)).getD 0
      (s.modSw (fun w =>
        { w with merges := w.merges.modify i (fun m => { m with reqs := m.reqs ++ [p] }) })).setFld
        .SWC_COMBINE_STATUS SWC_COMBINE_STATUS_MERGED
        (s.fld .SWC_COMBINE_STATUS SWC_COMBINE_STATUS_MERGED + 1)
    else if s.sw.merges.length < mergeRecords then
      s.modSw (fun w => { (w.enqueue port p) with merges := w.merges ++ [⟨port, [p]⟩] })
    else (s.modSw (fun w => w.enqueue port p)).satFld .SWC_COMBINE_STATUS SWC_COMBINE_STATUS_NO_RECORD 1
  else s.modSw (fun w => w.enqueue port p)

/-- Queue a packet. At an abutment the sources that wait with it for its lines are counted. -/
def State.chargeTo (s : State) (port : Nat) (p : Packet) : State :=
  if 64 ≤ port ∧ port < 72 ∧ isRequest p.op = true then
    ((s.came (port - 64) p).queuePacket port p).noteWaiting (port - 64) (pktLines p)
  else s.queuePacket port p

/-- Charge a packet with its fate. Which packets a probability drops is free (R331). -/
def State.settle (s : State) (port : Nat) (p : Packet) : State :=
  match s.fate port p with
  | .keep => s.chargeTo port p
  | .mark => (s.restated p { p with mark := true }).chargeTo port { p with mark := true }
  | .drop => s.freePacket p
  | .maybe =>
    let f := s.takeFree
    if f.1 % 2 = 1 then f.2.freePacket p
    else (f.2.restated p { p with mark := true }).chargeTo port { p with mark := true }

/-! ### What has arrived in part (R352 to R354; 14_links_and_cables.md R430) -/

/-- A routed packet's bytes on a link: its header and its payload in whole granules of 64 bytes. -/
def pktBytes (p : Packet) : Nat := 24 + 64 * ((p.payload.length + 63) / 64)

def frameBytes (f : Frame) : Nat := 8 + f.payload.length

def itemBytes : Packet ⊕ Frame → Nat
  | .inl p => pktBytes p
  | .inr f => frameBytes f

/-- Frames received over a port and not yet taken. -/
def framesIn (port : Nat) : Nat := 100 + port

def Switch.framesAt (w : Switch) (key : Nat) : List Frame := Tab.get [] w.frames key

def Switch.pushFrame (w : Switch) (key : Nat) (f : Frame) : Switch :=
  { w with frames := Tab.modify [] w.frames key (fun l => l ++ [f]) }

def Switch.popFrame (w : Switch) (key : Nat) (f : Frame) : Switch :=
  { w with frames := Tab.modify [] w.frames key (fun l => l.erase f) }

/-- A packet or frame without what its way through a switch changes. -/
def bare : Packet ⊕ Frame → Packet ⊕ Frame
  | .inl p => .inl { p with hops := 0, vc := 0, gw := 0, via := 0, nonmin := false, mark := false, poison := false }
  | .inr f => .inr { f with label := 0 }

def cellBytes : Nat := 256

/-- The external port over which the rest of a packet or frame that the switch holds is still to come. -/
def State.tailPort (s : State) (x : Packet ⊕ Frame) : Option Nat :=
  if itemBytes x ≤ cellBytes then none
  else extPorts.find? (fun i => (s.port i).rxLeft != 0 && (s.port i).rxItem.map bare == some (bare x))

/-- Bytes of it that are still to come. -/
def State.tailLeft (s : State) (x : Packet ⊕ Frame) : Nat := ((s.tailPort x).map (fun i => (s.port i).rxLeft)).getD 0

/-- PORT_FWD sets store-and-forward for the class of a packet or frame (Table 11-14). -/
def State.wholeFirst (s : State) (p : Nat) : Packet ⊕ Frame → Bool
  | .inl k =>
    s.bit (.PORT_FWD p) (if k.cls = classQ then PORT_FWD_SAF_Q else if k.cls = classP then PORT_FWD_SAF_P
      else if k.cls = classM then PORT_FWD_SAF_M else PORT_FWD_SAF_D)
  | .inr _ => s.bit (.PORT_FWD p) PORT_FWD_SAF_S

/-- An external port may begin to send it: whole, or in part in the mode that PORT_FWD sets, from a port that is no
slower (R352, R353). -/
def State.mayBegin (s : State) (p : Nat) (x : Packet ⊕ Frame) : Bool :=
  match s.tailPort x with
  | none => true
  | some i => !s.wholeFirst p x && decide (s.fld (.PORT_STATUS p) PORT_STATUS_WIDTH ≤ s.fld (.PORT_STATUS i) PORT_STATUS_WIDTH)

/-- What a port takes over its link lands in the switch. -/
def State.landItem (s : State) (p : Nat) : Packet ⊕ Frame → State
  | .inl k => s.arrive p k
  | .inr g => s.modSw (fun w => w.pushFrame (framesIn p) g)

/-- The next `n` of the `left` bytes still to come of a packet or frame arrive; it lands with its first cell. -/
def State.fillItem (s : State) (p : Nat) (x : Packet ⊕ Frame) (left n : Nat) : State :=
  let first := Nat.min cellBytes (itemBytes x)
  let was := itemBytes x - left
  let t := if was < first ∧ first ≤ was + n then s.landItem p x else s
  t.modPort p (fun y => { y with rxItem := if n < left then some x else none, rxLeft := left - n })

/-- Packets and frames begin to arrive one after the other within so many bytes. -/
def State.beginItems : List (Packet ⊕ Frame) → State → Nat → Nat → State
  | [], s, _, _ => s
  | x :: l, s, p, room =>
    if room = 0 then s
    else
      let n := Nat.min room (itemBytes x)
      beginItems l (s.fillItem p x (itemBytes x) n) p (room - n)

/-- The cells that a packet leaves free in the ingress reserve of an external port go back to the far end as
credit (R347). -/
def State.returnCredit (s : State) (port queue cells : Nat) : State :=
  if port < 36 then
    s.modPort port (fun x => { x with owed := Tab.modify 0 x.owed queue (fun c => c + cells) })
  else s

/-- EGRESS_CHARGE: the packet at the head of an ingress queue (R348). -/
def execEgressCharge (port queue : Nat) (s : State) : Res :=
  match s.sw.ingressQ port queue with
  | [] => .next s
  | x :: rest =>
    whenOk (s.canCharge x.egress (pktQueue x.pkt) (s.sw.newCells x.pkt)) s
      (((s.modSw (fun w => { w with ingress := Tab.put w.ingress (queueKey port queue) rest })).returnCredit port
        queue (pktCells x.pkt)).settle x.egress x.pkt)

/-! ### Deficit round robin (10_spans_and_routing.md R321) -/

/-- A deficit round robin among `n` flows: `size` is the next item of a flow, `quantum` what a turn adds.
Answers the flow and the deficits and the turn after it. -/
def drr (n : Nat) (size : Nat → Option Nat) (quantum : Nat → Nat) : Nat → (Nat → Nat) → Nat →
    Option (Nat × (Nat → Nat) × Nat)
  | 0, _, _ => none
  | fuel + 1, deficit, turn =>
    let next := (turn + 1) % n
    match size turn with
    | some z =>
      if z ≤ deficit turn then
        some (turn, fun i => if i = turn then deficit turn - z else deficit i, turn)
      else drr n size quantum fuel (fun i => if i = next then deficit next + quantum next else deficit i) next
    | none =>
      drr n size quantum fuel
        (fun i => if i = next then (if next = turn then 0 else deficit next) + quantum next
          else if i = turn then 0 else deficit i) next

/-- Turns enough for the largest packet. -/
def drrFuel : Nat := 8 * 8300

/-- Bytes that a weight adds at a turn; 0 acts as 1. -/
def weightQuantum (w : Nat) : Nat := Nat.max 1 w * (Config.drrQuantum + 1)

/-- A round robin with its deficits and its turn in the switch. -/
def State.drrAt (s : State) (n base turnKey : Nat) (size : Nat → Option Nat) (weight : Nat → Nat) :
    Option (Nat × State) :=
  if (List.range n).all (fun i => (size i).isNone) then none
  else
    (drr n size (fun i => weightQuantum (weight i)) drrFuel (fun i => Tab.get 0 s.sw.deficit (base + i))
      (Tab.get 0 s.sw.deficit turnKey % n)).map (fun r =>
        (r.1, s.modSw (fun w =>
          { w with
            deficit := (List.range n).foldl (fun d i => Tab.put d (base + i) (r.2.1 i))
              (Tab.put w.deficit turnKey r.2.2) })))

/-! ### Routing (R310, R322 to R326) -/

/-- The port whose egress queue for the packet holds the fewest cells; the lowest on a tie (R323). -/
def Switch.lightest (w : Switch) (queue : Nat) : List Nat → Option Nat
  | [] => none
  | p :: t =>
    match w.lightest queue t with
    | none => some p
    | some q => if w.occupancy p queue ≤ w.occupancy q queue then some p else some q

/-- The first hop towards gateway `g`, and the cells of its queue. -/
def State.firstHop (s : State) (queue g : Nat) : Option (Nat × Nat) :=
  (s.sw.lightest queue (s.hopPorts g)).map (fun p => (p, s.sw.occupancy p queue))

/-- The module index with the lightest first hop; the lowest on a tie (R324). -/
def State.lightestGw (s : State) (queue : Nat) : List Nat → Option (Nat × Nat)
  | [] => none
  | g :: t =>
    match s.firstHop queue g, s.lightestGw queue t with
    | none, r => r
    | some (_, c), none => some (g, c)
    | some (_, c), some (g', c') => if c ≤ c' then some (g, c) else some (g', c')

/-- The gateway to a rack, and the cells of the first-hop queue (R324). -/
def State.gateway (s : State) (queue rack : Nat) : Option (Nat × Nat) :=
  match s.sw.lightest queue (s.viaPorts rack) with
  | some p => some (s.index, s.sw.occupancy p queue)
  | none =>
    if s.bit (.SWC_RACK_ROUTE_VIA rack) SWC_RACK_ROUTE_VIA_VALID then
      s.lightestGw queue ((List.range 64).filter (fun g =>
        g != s.index && bitOf (s.fld (.SWC_RACK_ROUTE_GW rack) SWC_RACK_ROUTE_GW_GW) g))
    else none

/-- What the switch makes of a packet. -/
inductive Route where
  | out (port : Nat) (p : Packet)
  | own (p : Packet)
  | noPort
  | error
  deriving DecidableEq, Repr

/-- Racks that may serve as via (R325). -/
def State.viaRacks (s : State) (dstRack : Nat) : List Nat :=
  (List.range 64).filter (fun r => r != nodeRack s.baseNode && r != dstRack
    && s.bit (.SWC_RACK_ROUTE_VIA r) SWC_RACK_ROUTE_VIA_VALID
    && s.bit (.SWC_RACK_ROUTE_VIA r) SWC_RACK_ROUTE_VIA_NONMIN_OK)

/-- The non-minimal choice of R325: the via rack is the free value `pick`. -/
def State.nonMinimal (s : State) (p : Packet) (oMin pick : Nat) : Option Packet :=
  let racks := s.viaRacks (nodeRack p.dst)
  if s.fld .SWC_ROUTE_CFG SWC_ROUTE_CFG_MODE = 1 ∧ p.cls = classQ ∧ racks ≠ [] then
    let r := nth 0 racks (pick % racks.length)
    match s.gateway (queueIndex classQ 0) r with
    | some (g, oNon) =>
      if 2 * oNon + 64 * s.fld .SWC_ROUTE_CFG SWC_ROUTE_CFG_NONMIN_BIAS < oMin then
        some { p with vc := 0, nonmin := true, via := BitVec.ofNat 6 r, gw := BitVec.ofNat 6 g }
      else none
    | none => none
  else none

/-- vc and gw at injection (Table 10-8). -/
def State.inject (s : State) (p : Packet) (pick : Nat) : Option Packet :=
  if nodeRack p.dst = nodeRack s.baseNode then
    some { p with vc := 2, gw := BitVec.ofNat 6 (nodeIndex p.dst) }
  else
    match s.gateway (queueIndex p.cls 0) (nodeRack p.dst) with
    | none => none
    | some (g, oMin) =>
      some ((s.nonMinimal p oMin pick).getD { p with vc := 0, gw := BitVec.ofNat 6 g })

/-- vc and gw on arrival over a viaduct port (Table 10-8); none is a route error. -/
def State.land (s : State) (p : Packet) : Option (Option Packet) :=
  let here := nodeRack s.baseNode
  if nodeRack p.dst = here then some (some { p with vc := 2, gw := BitVec.ofNat 6 (nodeIndex p.dst) })
  else if p.nonmin ∧ p.via.toNat = here then
    some ((s.gateway (queueIndex p.cls 1) (nodeRack p.dst)).map
      (fun g => { p with vc := 1, gw := BitVec.ofNat 6 g.1 }))
  else none

/-- A link carries a packet: at JFP-2 and JFP-3 no store-accumulate, and at most 4,096 bytes of payload
(14_links_and_cables.md R447). One that no port to its next hop carries meets R326 (DESIGN CHOICE, log entry 233). -/
def State.linkTakes (s : State) (k : Packet) (p : Nat) : Bool :=
  !s.oldJfp p || (k.op != opAccum && decide (k.payload.length ≤ 4096))

/-- Send on one of some ports, within eight links (R310). -/
def State.sendOn (s : State) (p : Packet) (ports : List Nat) : Route :=
  match s.sw.lightest (pktQueue p) (ports.filter (s.linkTakes p)) with
  | none => .noPort
  | some q => if 8 ≤ p.hops.toNat then .error else .out q p

/-- R323. -/
def State.route (s : State) (p : Packet) : Route :=
  if !(s.jzbPorts p.dst).isEmpty then s.sendOn p (s.jzbPorts p.dst)
  else if p.gw.toNat = s.index then
    if p.vc = 2 then (if jzb2 p.dst then .noPort else .own p)
    else
      s.sendOn p (s.viaPorts (if p.vc = 0 ∧ p.nonmin = true then p.via.toNat else nodeRack p.dst))
  else s.sendOn p (s.hopPorts p.gw.toNat)

/-- A route error (R310): the packet is discarded and counted, and the fabric manager is notified. -/
def State.routeError (s : State) (port : Nat) (p : Packet) : State :=
  (s.modSw (fun w => { w with routeErrors := w.routeErrors + 1 })).notice 9 noStack
    (le1 port ++ le8 (headerWord0 p).toNat)

/-- A class Q packet is answered with DEAD. -/
def State.answerDead (s : State) (p : Packet) : State :=
  s.arrive switchPort
    { replyTo p opDead [] with src := s.baseNode, offset := p.dst.setWidth 48 }

/-- No usable port for the next hop (R326). -/
def State.unroutable (s : State) (p : Packet) : State :=
  if p.cls = classQ then s.answerDead p
  else s.modSw (fun w => { w with routeErrors := w.routeErrors + 1 })

/-- The packet waits in its ingress reserve, under the class and VC it arrived on. -/
def State.toIngress (s : State) (port queue egress : Nat) (p : Packet) : State :=
  s.modSw (fun w =>
    { w with ingress := Tab.modify [] w.ingress (queueKey port queue) (fun l => l ++ [⟨egress, p⟩]) })

/-- A class M packet is consumed on arrival (R329): what it says comes by a command of its own. A poisoned one is
discarded and counted. -/
def State.consume (s : State) (p : Packet) : State := if p.poison then s.discardPacket else s

/-- A packet has reached its module (R9, R323, R463, R501). `s` is the state in which it waits no longer in its
ingress reserve, `held` the one in which it does: what its cells hold is read there (R350). -/
def State.deliver (s held : State) (port queue : Nat) (p : Packet) : State :=
  let n := p.dst.toNat % 8
  if p.cls = classM then s.consume (held.forwarded p)
  else if !s.stackPresent n then
    if p.cls = classQ ∧ isRequest p.op = true then
      let t := s.arrive switchPort (silentReply p)
      if modulePos p.src = modulePos s.baseNode ∧ jzb2 p.src = false then
        t.quiet (p.src.toNat % 8) qSource
      else t
    else s
  else if s.stackFailed n ∨ s.bound n = false then
    if p.cls = classQ then s.answerDead p else s
  else held.toIngress port queue (intPort n) p

/-- A routed packet for a fenced node (R374). -/
def State.fenceHit (s : State) (p : Packet) : State :=
  if p.cls = classQ then
    if s.ownNode p.src then s.markDead (p.src.toNat % 8) p.dst howFenced else s.answerDead p
  else s.satFld .SWC_FENCE_STATUS SWC_FENCE_STATUS_DISCARDS 1

/-- vc and gw as they stand after the point of Table 10-8 that the packet has reached. -/
def State.setGoal (s : State) (port : Nat) (p : Packet) (pick : Nat) : Option (Option Packet) :=
  if 36 ≤ port then some (s.inject p pick)
  else if isViaduct s.variant port then s.land p
  else some (some p)

/-- A packet is forwarded, delivered or answered. One that does not stay in its ingress reserve gives its credit back
(R347). -/
def State.forward (s : State) (port : Nat) (p0 : Packet) : State :=
  let p : Packet := if port < 36 then { p0 with hops := p0.hops + 1 } else p0
  let f := s.takeFree
  let t := if s.fld .SWC_ROUTE_CFG SWC_ROUTE_CFG_MODE = 1 ∧ 36 ≤ port then f.2 else s
  let gone (x : State) : State := (x.returnCredit port (pktQueue p0) (pktCells p0)).freePacket p0
  if 3 < p.cls.toNat ∨ knownOp p.op = false then (gone s).routeError port p
  else if p.op = opBeatCheck then (gone s).consume { p with poison := (s.forwarded p0).poison }
  else if s.sw.fences.contains p.dst then (gone s).fenceHit p
  else
    match s.setGoal port p f.1 with
    | none => (gone t).routeError port p
    | some none => if (s.jzbPorts p.dst).isEmpty then (gone t).unroutable p
        else match s.sendOn p (s.jzbPorts p.dst) with
          | .out q r => (t.restated p0 r).toIngress port (pktQueue p0) q r
          | _ => (gone t).routeError port p
    | some (some r) =>
      match s.route r with
      | .out q x => (t.restated p0 x).toIngress port (pktQueue p0) q x
      | .own x => (gone t).deliver (t.restated p0 x) port (pktQueue p0) x
      | .noPort => (gone t).unroutable r
      | .error => (gone t).routeError port r

/-- The ingress reserve of an internal port has room for a packet (R346, R347). What comes over a link came against
credit, and the switch itself has no reserve. -/
def State.ingressRoom (s : State) (port : Nat) (p : Packet) : Bool :=
  decide (port < 36) || port == switchPort
    || decide (sumNat ((s.sw.ingressQ port (pktQueue p)).map (fun w => s.sw.newCells w.pkt)) + s.sw.newCells p
      ≤ reserveCells)

/-- The packet that the switch takes next from a port: the first whose reserve has room, none past an earlier one of
its class and VC. -/
def State.nextArrival (s : State) (port : Nat) : Option Packet :=
  let l := Tab.get [] s.sw.arrived port
  l.find? (fun p => l.find? (fun q => pktQueue q == pktQueue p) == some p && s.ingressRoom port p)

/-- PACKET_FORWARD: the packet that arrived first over a port. Ports are numbered as R343 gives; 81 is the
switch itself. -/
def execPacketForward (port : Nat) (s : State) : Res :=
  match s.nextArrival port with
  | none => .next s
  | some p =>
    .next ((s.modSw (fun w =>
      { w with arrived := Tab.modify [] w.arrived port (fun l => l.erase p) })).forward port p)

end Sys2Proof.Machine
end

