-- ==== Sys2Proof/Machine/Frames.lean ====
section
/-! DEFINITION. The span frames that stand at an internal port of the switch, and which of them can be taken now
(10_spans_and_routing.md R313, R321, R337; 11_switch_die.md R349, R353, R370, R375; 12_collectives.md R394). -/

namespace Sys2Proof.Machine

/-! ### What a frame is -/

/-- A span data frame that carries a collective chunk. -/
def isChunk (f : Frame) : Bool := f.kind == 0 && bitsOf (leNat (f.payload.take 8)) 63 62 == 3

/-- Word `i` of a chunk frame's payload. -/
def chunkWord (f : Frame) (i : Nat) : Nat := leNat ((f.payload.drop (8 * i)).take 8)

/-- The frame is one of a pass operation (12_collectives.md R393). -/
def chunkPass (f : Frame) : Bool := bitOf (chunkWord f 1) 35

/-! ### What holds it -/

/-- Cells of frames with a label that stand in a list. -/
def labelCells (l : List Frame) (label : Nat) : Nat :=
  sumNat ((l.filter (fun f => f.label.toNat == label)).map frameCells)

/-- The first frame of a label in a queue. -/
def Switch.headFrame (w : Switch) (key : Nat) (f : Frame) : Bool :=
  (w.framesAt key).find? (fun g => g.label == f.label) == some f

/-- The span entry by which a frame reaches an abutment. -/
def Switch.lastHop (w : Switch) (n : Nat) (f : Frame) : Option SpanEntry :=
  w.spanTab.find? (fun e => e.outPort == intPort n && e.nextLabel == f.label.toNat)

def Stack.spanIn? (k : Stack) (src id : BitVec 16) : Option SpanIn :=
  k.spansIn.find? (fun x => x.src == src && x.id == id)

/-- The node of a stack is fenced at this switch. -/
def State.stackFenced (s : State) (n : Nat) : Bool := s.sw.fences.contains (s.node n)

/-- The frames of a stack that is fenced at this switch, or not bound, are discarded (R375). -/
def State.framesEnd (s : State) (n : Nat) : Bool := s.stackFenced n || !s.bound n

/-- A frame waits in its cells: one of the next epoch, or one behind a frame that an invalidation holds (R337). -/
def SpanIn.holdsBack (x : SpanIn) (f : Frame) : Bool :=
  f.epoch == x.epoch + 1 || (f.epoch == x.epoch && !x.broken && !x.waiting.isEmpty)

/-- The entry takes frames of a label from a port: a multicast entry's ingress, or an input. -/
def Trestle.takes (t : Trestle) (port label : Nat) : Bool :=
  t.committed && ((!t.reduction && t.port == port && t.label == label)
    || t.ins.any (fun i => i.1 == port && i.2.1 == label))

/-- Cells that an input holds until its positions are evaluated (11_switch_die.md R370). -/
def Trestle.inputCells (t : Trestle) (num : Nat) : Nat :=
  sumNat ((t.inputs.filter (fun h => h.num == num)).map (·.cells))

/-- Cells of a hosted entry's scratch area that hold what it sends under a label: until it is accepted (R349, R369). -/
def State.scratchHeld (s : State) (n label : Nat) : Nat :=
  labelCells (s.stack n).upWait label
    + sumNat ((s.sw.kept.filter (fun x => x.fromMember && x.port == intPort n && x.label == label)).map
      (fun x => frameCells x.frame))

/-! ### Whether it can be taken now (R321) -/

/-- The down label of a group whose member the stack is. -/
def State.downLabel (s : State) (n : Nat) (f : Frame) : Bool :=
  (s.stack n).groups.any (fun x => x.bound && x.down == f.label)

/-- The hosted entry of an abutment that takes a frame. -/
def State.hostedEntry (s : State) (n : Nat) (f : Frame) : Option Trestle :=
  s.sw.trestles.find? (fun t => t.owner == n && t.takes (intPort n) f.label.toNat)

/-- The frame belongs to a collective and to no span. -/
def State.collFrame (s : State) (n : Nat) (f : Frame) : Bool := s.downLabel n f || (s.hostedEntry n f).isSome

/-- A hosted entry has room for a frame: for a pass frame in what its branches hold, for another in its input
(11_switch_die.md R349, R370). -/
def Trestle.hasRoom (t : Trestle) (s : State) (n : Nat) (f : Frame) : Bool :=
  if chunkPass f then
    t.branches.all (fun b => decide (s.scratchHeld n b.2.1 + frameCells f ≤ t.reserve.1))
  else
    t.ins.any (fun i => i.1 == intPort n && i.2.1 == f.label.toNat
      && (t.prunedIn.contains i.2.2.1 || decide (t.inputCells i.2.2.1 + frameCells f ≤ t.reserve.1)))

/-- The record of the span that a frame travels on takes it. -/
def State.spanTakes (s : State) (n : Nat) (f : Frame) : Bool :=
  match s.sw.lastHop n f with
  | none => true
  | some e => s.framesEnd n || f.kind == 1 || s.cellsBad (.inr f) || !((s.stack n).spanIn? e.srcNode e.spanId).any (fun x => x.holdsBack f)

/-- A frame that stands at an abutment whole, first under its label, and can be taken. -/
def State.takeable (s : State) (n : Nat) (f : Frame) : Bool :=
  s.sw.headFrame (intPort n) f && (s.tailPort (.inr f)).isNone
    && (if s.downLabel n f then isChunk f
        else match s.hostedEntry n f with
          | some t => !isChunk f || t.hasRoom s n f
          | none => decide (f.kind.toNat ≤ 1) && s.spanTakes n f)

/-- A span frame can be taken at an internal port: class S is served before P, D and Q. -/
def State.frameWaits (s : State) (n : Nat) : Bool := (s.sw.framesAt (intPort n)).any (s.takeable n)

end Sys2Proof.Machine
end

