-- ==== Sys2Proof/Machine/Turns.lean ====
section
/-! DEFINITION. What holds a packet at an internal port of the switch: the checks of a request at its target, the turns
of the sources of a line, the home directory of coherent windows, and the order in which packets leave
(09_fabric_memory.md R287, R288, R292, R293, R301 to R305; 10_spans_and_routing.md R321; 17_security_and_tenancy.md R503,
R504). -/

namespace Sys2Proof.Machine

/-! ### Checks (R287, R288, R503) -/

def State.tenant (s : State) (t : Nat) : Tenant := Tab.get ⟨[], [], false⟩ s.keeper.tenants t

/-- The peer map of the target's tenant admits a source, or its FORERUNNER flag does (R503). -/
def State.admitsSource (s : State) (n : Nat) (src : BitVec 16) : Bool :=
  let t := s.tenantOf n
  if jzb2 src then s.bit (.SEC_TENANT t) SEC_TENANT_FORERUNNER
  else (s.tenant t).peers.contains (modulePos src)

/-- The tenant of a request owns the target stack (R288). -/
def State.tenantOk (s : State) (n : Nat) (tenant : BitVec 3) : Bool :=
  s.bound n && tenant.toNat == s.tenantOf n

/-- The whole access lies in a coherent window of the stack. -/
def State.withinWindow (s : State) (n off len : Nat) : Bool :=
  (s.windowsOf n).any (fun w => decide (w.1 ≤ off) && decide (off + len ≤ w.1 + w.2))

/-- A request passes the target's checks; what its offset names is checked as it is applied. -/
def State.targetOk (s : State) (n : Nat) (p : Packet) : Bool :=
  s.tenantOk n p.tenant && s.admitsSource n p.src
    && (!jzb2 p.src || s.withinWindow n p.offset.toNat (pktLen p))

/-! ### The home directory (R301 to R305) -/

def dirSize : Nat := 1048576

def Stack.tracked (k : Stack) (line : Nat) : Option DirLine := k.dir.find? (fun d => d.line == line)

def Stack.invalFor (k : Stack) (line : Nat) (holder : BitVec 16) : Bool :=
  k.invals.any (fun i => i.line == line && i.holder == holder)

/-- Send an INVAL, or send it again. -/
def State.sendInval (s : State) (n : Nat) (i : Inval) : State :=
  s.arrive (intPort n)
    (newPacket (s.node n) i.holder classD opInval 0 (BitVec.ofNat 3 (s.tenantOf n)) (i.line * lineSize)
      i.number [])

/-- Invalidate a copy, unless that is under way. -/
def State.startInval (s : State) (n line : Nat) (holder : BitVec 16) : State :=
  if (s.stack n).invalFor line holder then s
  else
    let i : Inval := ⟨(s.stack n).invalNext, line, holder, s.now, 0⟩
    (s.modStack n (fun k =>
      { k with invals := k.invals ++ [i], invalNext := k.invalNext + 1 })).sendInval n i

/-- Invalidate every copy of a tracked line. -/
def State.invalLine (s : State) (n : Nat) (d : DirLine) : State :=
  d.holders.foldl (fun t h => t.startInval n d.line h) s

/-- The tracked lines that a request touches. -/
def Stack.touched (k : Stack) (p : Packet) : List DirLine :=
  (pktLines p).filterMap (fun l => k.tracked l)

/-- The oldest tracked line must go before the lines of a load are tracked. -/
def Stack.dirFull (k : Stack) (p : Packet) : Bool :=
  let new := ((pktLines p).filter (fun l => (k.tracked l).isNone)).length
  decide (0 < new) && decide (dirSize < k.dir.length + new)

/-- A line of the request is being invalidated: a JZB-2 node that loaded it now would keep a copy that the
acknowledgement takes out of the directory (R302, R304). -/
def Stack.invalidating (k : Stack) (p : Packet) : Bool :=
  (pktLines p).any (fun l => k.invals.any (fun i => i.line == l))

/-- Whether a request has to wait for a row repair or for invalidations, and the state with them sent. -/
def State.dirGate (s : State) (n : Nat) (p : Packet) : State × Bool :=
  let k := s.stack n
  if s.targetOk n p ∧ p.poison = false ∧ s.bankBusy n p.offset.toNat (pktLen p) = true then (s, true)
  else if s.inWindow n p.offset.toNat (pktLen p) ∧ s.targetOk n p = true ∧ p.poison = false then
    if p.op = opLoad then
      if jzb2 p.src ∧ k.invalidating p = true then (s, true)
      else if jzb2 p.src ∧ k.dirFull p = true then
        match k.dir with
        | [] => (s, false)
        | d :: _ =>
          let fresh := !k.invals.any (fun i => i.line == d.line)
          let t := s.invalLine n d
          (if fresh then t.satFld (.ABT_CWIN_STATUS n) ABT_CWIN_STATUS_EVICTIONS 1 else t, true)
      else (s, false)
    else
      let ds := k.touched p
      (ds.foldl (fun t d => t.invalLine n d) s, !ds.isEmpty)
  else (s, false)

/-- A JZB-2 node holds the lines that it has loaded from a window. -/
def Stack.track (k : Stack) (line : Nat) (holder : BitVec 16) : Stack :=
  if (k.tracked line).isSome then
    { k with dir := k.dir.map (fun d =>
        if d.line = line ∧ d.holders.contains holder = false then { d with holders := d.holders ++ [holder] }
        else d) }
  else { k with dir := k.dir ++ [⟨line, [holder]⟩] }

def State.trackLoad (s : State) (n : Nat) (p : Packet) : State :=
  if p.op = opLoad ∧ jzb2 p.src = true ∧ p.poison = false ∧ s.targetOk n p = true then
    s.modStack n (fun k => (pktLines p).foldl (fun k l => k.track l p.src) k)
  else s

/-! ### Turns (R292, R293) -/

/-- Lines on which a request's turn has come. -/
def Stack.turns (k : Stack) (p : Packet) : Nat :=
  ((k.lineHolds.find? (fun h => h.pkt == p)).map (·.lines)).getD 0

/-- The line on which a request waits for its turn: requests take their lines in ascending order. -/
def Stack.nextLine (k : Stack) (p : Packet) : Option Nat := (pktLines p)[k.turns p]?

/-- The waiting request that has its turn on a line: no other operation is applied to the line before it. -/
def State.lineHolder (s : State) (n line : Nat) : Option Packet :=
  (s.lineWaiters n line).find? (fun p => ((pktLines p).take ((s.stack n).turns p)).contains line)

/-- The next source in turn after the one served last. -/
def nextTurn (last : Nat) (l : List Packet) : Option Packet :=
  let after (p : Packet) : Nat := (p.src.toNat + 65536 - last - 1) % 65536
  l.foldl (fun best p => match best with
    | none => some p
    | some q => if after p < after q then some p else some q) none

/-- The operations for which a line is the next to be taken. -/
def State.inTurn (s : State) (n line : Nat) : List Packet :=
  (s.lineWaiters n line).filter (fun q => (s.stack n).nextLine q == some line)

/-- An operation has its turn on its next line: nothing else holds the line, its source follows the one served last
among the sources that wait, and none of its source came before it (R292, R293). A source is a node (DEDUCED, log entry
224). -/
def State.hasTurn (s : State) (n line : Nat) (p : Packet) : Bool :=
  let l := s.inTurn n line
  (s.lineHolder n line).isNone
    && (nextTurn (Tab.get 65535 (s.stack n).lineTurn line) (p :: l)).map (·.src) == some p.src
    && (l.find? (fun q => q.src == p.src)).getD p == p

/-- The request's turn on its next line has come. -/
def Stack.takeTurn (k : Stack) (line : Nat) (p : Packet) : Stack :=
  { k with
    lineTurn := Tab.put k.lineTurn line p.src.toNat
    lineHolds := k.lineHolds.filter (fun h => h.pkt != p) ++ [⟨p, k.turns p + 1⟩] }

/-- Take the turn on each further line of a request, as far as it comes at once: the state, and whether all of them
have come. -/
def State.takeTurns : List Nat → State → Nat → Packet → State × Bool
  | [], s, _, _ => (s, true)
  | line :: rest, s, n, p =>
    if s.hasTurn n line p then takeTurns rest ((s.noteWaiting n [line]).modStack n (fun k => k.takeTurn line p)) n p
    else (s, false)

/-- An operation has been applied, or is gone. -/
def Stack.dropHold (k : Stack) (p : Packet) : Stack :=
  { k with lineHolds := k.lineHolds.filter (fun h => h.pkt != p), lineOrder := k.lineOrder.erase p }

/-! ### The order in which packets leave an internal port (10_spans_and_routing.md R321; 17_security_and_tenancy.md
R504) -/

/-- What a packet stands for at its target: the first of its merge, or itself. -/
def State.headOf (s : State) (n : Nat) (p : Packet) : Packet := (s.sw.group (intPort n) p).head?.getD p

/-- What a packet stands for has come whole: the packets of its merge, or itself. A port is trained at its full width at
most, and an abutment is faster (11_switch_die.md R353). -/
def State.hasCome (s : State) (n : Nat) (p : Packet) : Bool :=
  (s.sw.group (intPort n) p).all (fun q => (s.tailPort (.inl q)).isNone)

/-- A packet of an internal egress queue could leave now: whole, and a request once its turns have come and nothing
holds it. -/
def State.couldLeave (s : State) (n : Nat) (p : Packet) : Bool :=
  s.hasCome n p &&
    (if isRequest p.op then
      let t := s.takeTurns ((pktLines p).drop ((s.stack n).turns p)) n p
      t.2 && !(t.1.dirGate n (t.1.forwarded p)).2
    else true)

/-- The packets of some queues of an internal port that could leave now. -/
def State.leaving (s : State) (n : Nat) (queues : List Nat) : List Packet :=
  (queues.flatMap (fun q => s.sw.egressQ (intPort n) q)).filter (s.couldLeave n)

def queuesP : List Nat := [3, 4]
def queuesD : List Nat := [7, 8]
def queuesQ : List Nat := [0, 1, 2]

/-- The place of a packet's class in the round robin of P, D and Q. -/
def classFlow (p : Packet) : Nat := if p.cls = classQ then 2 else if p.cls = classD then 1 else 0

/-- Weights of P, D and Q at an internal port. -/
def internalWeight (i : Nat) : Nat := if i = 0 then 4 else if i = 1 then 1 else 3

/-- A packet of an internal port leaves when no span frame can be taken there and its class, and within Q its tenant, has
the turn; one beside which nothing else could leave goes at once. None where it has to wait (DESIGN CHOICE, log entry
190). -/
def State.leaveTurn (s : State) (n : Nat) (p : Packet) : Option State :=
  let port := intPort n
  let others := (s.leaving n (queuesP ++ queuesD ++ queuesQ)).filter (fun k => k != p)
  if s.frameWaits n then none
  else if others.isEmpty then some s
  else
    let mine (i : Nat) : Option Nat := if i = classFlow p then some (pktBytes p) else none
    let sizeT (t : Nat) : Option Nat :=
      if p.cls = classQ ∧ p.tenant.toNat = t then some (pktBytes p)
      else (others.find? (fun k => k.cls == classQ && k.tenant.toNat == t)).map pktBytes
    let tenant := s.drrAt 8 (16 * (100 + port)) (16 * (100 + port) + 8) sizeT
      (fun t => bitsOf (s.reg .SWC_TENANT_Q).toNat (4 * t + 3) (4 * t))
    let size (i : Nat) : Option Nat :=
      if i = 2 then tenant.bind (fun r => sizeT r.1)
      else (mine i).or ((others.find? (fun k => classFlow k == i)).map pktBytes)
    match s.drrAt 3 (16 * port) (16 * port + 3) size internalWeight with
    | none => none
    | some (i, t) =>
      if i ≠ classFlow p then none
      else if i ≠ 2 then some t
      else match tenant with
        | none => none
        | some (k, u) =>
          if k ≠ p.tenant.toNat then none
          else (u.drrAt 3 (16 * port) (16 * port + 3) size internalWeight).map (·.2)

/-- A packet that stands in an egress queue of the internal port is whole and has its turn to leave. -/
def State.mayLeave (s : State) (n : Nat) (p : Packet) : Bool :=
  !(s.sw.egressQ (intPort n) (pktQueue p)).contains p || (s.hasCome n p && (s.leaveTurn n p).isSome)

/-- A packet reaches its destination and leaves the switch. -/
def State.receive (s : State) (n : Nat) (p : Packet) : State :=
  ((s.leaveTurn n p).getD s).takeEgress (intPort n) (pktQueue p) p

end Sys2Proof.Machine
end

