-- ==== Sys2Proof/Machine/Requests.lean ====
section
/-! DEFINITION. The source side of the fabric: the holds before a request is sent, its colour, its
resends, its answers, and dead targets (09_fabric_memory.md R278 to R286, R294 to R303;
05_spatial_pipelines.md R147; 10_spans_and_routing.md R312, R328, R330, R332, R333). -/

namespace Sys2Proof.Machine

def ticksPerUs : Nat := 75200

/-! ### Holds (R278, R281, R284, R303, R328, R333) -/

/-- R281. -/
def Stack.keystoneHeld (k : Stack) (r : Req) : Bool := (k.earlierOpen r).any (fun q => q.op != opLoad)

/-- Requests sent as routed packets and unanswered. -/
def Stack.routed (k : Stack) : List Req := k.reqs.filter (fun r => decide (r.st = .sent) && r.span == 0)

def Stack.unanswered (k : Stack) (node : BitVec 16) : Nat :=
  (k.routed.filter (fun r => r.node == node)).length

/-- The granules of the reply buffer that a request reserves (R328). -/
def replyGranules (r : Req) : Nat :=
  if r.op = opLoad then (r.len + 63) / 64 else if r.op = opAtomic then 1 else 0

def replyBuffer : Nat := 16384

def Stack.window (k : Stack) (node : BitVec 16) : Window :=
  Tab.get ⟨1024, 0, 0⟩ k.windows node.toNat

/-- Nothing at the abutment holds a request. -/
def State.mayGo (s : State) (n : Nat) (r : Req) : Bool :=
  let k := s.stack n
  decide (r.st = .held) && !k.lineHeld r && (r.op != opKeystone || !k.keystoneHeld r)
    && !s.windowHeld n r

/-- Room for one more routed request. -/
def State.mayRoute (s : State) (n : Nat) (r : Req) : Bool :=
  let k := s.stack n
  decide (k.unanswered r.node < 1024)
    && decide (sumNat (k.routed.map replyGranules) + replyGranules r ≤ replyBuffer)
    && (!s.bit (.ABT_THROTTLE n) ABT_THROTTLE_MARKS
      || decide (k.unanswered r.node < (k.window r.node).w))

/-! ### Spans that carry an access (R147, R312, R314) -/

/-- A span admits an access: it was active when the access issued, and still stands. -/
def SpanOut.admits (x : SpanOut) (r : Req) : Bool :=
  r.offers.contains x.id
  && (r.op == opStore || r.op == opKeystone || r.op == opAccum)
  && x.dstNode == r.node
  && decide (x.dstBase ≤ r.offset) && decide (r.offset + r.len ≤ x.dstBase + x.dstLen)

/-- The span with the lowest span_id that admits the access. -/
def Stack.spanFor (k : Stack) (r : Req) : Option SpanOut :=
  (k.spansOut.filter (fun x => x.admits r)).foldl (fun best x => match best with
    | none => some x
    | some y => if x.id.toNat < y.id.toNat then some x else some y) none

/-- No frame goes on the span: it is paused, or the end of its pause waits for a SYNC_REPLY (R339, R340). -/
def SpanOut.paused (x : SpanOut) : Bool := decide (x.st = .paused) || x.sync != 0

/-- Data bytes that a frame of the span holds. -/
def frameRoom (cells : Nat) : Nat := Nat.min 8184 (cells * 256 - 16)

/-- The access word of Table 10-5. -/
def accessWord (op redop fmt offset : Nat) : Nat :=
  op * 2 ^ 62 + redop * 2 ^ 60 + fmt * 2 ^ 56 + offset % 2 ^ 40

/-- op, redop and format of an access word, from a request. -/
def reqAccess (r : Req) : Nat × Nat × Nat :=
  if r.op = opKeystone then (1, 0, 0)
  else if r.op = opAccum then (2, bitsOf r.param.toNat 7 6, bitsOf r.param.toNat 5 2)
  else (0, 0, 0)

/-- The data of a request in frames (R312): one frame, or consecutive ones cut at multiples of 8 of the offset
(09_fabric_memory.md R277). -/
def framePieces (room off len : Nat) : List (Nat × Nat) :=
  if len ≤ room then [(0, len)] else pieces room (off % 8) len

/-- The frames that carry a request; label, epoch and ackreq are set when they are sent. -/
def spanFrames (x : SpanOut) (r : Req) (tenant : BitVec 3) : List SentFrame :=
  let a := reqAccess r
  (framePieces (frameRoom x.cells) r.offset r.len).map (fun p =>
    { count := 0, req := r.id, sentAt := 0,
      frame :=
        { label := 0, kind := 0, ackreq := false, epoch := 0, tenant := tenant,
          payload := le8 (accessWord a.1 a.2.1 a.2.2 (r.offset - x.dstBase + p.1))
            ++ (r.payload.drop p.1).take p.2 } })

/-- The access joins a span's queue. -/
def State.onSpan (s : State) (n : Nat) (x : SpanOut) (r : Req) : State :=
  let t := s.modSpan n x.id (fun y =>
    { y with queue := y.queue ++ spanFrames y r (BitVec.ofNat 3 (s.tenantOf n)) })
  t.modStack n (fun k => { k with reqs := k.reqs.map (fun q =>
    if q.id = r.id then { q with st := .sent, span := x.tag, firstSent := s.now } else q) })

/-! ### Sending (R284, R330) -/

/-- Nanoseconds of a tick count. -/
def nanoseconds (t : Nat) : Nat := t * 10 / 752

/-- The buckets at the present moment (R330). -/
def State.meter (s : State) (n : Nat) : Nat × Nat :=
  let k := s.stack n
  let rate := Nat.min 1000 (s.fld (.ABT_METER n) ABT_METER_RATE)
  let cb := s.fld (.ABT_METER n) ABT_METER_CB * 1024
  let eb := s.fld (.ABT_METER n) ABT_METER_EB * 1024
  let ns := nanoseconds s.now - nanoseconds k.meterAt
  if rate = 0 then (k.tc, if k.tc < cb ∨ ns = 0 then k.te else Nat.min eb k.te)
  else
    let fill := (cb - k.tc + rate - 1) / rate
    (if k.tc < cb then Nat.min cb (k.tc + ns * rate) else k.tc,
     if fill < ns then Nat.min eb (k.te + (ns - fill) * rate) else k.te)

/-- The colour of a class Q packet of `b` bytes, drawn from the buckets. -/
def State.colour (s : State) (n b : Nat) : BitVec 2 × State :=
  let m := s.meter n
  let set (tc te : Nat) : State := s.modStack n (fun k => { k with tc := tc, te := te, meterAt := s.now })
  if !s.bit (.ABT_METER n) ABT_METER_ENABLE then (green, set m.1 m.2)
  else if b ≤ m.1 then (green, set (m.1 - b) m.2)
  else if b ≤ m.2 then (yellow, set m.1 (m.2 - b))
  else (red, set m.1 m.2)

/-- A write of ABT_METER: the buckets have filled at the former rate up to this moment (R330). -/
def State.wrMeter (s : State) (n : Nat) (v live : Word) : State :=
  let m := s.meter n
  (s.modStack n (fun k => { k with tc := m.1, te := m.2, meterAt := s.now })).plainWrite (.ABT_METER n) v live

/-- The packet of a request. A keystone to a JZB-2 node goes as a store (R283). -/
def State.requestPacket (s : State) (n : Nat) (r : Req) : Packet :=
  let op := if r.op = opKeystone ∧ jzb2 r.node = true then opStore else r.op
  newPacket (s.node n) r.node classQ op (if r.op = opLoad then BitVec.ofNat 8 (r.len - 1) else r.param)
    (BitVec.ofNat 3 (s.tenantOf n)) r.offset r.seq r.payload

/-- Send a request, or send it again, metered afresh. -/
def State.sendReq (s : State) (n : Nat) (r : Req) : State :=
  let p := s.requestPacket n r
  let c := s.colour n (24 + p.payload.length)
  c.2.arrive (intPort n) { p with colour := c.1 }

/-- The first sending of a request: it takes the next number to its node. -/
def State.firstSend (s : State) (n : Nat) (r : Req) : State :=
  let seq := Tab.get 0 (s.stack n).seqTo r.node.toNat
  let r' : Req := { r with st := .sent, seq := BitVec.ofNat 32 seq, firstSent := s.now, resends := 0 }
  let t := s.modStack n (fun k =>
    { k with
      seqTo := Tab.put k.seqTo r.node.toNat ((seq + 1) % 2 ^ 32)
      reqs := k.reqs.map (fun q => if q.id = r.id then r' else q) })
  t.sendReq n r'

def Stack.req? (k : Stack) (id : Nat) : Option Req := k.reqs.find? (fun r => r.id == id)

/-- Send a request that nothing holds: on the span that admits it, else as a routed packet. -/
def State.launchReq (s : State) (n : Nat) (r : Req) : State :=
  let k := s.stack n
  if k.isDead r.node ∨ k.fenced.contains r.node = true then
    if r.st = .held then s.meetDead n r else s
  else if s.mayGo n r then
    match k.spanFor r with
    | some x => if x.paused then s else s.onSpan n x r
    | none => if s.mayRoute n r then s.firstSend n r else s
  else s

/-- REQUEST_INJECT: a request other than a keystone store. -/
def execRequestInject (stack req : Nat) (s : State) : Res :=
  onStack stack (match (s.stack stack).req? req with
    | none => .next s
    | some r => whenOk (r.op != opKeystone) s (s.launchReq stack r))

/-- KEYSTONE_RELEASE: a keystone store whose earlier writes have all been acknowledged. -/
def execKeystoneRelease (stack req : Nat) (s : State) : Res :=
  onStack stack (match (s.stack stack).req? req with
    | none => .next s
    | some r => whenOk (r.op == opKeystone) s (s.launchReq stack r))

/-! ### Resends and the dead timer (R285, R294) -/

/-- When the i-th resend is due, in microseconds after the first sending. -/
def resendUs (i : Nat) : Nat := nth 0 [50, 150, 350, 750] i

/-- Resend `i` of something first sent at `from_` is due. -/
def State.resendDue (s : State) (from_ i : Nat) : Bool :=
  decide (i < 4) && decide (from_ + resendUs i * ticksPerUs ≤ s.now)

def State.modReq (s : State) (n id : Nat) (f : Req → Req) : State :=
  s.modStack n (fun k => { k with reqs := k.reqs.map (fun q => if q.id = id then f q else q) })

/-- RESEND_TIMER. -/
def execResendTimer (stack req : Nat) (s : State) : Res :=
  onStack stack (match (s.stack stack).req? req with
    | none => .next s
    | some r =>
      whenOk (decide (r.st = .sent) && r.span == 0 && s.resendDue r.firstSent r.resends) s
        ((s.modReq stack req (fun q => { q with resends := q.resends + 1 })).sendReq stack r))

/-- No answer has come from a node for 1 ms. -/
def State.silent (s : State) (n : Nat) (node : BitVec 16) : Bool :=
  decide (Tab.get 0 (s.stack n).heard node.toNat + ticksPerMs ≤ s.now)

/-- DEAD_TIMER. -/
def execDeadTimer (stack req : Nat) (s : State) : Res :=
  onStack stack (match (s.stack stack).req? req with
    | none => .next s
    | some r =>
      whenOk (decide (r.st = .sent) && r.span == 0 && decide (r.firstSent + ticksPerMs ≤ s.now)
          && s.silent stack r.node) s (s.markDead stack r.node howTimer))

/-! ### Answers (R280, R284, R286, R328, R333, R350) -/

/-- Something has come from a node (R294). -/
def State.hear (s : State) (n : Nat) (node : BitVec 16) : State :=
  s.modStack n (fun k => { k with heard := Tab.put k.heard node.toNat s.now })

/-- The window of a node after a reply (R333). -/
def Window.reply (w : Window) (now : Nat) (mark : Bool) : Window :=
  if mark then
    if w.halvedAt = 0 ∨ w.halvedAt - 1 + 8 * ticksPerBeat ≤ now then
      { w with w := Nat.max 1 (w.w / 2), halvedAt := now + 1 }
    else w
  else if w.w ≤ w.unmarked + 1 then { w with w := Nat.min 1024 (w.w + 1), unmarked := 0 }
  else { w with unmarked := w.unmarked + 1 }

def State.windowReply (s : State) (n : Nat) (p : Packet) : State :=
  if s.bit (.ABT_THROTTLE n) ABT_THROTTLE_MARKS then
    s.modStack n (fun k =>
      { k with windows := Tab.put k.windows p.src.toNat ((k.window p.src).reply s.now p.mark) })
  else s

/-- The outstanding request that a reply answers (R284). -/
def Stack.matching (k : Stack) (p : Packet) (ops : List (BitVec 8)) : Option Req :=
  k.routed.find? (fun r => r.node == p.src && r.seq == p.seq && ops.contains r.op)

/-- A request is answered: a write is acknowledged and gone; a load or an atomic keeps its reply for its
register or its descriptor. The descriptor moves on. -/
def State.answerReq (s : State) (n : Nat) (r : Req) (bytes : List Byte) (poisoned : Bool) : State :=
  let t := if returns r.op then
      s.modReq n r.id (fun q =>
        { q with st := .done, reply := (bytes ++ zeros r.len).take r.len, poisoned := poisoned })
    else s.modStack n (fun k => { k with reqs := k.reqs.filter (fun q => q.id != r.id) })
  match r.src with
  | .ring _ h => t.moveDesc moveFuel h
  | .ctx _ _ => t
  | .rebuild _ => t

/-- An access to the node of an absent stack is counted at its source (Table 09-6). The switch of this module counts
those to its own nodes. -/
def State.countAbsent (s : State) (n : Nat) (node : BitVec 16) : State :=
  if !s.ownNode node && !jzb2 node && Config.absentNode node then s.quiet n qSource else s

/-- A class P answer to a request. -/
def State.takeAnswer (s : State) (n : Nat) (p : Packet) (ops : List (BitVec 8)) : State :=
  let t := s.receive n p
  let bad := (s.forwarded p).poison
  if p.op = opAck ∧ bad = true then t.discardPacket
  else match (t.stack n).matching p ops with
    | none => t.hear n p.src
    | some r =>
      (((t.hear n p.src).windowReply n p).countAbsent n p.src).answerReq n r p.payload bad

/-- ACK, DATA and ATOMIC_REPLY. One that answers nothing outstanding is discarded. -/
def execAck (stack : Nat) (pkt : Packet) (s : State) : Res :=
  onStack stack (whenOk (pkt.op == opAck && s.mayLeave stack pkt) s (s.takeAnswer stack pkt [opStore, opKeystone, opAccum]))

def execData (stack : Nat) (pkt : Packet) (s : State) : Res :=
  onStack stack (whenOk (pkt.op == opData && s.mayLeave stack pkt) s (s.takeAnswer stack pkt [opLoad]))

def execAtomicReply (stack : Nat) (pkt : Packet) (s : State) : Res :=
  onStack stack (whenOk (pkt.op == opAtomicReply && s.mayLeave stack pkt) s (s.takeAnswer stack pkt [opAtomic]))

/-- A dead notice is for something the abutment has outstanding: a request, or a SPAN_SYNC or INVAL,
which carry other numbers. -/
def Stack.deadNoticeFor (k : Stack) (node : BitVec 16) (seq : BitVec 32) : Bool :=
  k.routed.any (fun r => r.node == node && r.seq == seq)
    || (seq == 0 && k.spansOut.any (fun x => x.dstNode == node && (decide (0 < x.syncs) || x.sync != 0)))

/-- DEAD. -/
def execDead (stack : Nat) (pkt : Packet) (s : State) : Res :=
  let node := pkt.offset.setWidth 16
  onStack stack (whenOk (pkt.op == opDead && s.mayLeave stack pkt) s
    (let t := s.receive stack pkt
     if (s.forwarded pkt).poison then t.discardPacket
     else if (t.stack stack).deadNoticeFor node pkt.seq then t.markDead stack node howNotice
     else t))

/-! ### Throttle (R332) -/

/-- The largest class Q occupancy among the external egress queues. -/
def State.largestQ (s : State) : Nat :=
  (extPorts.flatMap (fun p => [0, 1, 2].map (fun q => s.sw.occupancy p q))).foldl Nat.max 0

/-- THROTTLE_ADJUST. -/
def execThrottleAdjust (stack : Nat) (s : State) : Res :=
  let r : Reg := .ABT_THROTTLE stack
  let l := s.fld r ABT_THROTTLE_LEVEL
  onStack stack (whenOk (s.stackUp stack) s
    (if 8 * s.fld r ABT_THROTTLE_HI ≤ s.largestQ then s.setFld r ABT_THROTTLE_LEVEL (Nat.min 7 (l + 1))
     else if s.largestQ ≤ 8 * s.fld r ABT_THROTTLE_LO then s.setFld r ABT_THROTTLE_LEVEL (l - 1)
     else s))

end Sys2Proof.Machine
end

