-- ==== Sys2Proof/Machine/Targets.lean ====
section
/-! DEFINITION. The target side of the fabric: the checks of a request, its effect and its answer, the
lines that many sources share, and coherent windows (09_fabric_memory.md R280, R286 to R293, R301 to R307;
11_switch_die.md R350, R355, R360 to R362; 17_security_and_tenancy.md R503). -/

namespace Sys2Proof.Machine

/-! ### Applied numbers (R286) -/

def Stack.applied? (k : Stack) (p : Packet) : Option Applied :=
  k.applied.find? (fun a => a.src == p.src && a.seq == p.seq)

/-- Record an applied number; those of the source that lie 2,048 or more behind it are forgotten. -/
def Stack.record (k : Stack) (a : Applied) : Stack :=
  { k with applied := a :: k.applied.filter (fun b =>
      b.src != a.src || decide ((a.seq - b.seq).toNat < 2048) || decide (2 ^ 31 < (a.seq - b.seq).toNat)) }

/-! ### The effect of a request -/

/-- The answer of a load or an atomic. -/
def answerPacket (p : Packet) (op : BitVec 8) (bytes : List Byte) (poison : Bool) : Packet :=
  { replyTo p op (if poison then zeros (pktLen p) else bytes) with poison := poison }

/-- Apply a request to the memory of its target: the state and the answer. -/
def State.applyReq (s : State) (n : Nat) (p : Packet) : State × Packet :=
  let off := p.offset.toNat
  if p.op = opLoad then
    let a := s.loadAt n off (pktLen p)
    (a.state, answerPacket p opData a.bytes a.poisoned)
  else if p.op = opAtomic then
    let size := pktAtomicBytes p
    let a := s.atomicAt n (bitsOf p.param.toNat 7 4) size off (leNat (p.payload.take size))
      (leNat ((p.payload.drop 8).take size))
    (a.state, answerPacket p opAtomicReply a.bytes a.poisoned)
  else if p.op = opAccum then
    (s.accumAt n (bitsOf p.param.toNat 5 2) (bitsOf p.param.toNat 7 6) off p.payload, replyTo p opAck [])
  else (s.storeAt n off p.payload, replyTo p opAck [])

/-- One request at its target: a duplicate is answered again, a violation is silent, and an applied number
is recorded with its answer. -/
def State.serveOne (s : State) (n : Nat) (p : Packet) : State :=
  if p.poison then s.discardPacket
  else
    match (s.stack n).applied? p, p.op == opLoad with
    | some a, false =>
      s.arrive (intPort n)
        (if p.op = opAtomic then answerPacket p opAtomicReply a.reply a.poison else replyTo p opAck [])
    | _, _ =>
      if !s.targetOk n p then (s.quiet n qTarget).arrive (intPort n) (silentReply p)
      else
        let r := s.applyReq n p
        (r.1.modStack n (fun k =>
          k.record ⟨p.src, p.seq, if p.op = opAtomic then r.2.payload else [], r.2.poison⟩)).arrive
          (intPort n) r.2

/-! ### Serving (R290 to R293) -/

/-- The reply to a request of a merge leaves in the cell of the request (R362). -/
def State.keepCell (s : State) (n : Nat) (q : Packet) : State :=
  s.modSw (fun w => { w with replyCells := w.replyCells ++ [(queueKey (intPort n) (pktQueue q), q)] })

/-- A merge holds the packet. -/
def Switch.inMerge (w : Switch) (port : Nat) (p : Packet) : Bool :=
  w.merges.any (fun m => m.port == port && m.reqs.contains p)

/-- Apply a request, or the merge that holds it, unless it must wait for invalidations or for its turn to leave. -/
def State.serve (s : State) (n : Nat) (p : Packet) : State :=
  let g := s.sw.group (intPort n) p
  let head := s.headOf n p
  let merged := s.sw.inMerge (intPort n) p
  let d := s.dirGate n (s.forwarded head)
  if d.2 || !d.1.mayLeave n head then d.1
  else
    let t := (d.1.receive n head).modStack n (fun k => k.dropHold head)
    let t := (g.drop 1).foldl (fun u q => u.readCells (.inl q)) t
    g.foldl (fun u q =>
      let x := s.forwarded q
      let v := if merged && !x.poison then u.keepCell n q else u
      (v.serveOne n x).trackLoad n x) t

/-- A request goes on: its turns come as far as they can, and once its turn has come on every line it is applied. -/
def State.attend (s : State) (n : Nat) (p : Packet) : State :=
  let head := s.headOf n p
  let t := s.takeTurns ((pktLines head).drop ((s.stack n).turns head)) n head
  if t.2 then t.1.serve n p else t.1

/-- A class Q packet that waits for a stack that has failed or is not bound: the switch answers with DEAD
(15_startup_and_defects.md R463; 17_security_and_tenancy.md R501). -/
def State.turnAway (s : State) (n : Nat) (p : Packet) : State :=
  if (s.sw.egressQ (intPort n) (pktQueue p)).contains p ∧ s.hasCome n p = true then
    let g := s.sw.group (intPort n) p
    let t := (s.takeEgress (intPort n) (pktQueue p) p).modStack n (fun k => k.dropHold p)
    g.foldl (fun u q => u.answerDead q) ((g.drop 1).foldl (fun u q => u.freeCells (.inl q)) t)
  else s

/-- The stack serves what reaches its port. -/
def State.serves (s : State) (n : Nat) : Bool := s.stackUp n && s.bound n

/-- A request of one operation at its target. -/
def onRequest (s : State) (n : Nat) (p : Packet) (op : BitVec 8) : Res :=
  onStack n (whenOk (s.stackPresent n && p.op == op) s (if s.serves n then s.attend n p else s.turnAway n p))

def execLoad (stack : Nat) (pkt : Packet) (s : State) : Res := onRequest s stack pkt opLoad
def execStore (stack : Nat) (pkt : Packet) (s : State) : Res := onRequest s stack pkt opStore
def execRoutedKeystone (stack : Nat) (pkt : Packet) (s : State) : Res := onRequest s stack pkt opKeystone
def execAtomic (stack : Nat) (pkt : Packet) (s : State) : Res := onRequest s stack pkt opAtomic
def execAccum (stack : Nat) (pkt : Packet) (s : State) : Res := onRequest s stack pkt opAccum

/-! ### Accesses of the host cores (06_host_cores.md R172, R589) -/

/-- The far tier's window belongs to an absent unit (R172, Table 09-1). -/
def State.absentWindow (s : State) (n off : Nat) : Bool :=
  !s.farPresent n && decide (farBase ≤ off) && decide (off < farBase + 64 * gib)

/-- The atomic code of an AMO: 11 and 12 are RISC-V's unsigned minimum and maximum, which the fabric
does not have. -/
def amoNew (sub : BitVec 4) (w old opnd cmp : Nat) : Nat :=
  if sub = 11 then Nat.min (old % 2 ^ w) (opnd % 2 ^ w)
  else if sub = 12 then Nat.max (old % 2 ^ w) (opnd % 2 ^ w)
  else atomicNew sub.toNat w old opnd cmp

def coreWord (bs : List Byte) : Word := BitVec.ofNat 64 (leNat bs)

/-- A violation of R172: counted, a read returns zero. -/
def State.coreViolation (s : State) (n : Nat) (op : CoreOp) : State :=
  let t := s.quiet n qCore
  match op with
  | .store => t
  | .load | .amo _ => t.emit (.coreData 0)

/-- An answer goes back to the core: data, or a load access fault, or for an AMO a store/AMO access fault
(R589). -/
def coreReply (n c : Nat) (amo : Bool) (r : Answer) : State :=
  r.state.emit (if r.poisoned then .coreFault n c amo else .coreData (coreWord r.bytes))

/-- The AMO at its target, for the codes the fabric does not have: one that meets POISON or a bad drawer
word answers poisoned and changes nothing. -/
def State.coreAtomic (s : State) (n : Nat) (sub : BitVec 4) (size off opnd cmp : Nat) : Answer :=
  if sub = 11 ∨ sub = 12 then
    let r := s.loadAt n off size
    if r.poisoned then r
    else
      ⟨r.state.storeAt n off (leBytes size (amoNew sub (8 * size) (leNat r.bytes) opnd cmp)), r.bytes, false⟩
  else s.atomicAt n sub.toNat size off opnd cmp

/-- The node windows take stores and atomics at this offset; where they do not, the access is one
violation and no load happens. -/
def State.takesStore (s : State) (n off len : Nat) : Bool :=
  match s.whereIs n off len with
  | .near _ | .far _ => true
  | .drawer a => s.benchNamed n (a / drawerSize)
  | .control _ | .nothing => false

/-- The tracked lines of a coherent window that an access of a core writes. -/
def State.coreTracked (s : State) (n : Nat) (a : CoreAcc) : List DirLine :=
  if a.op ≠ .load ∧ s.inWindow n a.off a.bytes = true then
    (linesOf a.off a.bytes).filterMap (fun l => (s.stack n).tracked l)
  else []

/-- An access within the node windows, served by the stack's own abutment as a target. -/
def State.coreServe (s : State) (n : Nat) (a : CoreAcc) : State :=
  let mask (v : Word) : Nat := v.toNat % 2 ^ (8 * a.bytes)
  match a.op with
  | .load => coreReply n a.core false (s.loadAt n a.off a.bytes)
  | .store => s.storeAt n a.off (leBytes a.bytes a.value.toNat)
  | .amo sub => coreReply n a.core true (s.coreAtomic n sub a.bytes a.off (mask a.value) (mask a.compare))

/-- An access that has its turn on every line waits on for a row repair (13_memory_tiers.md R422), or, a write, for the
invalidation of the copies that JZB-2 nodes hold of its lines, which it starts (R304). Otherwise it is served and the
abutment holds it no longer. -/
def State.coreGo (s : State) (n : Nat) (a : CoreAcc) : State :=
  let p := corePacket (s.node n) a
  let t := s.takeTurns ((pktLines p).drop ((s.stack n).turns p)) n p
  if !t.2 || t.1.bankBusy n a.off a.bytes then t.1
  else if !(t.1.coreTracked n a).isEmpty then (t.1.coreTracked n a).foldl (fun u d => u.invalLine n d) t.1
  else (t.1.modStack n (fun k => { k.dropHold p with coreHeld := k.coreHeld.erase a })).coreServe n a

/-- Let the accesses that the abutment holds go as far as they can, each core's in its own order. -/
def State.coreResume (s : State) (n : Nat) : State :=
  (s.stack n).coreHeld.foldl (fun t a => if (t.stack n).coreFirst a then t.coreGo n a else t) s

/-- An access of a core within the node windows. -/
def State.coreNode (s : State) (n : Nat) (a : CoreAcc) : State :=
  if s.absentWindow n a.off then s.coreViolation n a.op
  else if a.op ≠ .load ∧ a.op ≠ .store ∧ a.off % a.bytes ≠ 0 then (s.quiet n qSource).emit (.coreData 0)
  else if a.op ≠ .load ∧ a.op ≠ .store ∧ s.takesStore n a.off a.bytes = false then
    (s.quiet n qTarget).emit (.coreData 0)
  else
    let t := (s.came n (corePacket (s.node n) a)).modStack n (fun k => { k with coreHeld := k.coreHeld ++ [a] })
    if (t.stack n).coreFirst a then t.coreGo n a else t

/-! ### A debug access to a tier (19_register_map.md R554) -/

def dbgCtl : Reg := .SEC_DEBUG_ACCESS_CTL

/-- The end of a debug access: ERR, and DATA after a read. -/
def State.debugEnd (s : State) (err write : Bool) (data : Word) : State :=
  let t := s.setBit dbgCtl SEC_DEBUG_ACCESS_CTL_ERR err
  if write then t else t.setReg .SEC_DEBUG_ACCESS_DATA (if err then 0 else data)

/-- The 8 bytes of plaintext are read or written in their tier. -/
def State.debugTier (s : State) (a : DebugAcc) : State :=
  if a.write then
    let t := s.senseAll a.stack a.far (linesOf a.addr 8)
    if (t.stack a.stack).anyPoison a.far (linesOf a.addr 8) then (t.poisonHit a.stack).debugEnd true true 0
    else (t.storeTier a.stack a.far a.addr (le8 a.data.toNat)).debugEnd false true 0
  else
    let r := s.loadTier a.stack a.far a.addr 8
    r.state.debugEnd r.poisoned false (leWord r.bytes)

/-- A debug access goes on in its line's stream: once it has its turn on the line and no row repair holds the bank.
Until then it stays BUSY. -/
def State.debugResume (s : State) (n : Nat) : State :=
  match s.keeper.debugHeld with
  | none => s
  | some a =>
    if a.stack = n then
      let p := debugPacket (s.node n) a
      let t := s.takeTurns ((pktLines p).drop ((s.stack n).turns p)) n p
      if !t.2 || t.1.tierBusy n a.far a.addr 8 then t.1
      else
        let u : State := { t.1 with keeper := { t.1.keeper with debugHeld := none } }
        ((u.setBit dbgCtl SEC_DEBUG_ACCESS_CTL_BUSY false).modStack n (fun k => k.dropHold p)).debugTier a
    else s

/-- Space 1: 8 bytes of plaintext in a tier. -/
def State.debugSpace1 (s : State) (write : Bool) (n : Nat) (far : Bool) (a : Nat) (data : Word) : State :=
  let size := if far then s.farSize n else s.nearSize n
  if a % 8 ≠ 0 ∨ size < a + 8 ∨ s.stackUp n = false then s.debugEnd true write 0
  else
    let x : DebugAcc := ⟨write, n, far, a, data⟩
    let t := s.came n (debugPacket (s.node n) x)
    ({ t with keeper := { t.keeper with debugHeld := some x } }.setBit dbgCtl SEC_DEBUG_ACCESS_CTL_BUSY
      true).debugResume n

/-! ### ABT_CWIN_CFG and ABT_LINE_STATUS (R306, R307) -/

/-- The window that a word of ABT_CWIN_CFG gives may be enabled. -/
def State.windowFits (s : State) (n : Nat) (w : Word) : Bool :=
  let size := getF w ABT_CWIN_CFG_SIZE
  decide (1 ≤ size) && decide (size ≤ 64)
    && decide ((getF w ABT_CWIN_CFG_BASE + size) * gib ≤ s.nearSize n)

/-- A write of ABT_CWIN_CFG. On a variant without the directory it is ignored (R7). -/
def State.wrCwinCfg (n : Nat) (v live : Word) (s : State) : State :=
  let r : Reg := .ABT_CWIN_CFG n
  let new := mergeWrite (s.reg r) v live r.access
  let same := getF new ABT_CWIN_CFG_BASE = s.fld r ABT_CWIN_CFG_BASE
    ∧ getF new ABT_CWIN_CFG_SIZE = s.fld r ABT_CWIN_CFG_SIZE
  if !s.cwdPresent then s
  else if s.bit r ABT_CWIN_CFG_ENABLE then
    if getF new ABT_CWIN_CFG_ENABLE = 0 then
      let t := (s.setReg r new).setBit r ABT_CWIN_CFG_BUSY true
      let u := t.modStack n (fun k =>
        { k with oldWindow := some (s.fld r ABT_CWIN_CFG_BASE, s.fld r ABT_CWIN_CFG_SIZE) })
      (u.stack n).dir.foldl (fun x d => x.invalLine n d) u
    else if writesOne v live ABT_CWIN_CFG_ENABLE ∨ ¬ same then s.countAt r
    else s.setReg r new
  else if getF new ABT_CWIN_CFG_ENABLE = 1 then
    if s.bit r ABT_CWIN_CFG_BUSY ∨ s.windowFits n new = false then s.countAt r else s.setReg r new
  else s.setReg r new

/-- CWIN_CFG_WRITE. -/
def execCwinCfgWrite (who : Requester) (stack : Nat) (value : Word) (s : State) : Res :=
  stackWrite stack who (.ABT_CWIN_CFG stack) s (State.wrCwinCfg stack value wholeWrite)

/-- CWIN_DRAIN_DONE: every tracked line has been invalidated. -/
def execCwinDrainDone (stack : Nat) (s : State) : Res :=
  let r : Reg := .ABT_CWIN_CFG stack
  onStack stack (whenOk (s.bit r ABT_CWIN_CFG_BUSY && (s.stack stack).dir.isEmpty
      && (s.stack stack).invals.isEmpty) s
    ((s.setBit r ABT_CWIN_CFG_BUSY false).modStack stack (fun k => { k with oldWindow := none })))

/-- A write of ABT_LINE_STATUS. -/
def State.wrLineStatus (n : Nat) (v live : Word) (s : State) : State :=
  if writesOne v live ABT_LINE_STATUS_RESET_MAX then
    s.setFld (.ABT_LINE_STATUS n) ABT_LINE_STATUS_MAX_WAITING 0
  else s

/-- RESET_MAX. -/
def execResetMax (who : Requester) (stack : Nat) (s : State) : Res :=
  stackWrite stack who (.ABT_LINE_STATUS stack) s (State.wrLineStatus stack 1 wholeWrite)

end Sys2Proof.Machine
end

