-- ==== Sys2Proof/Machine/Spans.lean ====
section
/-! DEFINITION. Spans at their source abutment and in the tables of the switch: opening and closing,
re-routing, pauses and the sending of frames (10_spans_and_routing.md R311 to R321, R334 to R340;
11_switch_die.md R343, R349). -/

namespace Sys2Proof.Machine

/-! ### Ports in entries (R318, R343, R349) -/

/-- The port has a number of R343, is present and can carry spans: the host port never does (R344). -/
def State.portNamed (s : State) (p : Nat) : Bool :=
  if p < 36 then s.portPresent p
  else decide (64 ≤ p) && decide (p < 72) && s.stackPresent (p - 64)

/-- The port can carry span frames: an external port in UP, or the abutment of a stack that has not
failed. -/
def State.portCarries (s : State) (p : Nat) : Bool :=
  if p < 36 then s.usable p
  else if 64 ≤ p ∧ p < 72 then s.stackUp (p - 64)
  else false

/-- The largest total share of a port. -/
def State.shareLimit (s : State) (p : Nat) : Nat :=
  if p < 36 then Nat.min 60 (Nat.max 1 (s.fld (.PORT_SHARE p) PORT_SHARE_LIMIT)) else 56

/-- The share that a trestle entry's branches take of a port. -/
def Trestle.shareOn (t : Trestle) (p : Nat) : Nat :=
  (t.branches.filter (fun b => b.1 == p)).length * t.reserve.2

/-- The share that spans and trestles have reserved on a port (PORT_SHARE.USED). -/
def State.shareUsed (s : State) (p : Nat) : Nat :=
  sumNat ((s.sw.spanTab.filter (fun e => e.outPort == p)).map (·.share))
    + sumNat ((s.sw.trestles.filter (·.committed)).map (fun t => t.shareOn p))

def State.spanMax (s : State) : Nat := Nat.min 262144 (s.fld .SWC_CELL_CFG SWC_CELL_CFG_SPAN_MAX)

/-- The span region can grow by `c` cells (R349). -/
def State.cellsFree (s : State) (c : Nat) : Bool :=
  decide (s.sw.spanReserved + c ≤ s.spanMax) && decide (c ≤ s.freeShared)

/-- A label of the span table is in use: by a span, or by a trestle of this switch or a hosted one at its
own port (R365). -/
def Switch.labelUsed (w : Switch) (label : Nat) : Bool :=
  w.spanTab.any (fun e => e.label == label)
    || w.own.any (fun t => (!t.reduction && t.label == label) || t.ins.any (fun i => i.2.1 == label))

def spanTable : Nat := 16384

/-- The result of a SPAN_ENTRY_SET (Table 10-7): the lowest refusal that applies. -/
def State.entryResult (s : State) (m : SpanEntrySet) : Nat :=
  if s.sw.labelUsed m.label ∨ spanTable ≤ m.label then 1
  else if s.shareLimit m.outPort < s.shareUsed m.outPort + m.share then 2
  else if !s.cellsFree m.cells then 3
  else if !s.portNamed m.inPort || !s.portCarries m.outPort then 4
  else if s.oldJfp m.outPort then 5
  else 0

/-- The span entry that a port and a label name. -/
def Switch.entry (w : Switch) (inPort label : Nat) : Option SpanEntry :=
  w.spanTab.find? (fun e => e.inPort == inPort && e.label == label)

/-- The dst_base of a span of this module; of another module's span it is not known here: a free value. -/
def State.spanBase (s : State) (src id : BitVec 16) : Nat × State :=
  if s.ownNode src then
    match s.span? (src.toNat % 8) id with
    | some x => (x.dstBase, s)
    | none => ((s.takeFree).1 % two48, (s.takeFree).2)
  else ((s.takeFree).1 % two48, (s.takeFree).2)

/-- The record of a span at its target, created with the last entry of its path. -/
def State.openRecord (s : State) (n : Nat) (src id : BitVec 16) : State :=
  if ((s.stack n).spanIn? src id).isSome ∨ 1024 ≤ (s.stack n).spansIn.length then s
  else
    let b := s.spanBase src id
    b.2.modStack n (fun k =>
      { k with spansIn := k.spansIn ++ [⟨src, id, b.1, 0, 0, 0, 0, none, [], false⟩] })

def State.setEntry (s : State) (m : SpanEntrySet) : State :=
  let e : SpanEntry := ⟨m.inPort, m.label, m.outPort, m.nextLabel, m.share, m.cells, m.srcNode, m.spanId, false⟩
  let t := s.modSw (fun w => { w with spanTab := w.spanTab ++ [e] })
  if 64 ≤ m.outPort ∧ m.outPort < 72 then t.openRecord (m.outPort - 64) m.srcNode m.spanId else t

/-- SPAN_ENTRY_SET. -/
def execSpanEntrySet (src : BitVec 16) (m : SpanEntrySet) (s : State) : Res :=
  let r := s.entryResult m
  let t := if r = 0 then s.setEntry m else s
  onFm s src (t.mgmt s.baseNode 0x05 (le1 m.inPort ++ le1 0 ++ le2 m.label ++ le1 r))

/-- The record ends with the last entry that delivers to it. -/
def State.closeRecord (s : State) (e : SpanEntry) : State :=
  if 64 ≤ e.outPort ∧ e.outPort < 72
      ∧ s.sw.spanTab.any (fun x => x.outPort == e.outPort && x.srcNode == e.srcNode && x.spanId == e.spanId)
        = false then
    s.modStack (e.outPort - 64) (fun k =>
      { k with spansIn := k.spansIn.filter (fun x => !(x.src == e.srcNode && x.id == e.spanId)) })
  else s

/-- The cells of a reservation at the next hop are given up with its entry. -/
def State.forgetSpan (s : State) (port label : Nat) : State :=
  s.modPort port (fun x => { x with spanUsed := Tab.erase x.spanUsed label })

/-- SPAN_ENTRY_CLEAR. -/
def execSpanEntryClear (src : BitVec 16) (inPort label : Nat) (s : State) : Res :=
  onFm s src (match s.sw.entry inPort label with
    | none => s
    | some e =>
      (s.modSw (fun w =>
        { w with
          spanTab := w.spanTab.filter (fun x => x != e)
          kept := w.kept.filter (fun x => x.fromMember || x.port != e.outPort || x.label != e.nextLabel) })).forgetSpan
        e.outPort e.nextLabel |>.closeRecord e)

/-! ### Opening (R315, R316, R319) -/

def Desc.spanId (d : Desc) : BitVec 16 := BitVec.ofNat 16 (d.bits 2 63 48)

/-- The span that a SPAN_OPEN asks for. -/
def State.newSpan (s : State) (d : Desc) : SpanOut :=
  { id := d.spanId, st := .requested, openDesc := d.handle, dstNode := BitVec.ofNat 16 (d.bits 1 63 48),
    dstBase := d.bits 1 47 0, dstLen := d.bits 2 39 0, share := d.bits 3 54 48, cells := d.bits 5 18 0,
    openBeat := BitVec.ofNat 48 (d.bits 3 47 0), first := d.bits 4 40 32, last := d.bits 4 24 16, label := 0,
    epoch := 0, count := 0, acked := 0, queue := [], sent := [], drainAt := 0, since := s.now, syncAt := 0, syncs := 0,
    xctx := d.xctx, sync := 0, marker := none }

/-- SPAN_REQUEST. -/
def State.spanRequest (s : State) (n : Nat) (x : SpanOut) : State :=
  s.mgmt (s.node n) 0x01
    (le2 x.id.toNat ++ le2 (s.node n).toNat ++ le1 (s.tenantOf n) ++ le1 0 ++ le2 x.dstNode.toNat
      ++ le8 x.dstBase ++ le8 x.dstLen ++ le1 x.share ++ le1 0 ++ le4 x.cells ++ le6 x.openBeat.toNat)

/-- SPAN_OPEN. -/
def execSpanOpen (desc : Nat) (s : State) : Res :=
  onStarted s desc dSpanOpen (fun d =>
    let x := s.newSpan d
    if (s.span? d.stack x.id).isSome then s.failDesc desc stBad 10
    else if 1024 ≤ (s.stack d.stack).spansOut.length ∨ x.dstNode = s.node d.stack ∨ s.fmNode = 0xFFFF then
      s.failDesc desc stTimeout 6
    else
      ((s.phase desc .held).modStack d.stack (fun k => { k with spansOut := k.spansOut ++ [x] })).spanRequest
        d.stack x)

/-- The span never opens: its SPAN_OPEN ends with TIMEOUT. -/
def State.spanFails (s : State) (n : Nat) (x : SpanOut) (detail : Nat) : State :=
  (s.modStack n (fun k => { k with spansOut := k.spansOut.filter (fun y => y.id != x.id) })).failDesc
    x.openDesc stTimeout detail

/-- SPAN_GRANT. -/
def execSpanGrant (src : BitVec 16) (stack : Nat) (span label : BitVec 16) (epoch : BitVec 8) (s : State) :
    Res :=
  onStack stack (onFm s src (match s.span? stack span with
    | none => s.spanRelease stack span
    | some x =>
      if x.st ≠ .requested then s
      else if !s.reached x.openBeat then
        (s.modSpan stack span (fun y =>
          { y with st := .armed, label := label, epoch := epoch.setWidth 4 })).arm x.openDesc
      else (s.spanFails stack x 4).spanRelease stack span))

/-- SPAN_REFUSE: the reason is recorded. -/
def execSpanRefuse (src : BitVec 16) (stack : Nat) (span : BitVec 16) (reason : Byte) (s : State) : Res :=
  let t := s.modSw (fun w => { w with refuseReason := reason.toNat })
  onStack stack (onFm s src (match s.span? stack span with
    | none => t
    | some x => if x.st = .requested then t.spanFails stack x 6 else t))

/-- Ticks in 5 ms. -/
def fiveMs : Nat := 5 * ticksPerMs

/-- SPAN_GRANT_TIMEOUT. -/
def execSpanGrantTimeout (stack : Nat) (span : BitVec 16) (s : State) : Res :=
  onStack stack (match s.span? stack span with
    | none => .next s
    | some x =>
      whenOk (decide (x.st = .requested) && decide (x.since + fiveMs ≤ s.now)) s (s.spanFails stack x 4))

/-- SPAN_ACTIVATE: open_beat is reached. -/
def execSpanActivate (stack : Nat) (span : BitVec 16) (s : State) : Res :=
  onStack stack (match s.span? stack span with
    | none => .next s
    | some x =>
      match s.desc? x.openDesc with
      | none => .next s
      | some d =>
        whenOk (decide (x.st = .armed) && s.fires d) s
          ((s.modSpan stack span (fun y => { y with st := .active })).finishDesc x.openDesc))

/-! ### Closing (R317) -/

/-- SPAN_CLOSE waits for its beat. -/
def execSpanClose (desc : Nat) (s : State) : Res :=
  onStarted s desc dSpanClose (fun d =>
    if (s.span? d.stack d.closes).isSome then s.arm desc else s.failDesc desc stBad 10)

/-- A span in CLOSING with every frame acknowledged is CLOSED. -/
def State.endClosing (s : State) (n : Nat) (id : BitVec 16) : State :=
  match s.span? n id with
  | none => s
  | some x =>
    if x.st = .closing ∧ x.queue.isEmpty = true ∧ x.sent.isEmpty = true then s.dropSpan n x else s

/-- The epoch that a SPAN_SYNC asks for: for a recovery that of the oldest unacknowledged frame, which is the old one while
a planned re-route drains, whatever has closed or paused the span since (R335, R337; log entry 225). -/
def SpanOut.syncEpoch (x : SpanOut) : BitVec 4 :=
  if x.sync = 0 then ((x.sent.head?.map (·.frame.epoch)).getD x.epoch) else x.epoch

/-- SPAN_SYNC with an epoch (R335): class Q, always green. -/
def State.sendSync (s : State) (n : Nat) (x : SpanOut) : State :=
  s.arrive (intPort n)
    (newPacket (s.node n) x.dstNode classQ opSpanSync (x.syncEpoch.setWidth 8) (BitVec.ofNat 3 (s.tenantOf n))
      x.id.toNat 0 [])

/-- The next epoch is asked for, to end a pause (R340). -/
def State.endPause (s : State) (n : Nat) (x : SpanOut) : State :=
  let y : SpanOut := { x with epoch := x.epoch + 1, sync := 2, syncs := 0, syncAt := s.now }
  (s.modSpan n x.id (fun _ => y)).sendSync n y

/-- The closing beat of a span. A span that has not opened never does; a paused one also ends its pause, unless it
is being re-routed. -/
def State.closeSpan (s : State) (n : Nat) (x : SpanOut) : State :=
  match x.st with
  | .requested | .armed => (s.spanFails n x 4).spanRelease n x.id
  | .active | .draining => (s.modSpan n x.id (fun y => { y with st := .closing })).endClosing n x.id
  | .paused =>
    let y : SpanOut := { x with st := .closing }
    if x.sync = 0 then s.endPause n y else s.modSpan n x.id (fun _ => y)
  | .closing | .closed => s

/-- SPAN_CLOSE_BEAT. -/
def execSpanCloseBeat (stack : Nat) (span : BitVec 16) (s : State) : Res :=
  onStack stack (match s.host.descs.find? (fun d =>
      d.opcode == dSpanClose && d.stack == stack && d.closes == span && s.fires d) with
    | none => .next s
    | some d =>
      match s.span? stack span with
      | none => .next (s.finishDesc d.handle)
      | some x =>
        match x.st with
        | .requested | .armed => .next ((s.closeSpan stack x).finishDesc d.handle)
        | _ => .next ((s.phase d.handle .held).closeSpan stack x))

/-! ### Sending frames (R311 to R313, R320, R334) -/

def isHaltOrFence : Wait → Bool
  | .halt | .fence => true
  | _ => false

/-- A LAUNCH waits for a context that has been killed and drains (R135): it completes when nothing of the context is
outstanding. -/
def State.launchDrains (s : State) (n b c : Nat) : Bool :=
  let x := s.ctx ⟨n, b, c⟩
  decide (x.st = .killed) && s.host.descs.any (fun d =>
    d.handle == x.launch && d.opcode == dLaunch && d.stack == n && decide (d.phase = .held))

/-- Something waits on a request's acknowledgement: an FFENCE, HALT or keystone store, or the completion of a FENCE, of an
INVALIDATE whose shootdown drains, or of a LAUNCH (R334). -/
def State.waitedOn (s : State) (n : Nat) (id : Nat) : Bool :=
  match (s.stack n).req? id with
  | none => false
  | some r =>
    (match r.src with
     | .ctx b c => (s.ctx ⟨n, b, c⟩).waits.any isHaltOrFence || s.launchDrains n b c
     | .ring _ _ => false
     | .rebuild _ => false)
    || ((s.stack n).reqs.dropWhile (fun q => q.id != id)).any (fun q =>
      q.op == opKeystone && (decide (q.st = .held) || decide (q.st = .walking)) && sameSource q.src r.src)
    || (r.byCtx && (s.host.descs.any (fun d => d.opcode == dFence && d.waits.contains r.acc)
      || (s.stack n).shoots.any (fun x => x.asker.isSome && x.reqs.contains r.acc)))

/-- Cells that the frames of a label from a port hold before they are taken: those that stand there, and those that the
receiver has asked for again (12_collectives.md R400). -/
def Switch.arrivalCells (w : Switch) (port label : Nat) : Nat :=
  labelCells (w.framesAt (framesIn port)) label
    + labelCells ((w.asked.filter (fun x => x.1 == framesIn port)).map (·.2)) label

/-- Cells that an entry's frames hold in this switch. -/
def Switch.entryCells (w : Switch) (e : SpanEntry) : Nat :=
  w.arrivalCells e.inPort e.label + labelCells (w.framesAt e.outPort) e.nextLabel

/-- The entry's reservation has room for a frame (11_switch_die.md R349, R370); a label with no entry takes it and loses
it. -/
def Switch.entryRoom (w : Switch) (inPort : Nat) (f : Frame) : Bool :=
  let label := f.label.toNat
  match w.entry inPort label, w.own.find? (fun t => t.takes inPort label) with
  | some e, _ => decide (w.entryCells e + frameCells f ≤ e.cells)
  | none, some t =>
    let held := ((t.ins.find? (fun i => i.1 == inPort && i.2.1 == label)).map (fun i => t.inputCells i.2.2.1)).getD 0
    decide (w.arrivalCells inPort label + held + frameCells f ≤ t.reserve.1)
  | none, none => true

/-- The completion of a SPAN_CLOSE waits on every frame of its span (R317). -/
def State.closeWaits (s : State) (n : Nat) (id : BitVec 16) : Bool :=
  s.host.descs.any (fun d => d.opcode == dSpanClose && d.stack == n && d.closes == id && decide (d.phase = .held))

/-- The frame as it is sent: label, epoch and ackreq are set now. -/
def State.stampFrame (s : State) (n : Nat) (x : SpanOut) (f : SentFrame) : Frame :=
  { f.frame with
    label := x.label
    epoch := x.epoch
    ackreq := s.closeWaits n x.id || (f :: x.sent).any (fun y => s.waitedOn n y.req) }

/-- A drain marker on the old path. -/
def drainFrame (x : SpanOut) (tenant : BitVec 3) : Frame :=
  { label := x.label, kind := 1, ackreq := false, epoch := x.epoch, tenant := tenant,
    payload := le4 x.count ++ zeros 4 }

/-- The drain marker of a span goes once the cells of the old path have room for it (R327, R349). -/
def State.sendMarker (s : State) (n : Nat) (id : BitVec 16) : State :=
  match (s.span? n id).bind (·.marker) with
  | none => s
  | some m =>
    if s.sw.entryRoom (intPort n) m then
      (s.modSpan n id (fun y => { y with marker := none })).modSw (fun w => w.pushFrame (framesIn (intPort n)) m)
    else s

/-- SPAN_FRAME_SEND. A drain marker that still waits goes first. The rate of R320 is left out. -/
def execSpanFrameSend (stack : Nat) (span : BitVec 16) (s : State) : Res :=
  onStack stack (match s.span? stack span with
    | none => .next s
    | some x =>
      if x.marker.isSome then .next (s.sendMarker stack span)
      else match x.queue with
      | [] => .next s
      | f :: rest =>
        let g := s.stampFrame stack x f
        let c := (x.count + 1) % 2 ^ 32
        let open_ := match x.st with
          | .active | .draining | .closing => !x.paused
          | .requested | .armed | .paused | .closed => false
        whenOk (open_ && s.sw.entryRoom (intPort stack) g) s
          ((s.modSpan stack span (fun y =>
            { y with queue := rest, count := c, sent := y.sent ++ [⟨c, f.req, g, s.now⟩] })).modSw (fun w =>
              w.pushFrame (framesIn (intPort stack)) g)))

/-! ### Acknowledgements (R334, R335) -/

/-- `a` is at or before `b`, modulo 2^32. -/
def countLe (a b : Nat) : Bool := decide (sub32 b a < 2 ^ 31)

/-- A request whose every frame has been acknowledged is acknowledged. -/
def State.spanReqDone (s : State) (n : Nat) (x : SpanOut) (id : Nat) : State :=
  if x.sent.any (fun f => f.req == id) || x.queue.any (fun f => f.req == id) then s
  else match (s.stack n).req? id with
    | none => s
    | some r => s.answerReq n r [] false

/-- REROUTE_DONE. -/
def State.rerouteDone (s : State) (n : Nat) (x : SpanOut) : State :=
  s.mgmt (s.node n) 0x08 (le2 x.id.toNat ++ le1 x.epoch.toNat)

/-- A count acknowledges every frame of the span up to it. -/
def State.spanAcked (s : State) (n : Nat) (x : SpanOut) (c : Nat) : State :=
  let gone := x.sent.filter (fun f => countLe f.count c)
  let y : SpanOut :=
    { x with
      sent := x.sent.filter (fun f => !countLe f.count c), acked := c
      syncs := if gone.isEmpty then x.syncs else 0 }
  let drained := decide (x.st = .draining) && countLe (x.drainAt + 1) c
  let z : SpanOut := if drained then { y with st := .active } else y
  let t := s.modSpan n x.id (fun _ => z)
  let u := if drained then t.rerouteDone n z else t
  ((distinct (gone.map (·.req))).foldl (fun u id => u.spanReqDone n z id) u).endClosing n x.id

/-- The span that a class P packet names by its span_id. -/
def State.spanOf (s : State) (n : Nat) (p : Packet) : Option SpanOut := s.span? n (p.offset.setWidth 16)

/-- SPAN_ACK. -/
def execSpanAck (stack : Nat) (pkt : Packet) (s : State) : Res :=
  onStack stack (whenOk (pkt.op == opSpanAck && s.mayLeave stack pkt) s
    (let t := s.receive stack pkt
     if (s.forwarded pkt).poison then t.discardPacket
     else match t.spanOf stack pkt with
       | none => t.hear stack pkt.src
       | some x => (t.hear stack pkt.src).spanAcked stack x pkt.seq.toNat))

/-- The moment from which the timer of R335 runs: the sending of the oldest unacknowledged frame, or, where
a SYNC_REPLY alone is awaited, the moment that began. -/
def SpanOut.syncFrom (x : SpanOut) : Option Nat :=
  if x.sync ≠ 0 then some x.syncAt else x.sent.head?.map (·.sentAt)

/-- SPAN_SYNC_TIMER. -/
def execSpanSyncTimer (stack : Nat) (span : BitVec 16) (s : State) : Res :=
  onStack stack (match s.span? stack span with
    | none => .next s
    | some x =>
      match x.syncFrom with
      | none => .next s
      | some from_ =>
        if from_ + ticksPerMs ≤ s.now ∧ s.silent stack x.dstNode = true then
          .next (s.markDead stack x.dstNode howTimer)
        else
          whenOk (s.resendDue from_ x.syncs) s
            ((s.modSpan stack span (fun y => { y with syncs := y.syncs + 1 })).sendSync stack x))

/-! ### Re-routing and broken paths (R336, R338 to R340) -/

/-- SPAN_REROUTE. -/
def execSpanReroute (src : BitVec 16) (stack : Nat) (span label : BitVec 16) (epoch planned : Byte)
    (s : State) : Res :=
  onStack stack (onFm s src (match s.span? stack span with
    | none => s
    | some x =>
      let y : SpanOut := { x with label := label, epoch := epoch.setWidth 4 }
      if x.st = .active ∧ planned = 1 then
        (s.modSpan stack span (fun _ =>
          { y with
            st := .draining, drainAt := x.count,
            marker := some (drainFrame x (BitVec.ofNat 3 (s.tenantOf stack))) })).sendMarker stack span
      else if x.st = .paused ∧ x.sync ≠ 2 then
        (s.modSpan stack span (fun _ => { y with sync := 1, syncs := 0, syncAt := s.now })).sendSync stack y
      else s))

/-- SPAN_BROKEN. -/
def execSpanBroken (stack : Nat) (pkt : Packet) (s : State) : Res :=
  onStack stack (whenOk (pkt.op == opSpanBroken && s.mayLeave stack pkt) s
    (let t := s.receive stack pkt
     if (s.forwarded pkt).poison then t.discardPacket
     else match t.spanOf stack pkt with
       | none => t
       | some x =>
         if x.st = .active ∨ x.st = .draining then
           t.modSpan stack x.id (fun y => { y with st := .paused, since := s.now, marker := none })
         else t))

/-- SPAN_PAUSE_TIMEOUT. -/
def execSpanPauseTimeout (stack : Nat) (span : BitVec 16) (s : State) : Res :=
  onStack stack (match s.span? stack span with
    | none => .next s
    | some x =>
      whenOk (decide (x.st = .paused) && x.sync != 2 && decide (x.since + fiveMs ≤ s.now)) s
        (s.endPause stack x))

/-- A frame as a routed request in the place of the request it carries (R340): no span carries it. -/
def frameReq (x : SpanOut) (r : Req) (id : Nat) (f : SentFrame) : Req :=
  let off := leNat (f.frame.payload.take 5)
  { r with
    id := id, st := .held, span := 0, offers := [], offset := x.dstBase + off, va := r.va + (x.dstBase + off - r.offset),
    payload := f.frame.payload.drop 8, len := f.frame.payload.length - 8 }

/-- The requests of some frames of the span become routed requests. -/
def State.routeFrames (s : State) (n : Nat) (x : SpanOut) (fs : List SentFrame) : State :=
  let ids := distinct (fs.map (·.req))
  ids.foldl (fun t id =>
    match (t.stack n).req? id with
    | none => t
    | some r =>
      let p := (fs.filter (fun f => f.req == id)).foldl (fun (q : State × List Req) f =>
        let i := q.1.fresh
        (i.2, q.2 ++ [frameReq x r i.1 f])) (t, [])
      p.1.modStack n (fun k =>
        { k with reqs := k.reqs.flatMap (fun q => if q.id = id then p.2 else [q]) })) s

/-- What a SYNC_REPLY does beyond the acknowledgement. -/
def State.afterSync (s : State) (n : Nat) (x : SpanOut) : State :=
  if x.sync = 1 then
    s.modSpan n x.id (fun y =>
      { y with st := if y.st = .paused then .active else y.st, sync := 0, syncs := 0, count := y.acked, queue := y.sent ++ y.queue, sent := [] })
  else if x.sync = 2 then
    let t := s.routeFrames n x (x.sent ++ x.queue)
    (t.modSpan n x.id (fun y => { y with st := .closing, sync := 0, syncs := 0, queue := [], sent := [] })).endClosing
      n x.id
  else s

/-- SYNC_REPLY: its count acknowledges, whatever its epoch (R335); one of the present epoch ends the re-route or the
pause that asked for it. -/
def execSyncReply (stack : Nat) (pkt : Packet) (s : State) : Res :=
  onStack stack (whenOk (pkt.op == opSyncReply && s.mayLeave stack pkt) s
    (let t := s.receive stack pkt
     if (s.forwarded pkt).poison then t.discardPacket
     else match t.spanOf stack pkt with
       | none => t.hear stack pkt.src
       | some x =>
         let u := (t.hear stack pkt.src).spanAcked stack x pkt.seq.toNat
         match u.span? stack x.id with
         | none => u
         | some y => if pkt.param.setWidth 4 = x.epoch then u.afterSync stack y else u))

end Sys2Proof.Machine
end

