-- ==== Sys2Proof/Machine/SpanTargets.lean ====
section
/-! DEFINITION. Span frames in a switch and at their target abutment, and the invalidations that hold
writes back (09_fabric_memory.md R304; 10_spans_and_routing.md R311, R313, R314, R334 to R339;
11_switch_die.md R351, R355, R375). -/

namespace Sys2Proof.Machine

/-! ### Chunk frames kept by the hop that sent them (12_collectives.md R394, R400) -/

/-- The hop that sends a chunk frame keeps it until the receiver accepts it (R400). -/
def State.keep (s : State) (x : Kept) : State :=
  if isChunk x.frame then s.modSw (fun w => { w with kept := w.kept ++ [x] }) else s

def State.unkeep (s : State) (x : Kept) : State := s.modSw (fun w => { w with kept := w.kept.erase x })

/-- A frame that an abutment sends enters the cells of its label at the internal port. -/
def State.upGo (s : State) (n : Nat) (f : Frame) : State :=
  ((s.modStack n (fun k => { k with upWait := k.upWait.erase f })).modSw (fun w =>
    w.pushFrame (framesIn (intPort n)) f)).keep ⟨true, intPort n, f.label.toNat, f⟩

/-- The frames that an abutment has to send go on as far as their cells have room, those of a label in order
(11_switch_die.md R349, R370). -/
def State.pumpUp (s : State) (n : Nat) : State :=
  (s.stack n).upWait.foldl (fun t f =>
    if (t.stack n).upWait.find? (fun g => g.label == f.label) = some f ∧ t.sw.entryRoom (intPort n) f = true then
      t.upGo n f
    else t) s

/-- What an internal port has to bring comes up before the switch takes a frame from it. -/
def State.bringUp (s : State) (port : Nat) : State := if 64 ≤ port ∧ port < 72 then s.pumpUp (port - 64) else s

/-- A frame is accepted from an ingress port: the abutment behind an internal port keeps it no longer. -/
def State.accepted (s : State) (port : Nat) (f : Frame) : State :=
  if 64 ≤ port then s.unkeep ⟨true, port, f.label.toNat, f⟩ else s

/-- The frame under the next label. -/
def underLabel (f : Frame) (label : Nat) : Frame := { f with label := BitVec.ofNat 16 label }

/-- A frame leaves the switch on a port under a label. -/
def State.putFrame (s : State) (port label : Nat) (f : Frame) : State :=
  (s.modSw (fun w => w.pushFrame port (underLabel f label))).keep ⟨false, port, label, underLabel f label⟩

/-- The switch keeps it for a label on a port. -/
def Kept.goesOn (x : Kept) (port label : Nat) : Bool := !x.fromMember && x.port == port && x.label == label

/-- Cells that hold what the switch sends under a label on a port: chunk frames until they are accepted, others until
they are sent. -/
def Switch.outCells (w : Switch) (port label : Nat) : Nat :=
  sumNat ((w.kept.filter (fun x => x.goesOn port label)).map (fun x => frameCells x.frame))
    + labelCells ((w.framesAt port).filter (fun f => !isChunk f)) label

/-- The cells of a reservation have room for one more frame. No command tells when the far end of a link accepts a
frame: whether it has accepted the oldest of those that it has been sent is a free value (log entry 186). -/
def State.roomOn : Nat → State → Nat → Nat → Nat → Nat → State × Bool
  | 0, s, port, label, cells, need => (s, decide (s.sw.outCells port label + need ≤ cells))
  | fuel + 1, s, port, label, cells, need =>
    if s.sw.outCells port label + need ≤ cells then (s, true)
    else if port < 36 then
      match s.sw.kept.find? (fun x => x.goesOn port label && !(s.sw.framesAt port).contains x.frame) with
      | none => (s, false)
      | some x =>
        let f := s.takeFree
        if f.1 % 2 = 1 then roomOn fuel (f.2.unkeep x) port label cells need else (f.2, false)
    else (s, false)

/-- Room for a frame on a branch of `cells` cells. -/
def State.branchRoom (s : State) (port label cells : Nat) (f : Frame) : State × Bool :=
  s.roomOn (s.sw.kept.length + 1) port label cells (frameCells f)

/-! ### Forwarding -/

/-- SPAN_BROKEN for a span, from a node. -/
def State.sendBroken (s : State) (port : Nat) (src dst span : BitVec 16) : State :=
  s.arrive port (newPacket src dst classP opSpanBroken 0 0 span.toNat 0 [])

/-- R375: the frame is discarded and counted, and the source is told once. A stack that is not bound
counts as fenced. -/
def State.fencedFrame (s : State) (e : SpanEntry) : State :=
  let t := s.satFld .SWC_FENCE_STATUS SWC_FENCE_STATUS_DISCARDS 1
  if e.broken then t
  else
    (t.modSw (fun w =>
      { w with spanTab := w.spanTab.map (fun x => if x = e then { x with broken := true } else x) })).sendBroken
      switchPort s.baseNode e.srcNode e.spanId

def State.dropFrame (s : State) : State := s.modSw (fun w => { w with frameDrops := w.frameDrops + 1 })

/-- The port takes no span frame: it is down, or its link has come up again at JFP-2 or JFP-3 (14_links_and_cables.md
R447). -/
def State.portShut (s : State) (p : Nat) : Bool := !s.portCarries p || s.oldJfp p

/-- The cells of a frame go on under other labels. -/
def State.restateFrame (s : State) (f : Frame) (gs : List Frame) : State :=
  s.modSw (fun w => w.restate (.inr f) (gs.map .inr))

/-- A frame that has left an ingress port is relabelled and queued on its entry's egress port. -/
def State.relay (s : State) (inPort : Nat) (f : Frame) : State :=
  match s.sw.entry inPort f.label.toNat with
  | none => (s.freeCells (.inr f)).dropFrame
  | some e =>
    if 64 ≤ e.outPort ∧ (s.stackFenced (e.outPort - 64) = true ∨ s.bound (e.outPort - 64) = false) then
      (s.freeCells (.inr f)).fencedFrame e
    else if s.portShut e.outPort then (s.freeCells (.inr f)).dropFrame
    else
      ((s.accepted inPort f).restateFrame f [underLabel f e.nextLabel]).putFrame e.outPort e.nextLabel f

/-- A label by which a committed trestle entry of this switch takes frames from a port. -/
def Switch.trestleLabel (w : Switch) (port label : Nat) : Bool := w.own.any (fun t => t.takes port label)

/-- A frame that is read leaves its queue. -/
def State.popFrom (s : State) (key : Nat) (f : Frame) : State := (s.readCells (.inr f)).modSw (fun w => w.popFrame key f)

/-- Room for a chunk frame in its entry's reservation, which the frames kept for a refetch hold. -/
def State.relayRoom (s : State) (inPort : Nat) (f : Frame) : State × Bool :=
  match s.sw.entry inPort f.label.toNat with
  | none => (s, true)
  | some e => if isChunk f then s.branchRoom e.outPort e.nextLabel e.cells f else (s, true)

/-- A frame can go to its entry's egress port: to an external one before its last cell has come (R352), to an abutment
once it is whole (R353). -/
def State.relayNow (s : State) (inPort : Nat) (f : Frame) : Bool :=
  ((s.sw.entry inPort f.label.toNat).map (fun e => decide (e.outPort < 36))).getD true || (s.tailPort (.inr f)).isNone

/-- SPAN_FRAME_FORWARD. -/
def execSpanFrameForward (inPort : Nat) (frame : Frame) (s : State) : Res :=
  let s := s.bringUp inPort
  let r := s.relayRoom inPort frame
  whenOk (s.sw.headFrame (framesIn inPort) frame && !s.sw.trestleLabel inPort frame.label.toNat
      && s.relayNow inPort frame) s
    (if r.2 then (r.1.modSw (fun w => w.popFrame (framesIn inPort) frame)).relay inPort frame else r.1)

/-! ### At the target -/

def State.modIn (s : State) (n : Nat) (src id : BitVec 16) (g : SpanIn → SpanIn) : State :=
  s.modStack n (fun k =>
    { k with spansIn := k.spansIn.map (fun x => if x.src = src ∧ x.id = id then g x else x) })

def State.countDiscard (s : State) (n : Nat) : State :=
  s.satFld (.ABT_SPAN_STATUS n) ABT_SPAN_STATUS_DISCARDED 1

/-- SPAN_ACK with the applied count and the current epoch (R334). -/
def State.sendSpanAck (s : State) (n : Nat) (x : SpanIn) : State :=
  let t := s.arrive (intPort n)
    (newPacket (s.node n) x.src classP opSpanAck (x.epoch.setWidth 8) (BitVec.ofNat 3 (s.tenantOf n))
      x.id.toNat (BitVec.ofNat 32 x.applied) [])
  t.modIn n x.src x.id (fun y => { y with sinceAck := 0, ackFrom := 0 })

/-- The record after one more frame: the next epoch begins once frame N has been applied and the drain
marker has come (R337). -/
def SpanIn.count (x : SpanIn) (now : Nat) (rest : List Frame) : SpanIn :=
  let a := (x.applied + 1) % 2 ^ 32
  let y : SpanIn :=
    { x with applied := a, sinceAck := x.sinceAck + 1, waiting := rest,
             ackFrom := if x.ackFrom = 0 then now + 1 else x.ackFrom }
  if x.drain = some a then { y with epoch := y.epoch + 1, drain := none } else y

/-- Apply one frame; one that fails the checks is counted and has no effect. -/
def State.applyFrame (s : State) (n : Nat) (x : SpanIn) (f : Frame) (rest : List Frame) : State :=
  let p := framePacket x (s.node n) f
  let t := if frameIsAccess f ∧ s.targetOk n p = true then (s.applyReq n p).1 else s.quiet n qFrame
  let y := x.count s.now rest
  let u := (t.modStack n (fun k => k.dropHold p)).modIn n x.src x.id (fun _ => y)
  if f.ackreq ∨ 16 ≤ y.sinceAck then u.sendSpanAck n y else u

/-- The next frame of a span before it is applied: its turn on each of its lines (R292), then what dirGate holds it
for. A chunk touches no line, and one that fails the checks has no effect. -/
def State.frameGate (s : State) (n : Nat) (x : SpanIn) (f : Frame) : State × Bool :=
  let p := framePacket x (s.node n) f
  if !frameIsAccess f || !s.targetOk n p then (s, false)
  else
    let t := s.takeTurns ((pktLines p).drop ((s.stack n).turns p)) n p
    if t.2 then
      let g := t.1.dirGate n p
      g
    else (t.1, true)

/-- Apply frames in count order, as far as they have come and nothing holds them. -/
def State.pump : Nat → State → Nat → BitVec 16 → BitVec 16 → State
  | 0, s, _, _, _ => s
  | fuel + 1, s, n, src, id =>
    match (s.stack n).spanIn? src id with
    | none => s
    | some x =>
      match x.next with
      | none => s
      | some f =>
        let g := s.frameGate n x f
        if g.2 then g.1 else State.pump fuel (g.1.applyFrame n x f (x.waiting.erase f)) n src id

/-- Apply what a record holds. -/
def State.pumpSpan (s : State) (n : Nat) (x : SpanIn) : State :=
  s.pump (x.waiting.length + 1) n x.src x.id

/-- Frames that wait for the lines of invalidations are tried again. -/
def State.pumpAll (s : State) (n : Nat) : State :=
  (s.stack n).spansIn.foldl (fun t x => t.pumpSpan n x) s

/-- A data frame at its record: of the current or the next epoch, or discarded and counted (R337). -/
def State.takeFrame (s : State) (n : Nat) (x : SpanIn) (f : Frame) : State :=
  if f.epoch ≠ x.epoch ∧ f.epoch ≠ x.epoch + 1 then s.countDiscard n
  else if x.broken then s.countDiscard n
  else
    let y : SpanIn := { x with waiting := x.waiting ++ [f] }
    let t := if frameIsAccess f then s.came n (framePacket x (s.node n) f) else s
    (t.modIn n x.src x.id (fun _ => y)).pumpSpan n y

/-- A frame that reaches an abutment whole, on a span and in no collective; a label of no span is discarded and counted. `g` answers the frame at
its record: it may take it, or leave it in its cells. -/
def onFrame (s : State) (n : Nat) (f : Frame) (kind : BitVec 2) (g : State → SpanIn → State) : Res :=
  onStack n (whenOk (f.kind == kind && s.sw.headFrame (intPort n) f && (s.tailPort (.inr f)).isNone
      && !s.collFrame n f) s
    (match s.sw.lastHop n f with
     | none => (s.popFrom (intPort n) f).countDiscard n
     | some e =>
       if s.framesEnd n then (s.popFrom (intPort n) f).fencedFrame e
       else match (s.stack n).spanIn? e.srcNode e.spanId with
         | none => (s.popFrom (intPort n) f).countDiscard n
         | some x => g s x))

/-- A poisoned frame is discarded, and the source is told (R351). -/
def State.breakIn (s : State) (n : Nat) (x : SpanIn) : State :=
  (s.modIn n x.src x.id (fun y => { y with broken := true })).sendBroken (intPort n) (s.node n) x.src x.id

/-- SPAN_FRAME. `poisoned` says that an error in its cells was found on its way. -/
def execSpanFrame (stack : Nat) (frame : Frame) (poisoned : Bool) (s : State) : Res :=
  onFrame s stack frame 0 (fun s x =>
    if poisoned || s.cellsBad (.inr frame) then (s.popFrom (intPort stack) frame).breakIn stack x
    else if x.holdsBack frame then s
    else (s.popFrom (intPort stack) frame).takeFrame stack x frame)

/-- DRAIN_MARKER of the current epoch: with frame N applied, the next epoch begins. -/
def execDrainMarker (stack : Nat) (marker : Marker) (s : State) : Res :=
  let frame := marker.frame
  onFrame s stack frame 1 (fun s x =>
    let t := s.popFrom (intPort stack) frame
    if marker.poisoned || s.cellsBad (.inr frame) then t.breakIn stack x
    else if frame.epoch ≠ x.epoch then t.countDiscard stack
    else
      let c := leNat (frame.payload.take 4)
      let y : SpanIn :=
        if x.applied = c then { x with epoch := x.epoch + 1, drain := none } else { x with drain := some c }
      (t.modIn stack x.src x.id (fun _ => y)).pumpSpan stack y)

/-- SPAN_ACK_TIMER. -/
def execSpanAckTimer (stack : Nat) (src span : BitVec 16) (s : State) : Res :=
  onStack stack (match (s.stack stack).spanIn? src span with
    | none => .next s
    | some x =>
      whenOk (x.ackFrom != 0 && decide (x.ackFrom - 1 + ticksPerUs ≤ s.now)) s (s.sendSpanAck stack x))

/-- SYNC_REPLY with the applied count and the epoch. -/
def State.sendSyncReply (s : State) (n : Nat) (x : SpanIn) (p : Packet) : State :=
  s.arrive (intPort n)
    { replyTo p opSyncReply [] with
      param := x.epoch.setWidth 8, offset := x.id.setWidth 48, seq := BitVec.ofNat 32 x.applied }

/-- A record closes every epoch before `e`; the frames of those that wait are discarded and counted. -/
def State.adoptEpoch (s : State) (n : Nat) (x : SpanIn) (e : BitVec 4) : State :=
  let gone := x.waiting.filter (fun f => f.epoch != e)
  let y : SpanIn :=
    { x with epoch := e, drain := none, broken := false, waiting := x.waiting.filter (fun f => f.epoch == e) }
  gone.foldl (fun t _ => t.countDiscard n) (s.modIn n x.src x.id (fun _ => y))

/-- A planned change to an epoch is under way: its drain marker has come, or a frame of the new epoch waits in its cells.
Such an epoch begins under R337, and a SPAN_SYNC of it is no re-route of R339 (log entry 225). -/
def State.changing (s : State) (n : Nat) (x : SpanIn) (e : BitVec 4) : Bool :=
  e == x.epoch + 1 && (x.drain.isSome || (s.sw.framesAt (intPort n)).any (fun f =>
    f.epoch == e && (s.sw.lastHop n f).any (fun y => y.srcNode == x.src && y.spanId == x.id)))

/-- SPAN_SYNC: of the current epoch (R335), or of a later one (R339). -/
def execSpanSync (stack : Nat) (pkt : Packet) (s : State) : Res :=
  onStack stack (whenOk (pkt.op == opSpanSync && s.mayLeave stack pkt) s
    (let t := s.receive stack pkt
     if !s.serves stack then s.turnAway stack pkt
     else if (s.forwarded pkt).poison then t.discardPacket
     else match (t.stack stack).spanIn? pkt.src (pkt.offset.setWidth 16) with
       | none => t
       | some x =>
         let e : BitVec 4 := pkt.param.setWidth 4
         if e = x.epoch then t.sendSyncReply stack x pkt
         else if (e - x.epoch).toNat < 8 ∧ t.changing stack x e = false then
           let u := t.adoptEpoch stack x e
           (u.sendSyncReply stack { x with epoch := e } pkt).pumpSpan stack { x with epoch := e }
         else t))

/-! ### LINE_SERVE (R292) -/

/-- The operation of a queued request, of a span frame, of a core or of debug goes on. -/
def State.attendAny (s : State) (n : Nat) (p : Packet) : State :=
  if p.hops = hopsFrame then s.pumpAll n
  else if p.hops = hopsCore then s.coreResume n
  else if p.hops = hopsDebug then s.debugResume n
  else s.attend n p

/-- LINE_SERVE: the operation that has its turn on a line, else the next in turn of those that wait there. -/
def execLineServe (stack line : Nat) (s : State) : Res :=
  onStack stack
    (match s.lineHolder stack line with
     | some p => .next (s.attendAny stack p)
     | none =>
       match nextTurn (Tab.get 65535 (s.stack stack).lineTurn line) (s.inTurn stack line) with
       | none => .next s
       | some p => .next (s.attendAny stack p))

/-! ### Invalidations (R304, R355) -/

/-- A holder no longer holds a line; an untracked line leaves the directory. -/
def Stack.untrack (k : Stack) (line : Nat) (holder : BitVec 16) : Stack :=
  { k with
    dir := (k.dir.map (fun d =>
      if d.line = line then { d with holders := d.holders.filter (fun h => h != holder) } else d)).filter
        (fun d => !d.holders.isEmpty)
    invals := k.invals.filter (fun i => !(i.line == line && i.holder == holder)) }

/-- INVAL_ACK. -/
def execInvalAck (stack : Nat) (pkt : Packet) (s : State) : Res :=
  onStack stack (whenOk (pkt.op == opInvalAck && s.mayLeave stack pkt) s
    (let t := s.receive stack pkt
     if (s.forwarded pkt).poison then t.discardPacket
     else match (t.stack stack).invals.find? (fun i => i.number == pkt.seq && i.holder == pkt.src) with
       | none => t.hear stack pkt.src
       | some i => (((t.hear stack pkt.src).modStack stack (fun k =>
           k.untrack i.line i.holder)).pumpAll stack).coreResume stack))

/-- A dead node's copies count as invalidated. -/
def Stack.forgetHolder (k : Stack) (node : BitVec 16) : Stack :=
  (k.invals.filter (fun i => i.holder == node)).foldl (fun k i => k.untrack i.line i.holder) k

/-- INVAL_RESEND_TIMER. -/
def execInvalResendTimer (stack : Nat) (number : BitVec 32) (s : State) : Res :=
  onStack stack (match (s.stack stack).invals.find? (fun i => i.number == number) with
    | none => .next s
    | some i =>
      if (s.stack stack).isDead i.holder then .next ((s.modStack stack (fun k =>
        k.forgetHolder i.holder)).pumpAll stack |>.coreResume stack)
      else if i.firstSent + ticksPerMs ≤ s.now ∧ s.silent stack i.holder = true then
        .next (((s.markDead stack i.holder howTimer).modStack stack (fun k =>
          k.forgetHolder i.holder)).pumpAll stack |>.coreResume stack)
      else
        whenOk (s.resendDue i.firstSent i.resends) s
          ((s.modStack stack (fun k =>
            { k with invals := k.invals.map (fun x =>
                if x.number = number then { x with resends := x.resends + 1 } else x) })).sendInval stack i))

end Sys2Proof.Machine
end

