-- ==== Sys2Proof/Machine/Trestles.lean ====
section
/-! DEFINITION. The free-list audit, trestle entries with their copies and reductions, and fences
(11_switch_die.md R356 to R359, R363 to R377; 12_collectives.md R391 to R401). -/

namespace Sys2Proof.Machine

/-! ### The audit (R356 to R359) -/

def auditLeaked : Nat := 1
def auditConflict : Nat := 2
def auditMismatch : Nat := 3

def State.auditNotice (s : State) (kind : Nat) (tag : BitVec 32) : State :=
  s.notice 10 noStack (le1 kind ++ le4 tag.toNat)

/-- What a pass makes of a stray cell. -/
inductive Found where
  | keep (x : Stray)
  | leaked
  | conflict (x : Stray)
  deriving DecidableEq, Repr

/-- A cell under an owner tag that no list reaches is leaked at the second pass in a row (R357); one that the walk of the
free list reaches under a tag goes into quarantine (R358). -/
def Stray.pass (x : Stray) : Found :=
  if x.owner ≠ .free ∧ x.listed ≠ 0 then .conflict { x with listed := 0, quarantined := true }
  else if x.owner ≠ .free ∧ x.item = none ∧ x.quarantined = false then
    if 1 ≤ x.missed then .leaked else .keep { x with missed := x.missed + 1 }
  else .keep x

/-- How often the owners and the free list together hold a cell. -/
def Stray.times (x : Stray) : Nat := boolNat x.item.isSome + x.listed

/-- The cells that the free list and the owners hold together, where the strays are those of a list: every other cell
once (R359). -/
def cellsHeld (l : List Stray) : Nat := cellTotal - l.length + sumNat (l.map Stray.times)

/-- The switch holds a packet or frame. -/
def Switch.holds (w : Switch) : Packet ⊕ Frame → Bool
  | .inl p => w.arrived.any (fun q => q.2.contains p) || w.ingress.any (fun q => q.2.any (fun x => x.pkt == p))
      || w.egress.any (fun q => q.2.contains p) || w.merges.any (fun m => m.reqs.contains p)
  | .inr f => w.frames.any (fun q => q.2.contains f)

/-- The list that reaches the cells of a packet or frame: R346, and the entry of a frame by its label. -/
def Switch.ownerOf (w : Switch) : Packet ⊕ Frame → CellOwner
  | .inl p =>
    match w.merges.find? (fun m => m.reqs.contains p), w.egress.find? (fun q => q.2.contains p),
        w.ingress.find? (fun q => q.2.any (fun x => x.pkt == p)) with
    | some m, _, _ => .merge m.port
    | none, some q, _ => .egress (q.1 / 16) (q.1 % 16)
    | none, none, some q => .ingress (q.1 / 16) (q.1 % 16)
    | none, none, none =>
      .ingress (((w.arrived.find? (fun q => q.2.contains p)).map Prod.fst).getD 0) (pktQueue p)
  | .inr f =>
    let label := f.label.toNat
    let key := ((w.frames.find? (fun q => q.2.contains f)).map Prod.fst).getD 0
    match w.own.find? (fun t => t.takes (key - framesIn 0) label
        || t.branches.any (fun b => b.1 == key && b.2.1 == label)) with
    | some t => .trestle t.entry
    | none =>
      match w.spanTab.find? (fun e => e.outPort == key && e.nextLabel == label) with
      | some e => .span e.inPort e.label
      | none => .span (key - framesIn 0) label

/-- The cells that have gone astray since the last pass: those that their owners have lost, those of what the switch
holds that stand on the free list too, and free ones that the free list has lost. -/
def Switch.newStrays (w : Switch) (lost : List (Nat × CellOwner)) (doubled : List (Nat × (Packet ⊕ Frame)))
    (unlisted : List Nat) : List Stray :=
  lost.map (fun c => ⟨c.1, c.2, none, 0, 0, false⟩)
    ++ (doubled.filter (fun c => w.holds c.2)).map (fun c => ⟨c.1, w.ownerOf c.2, some c.2, 1, 0, false⟩)
    ++ unlisted.map (fun c => ⟨c, .free, none, 0, 0, false⟩)

/-- The cells astray at the end of a pass. -/
def Switch.astray (w : Switch) (lost : List (Nat × CellOwner)) (doubled : List (Nat × (Packet ⊕ Frame)))
    (unlisted : List Nat) : List Stray :=
  w.strays ++ (w.newStrays lost doubled unlisted).filter (fun x => w.strays.all (fun y => y.cell != x.cell))

/-- One more bit of a word of what the switch holds has gone wrong (R350). -/
def Switch.goWrong (w : Switch) (x : (Packet ⊕ Frame) × Nat) : Switch :=
  if w.holds x.1 then
    let n := ((w.cellErr.find? (fun e => e.1 == x)).map (·.2)).getD 0
    { w with cellErr := w.cellErr.filter (fun e => e.1 != x) ++ [(x, n + 1)] }
  else w

/-- AUDIT_PASS_END. The bits of cells that have gone wrong since the last pass come with it (log entry 171). A mismatch
has no owner tag: a free value. -/
def execAuditPassEnd (lost : List (Nat × CellOwner)) (doubled : List (Nat × (Packet ⊕ Frame)))
    (wrong : List ((Packet ⊕ Frame) × Nat)) (unlisted : List Nat) (s : State) : Res :=
  let r : Reg := .SWC_AUDIT
  let l := s.sw.astray lost doubled unlisted
  let leaked := (l.filter (fun x => decide (x.pass = .leaked))).map (·.owner)
  let conflicts := l.filterMap (fun x => match x.pass with
    | .conflict y => some y.owner
    | .keep _ | .leaked => none)
  let left := l.filterMap (fun x => match x.pass with
    | .keep y | .conflict y => some y
    | .leaked => none)
  let t := (s.modSw (fun w => wrong.foldl Switch.goWrong { w with strays := left })).satFld r SWC_AUDIT_LEAKED
    leaked.length
  let u := (t.satFld r SWC_AUDIT_CONFLICTS conflicts.length).setFld r SWC_AUDIT_PASSES (s.fld r SWC_AUDIT_PASSES + 1)
  let v := leaked.foldl (fun x c => x.auditNotice auditLeaked (Config.ownerTag c)) u
  let w := conflicts.foldl (fun x c => x.auditNotice auditConflict (Config.ownerTag c)) v
  .next (if cellsHeld (l.filter (fun x => x.owner == .free)) ≠ cellTotal then
    let f := (w.setBit r SWC_AUDIT_MISMATCH true).takeFree
    f.2.auditNotice auditMismatch (BitVec.ofNat 32 f.1)
  else w)

/-! ### Chunk frames (12_collectives.md R392 to R395) -/

def chunkData (f : Frame) : List Byte := f.payload.drop 32

def chunkRedop (f : Frame) : Nat := bitsOf (chunkWord f 0) 61 60
def chunkFmt (f : Frame) : Nat := bitsOf (chunkWord f 0) 59 56
def chunkE0 (f : Frame) : Nat := bitsOf (chunkWord f 0) 39 0
def chunkGroup (f : Frame) : Nat := bitsOf (chunkWord f 1) 63 48
def chunkInst (f : Frame) : Nat := bitsOf (chunkWord f 1) 47 40
def chunkRound (f : Frame) : Nat := bitsOf (chunkWord f 1) 39 38
def chunkIncomplete (f : Frame) : Bool := bitOf (chunkWord f 1) 37
def chunkFailed (f : Frame) : Bool := bitOf (chunkWord f 1) 36
def chunkPosition (f : Frame) : Nat := bitsOf (chunkWord f 1) 34 32
def chunkIndex (f : Frame) : Nat := bitsOf (chunkWord f 1) 31 0

def roundHeader : Nat := 0
def roundData : Nat := 1
def roundTally : Nat := 2

/-- Word 1 without its position and its incomplete and failed bits: it names the chunk. -/
def chunkKey (f : Frame) : Nat :=
  let w := chunkWord f 1
  w / 2 ^ 38 * 2 ^ 38 + bitsOf w 35 35 * 2 ^ 35 + bitsOf w 31 0

/-- The crc of words 0 to 2 and the data. -/
def chunkCrc (words : List Byte) (data : List Byte) : Word := crc64 (words ++ data)

def chunkCrcOk (f : Frame) : Bool :=
  chunkWord f 3 == (chunkCrc (f.payload.take 24) (chunkData f)).toNat
    && bitsOf (chunkWord f 2) 13 0 == (chunkData f).length

/-- A chunk frame from its words 0 and 1, its source rank and its data. -/
def chunkFrame (w0 w1 rank : Nat) (tenant : BitVec 3) (data : List Byte) : Frame :=
  let words := le8 w0 ++ le8 w1 ++ le8 (rank * 2 ^ 48 + data.length)
  { label := 0, kind := 0, ackreq := false, epoch := 0, tenant := tenant,
    payload := words ++ le8 (chunkCrc words data).toNat ++ data }

/-- The access word of a chunk frame. -/
def chunkWord0 (redop fmt e0 : Nat) : Nat := accessWord 3 redop fmt e0

/-- Positions of 2,040 elements (R392). -/
def positionSize : Nat := 2040

/-- The frame with its failed bit set and a fresh crc. -/
def markFailed (f : Frame) : Frame :=
  { chunkFrame (chunkWord f 0) (if chunkFailed f then chunkWord f 1 else chunkWord f 1 + 2 ^ 36)
      (bitsOf (chunkWord f 2) 63 48) f.tenant (chunkData f) with
    label := f.label, epoch := f.epoch, ackreq := f.ackreq }

/-! ### Entries -/

/-- The switch itself, as the holder of an entry. -/
def switchOwner : Nat := 8

def State.trestle? (s : State) (owner entry : Nat) : Option Trestle :=
  s.sw.trestles.find? (fun t => t.owner == owner && t.entry == entry)

def State.modTrestle (s : State) (owner entry : Nat) (f : Trestle → Trestle) : State :=
  s.modSw (fun w =>
    { w with trestles := w.trestles.map (fun t => if t.owner = owner ∧ t.entry = entry then f t else t) })

/-- Where frames for an entry stand: at the ingress of the switch, or, for a hosted entry, at the
abutment. -/
def Trestle.inKey (t : Trestle) (port : Nat) : Nat :=
  if t.owner = switchOwner then framesIn port else port

/-- The hop that sent a frame of an input keeps it no longer. -/
def Trestle.accept (t : Trestle) (s : State) (port : Nat) (f : Frame) : State :=
  if t.owner = switchOwner then s.accepted port f else s.unkeep ⟨false, port, f.label.toNat, f⟩

/-- The management code of the hop that sends to an input: a port of the far end of a link, an abutment
(100 and its internal port), or an egress port of this switch. -/
def Trestle.senderCode (t : Trestle) (port : Nat) : Nat :=
  if t.owner = switchOwner ∧ 64 ≤ port then framesIn port else port

/-- An abutment sends a frame on its internal port, as soon as its label's cells have room, and keeps it until it is
accepted. -/
def State.memberSend (s : State) (n : Nat) (label : Nat) (f : Frame) : State :=
  (s.modStack n (fun k => { k with upWait := k.upWait ++ [underLabel f label] })).pumpUp n

/-- Send on one branch. -/
def Trestle.sendCopy (t : Trestle) (s : State) (port label : Nat) (f : Frame) : State :=
  if t.owner ≠ switchOwner then s.memberSend t.owner label f
  else if s.portShut port then s.dropFrame
  else s.putFrame port label f

/-- Every branch that will send a copy has room for it (R349, R369): the copies of one frame share its cells, and the
branch that is farthest behind holds them longest. -/
def Trestle.room (t : Trestle) (s : State) (f : Frame) : State × Bool :=
  t.branches.zipIdx.foldl (fun p b =>
    if !p.2 || t.prunedOut.contains b.2 then p
    else if t.owner ≠ switchOwner then
      (p.1, decide (p.1.scratchHeld t.owner b.1.2.1 + frameCells f ≤ t.reserve.1))
    else if p.1.portShut b.1.1 then p
    else p.1.branchRoom b.1.1 b.1.2.1 t.reserve.1 f) (s, true)

/-! ### Pruning (R376, R377) -/

/-- The node that a reach names, when every stack it names is fenced: the lowest of them. -/
def State.reachFenced (s : State) (reach : BitVec 24) : Option (BitVec 16) :=
  if reach.getLsbD 23 then none
  else
    let pos := bitsOf reach.toNat 19 8
    let nodes := (stackNums.filter (fun i => reach.getLsbD i)).map (fun i => BitVec.ofNat 16 (8 * pos + i))
    if nodes.all (fun x => s.sw.fences.contains x) then nodes.head? else none

/-- PRUNED. `item` is 0 for an input and 1 for a branch. -/
def State.tellPruned (s : State) (t : Trestle) (item index count : Nat) (node : BitVec 16) : State :=
  s.mgmt s.baseNode 0x10 (le2 t.entry ++ le1 item ++ le1 index ++ le2 node.toNat ++ le4 count)

/-- The key of a pruned item. -/
def prunedKey (item index : Nat) : Nat := 64 * item + index

/-- The node that a pruned item leads to. -/
def Trestle.prunedNode (t : Trestle) (s : State) (item index : Nat) : BitVec 16 :=
  let reach : BitVec 24 := if item = 0 then
      ((t.ins.find? (fun i => i.2.2.1 == index)).map (fun i => i.2.2.2)).getD 0
    else (nth (0, 0, 0) t.branches index).2.2
  (s.reachFenced reach).getD (BitVec.ofNat 16 (8 * bitsOf reach.toNat 19 8))

/-- Count cells that a pruned item discards, and tell the fabric manager. -/
def State.countPruned (s : State) (t : Trestle) (item index cells : Nat) : State :=
  if cells = 0 then s
  else
    let k := prunedKey item index
    let c := Tab.get 0 (((s.trestle? t.owner t.entry).map (·.discarded)).getD []) k + cells
    ((s.satFld .SWC_TRESTLE_STATUS SWC_TRESTLE_STATUS_PRUNED_CELLS cells).modTrestle t.owner t.entry
      (fun x => { x with discarded := Tab.put x.discarded k c })).tellPruned t item index c
        (t.prunedNode s item index)

/-- Send a frame on every branch; a pruned branch sends no copy. -/
def Trestle.sendAll (t : Trestle) (s : State) (f : Frame) : State :=
  t.branches.zipIdx.foldl (fun u b =>
    if t.prunedOut.contains b.2 then u.countPruned t 1 b.2 (frameCells f)
    else t.sendCopy u b.1.1 b.1.2.1 f) s

/-! ### Evaluation (R363, R364, R370, R376; 12_collectives.md R393, R401) -/

def partialFmt (isInt : Bool) : Fmt := if isInt then .int 32 else .float fmtB32

/-- One tree node over two partials. -/
def nodeFun (redop : Nat) (isInt : Bool) (a b : Val) : Val :=
  if redop = 0 then sumNode (partialFmt isInt) false a b
  else if redop = 1 then minVal a b
  else maxVal a b

/-- A node over the elements of two operands, either of which may be missing. -/
def nodeRow (redop : Nat) (isInt : Bool) (a b : Option (List Val)) : Option (List Val) :=
  match a, b with
  | none, y => y
  | x, none => x
  | some x, some y => some (List.zipWith (nodeFun redop isInt) x y)

/-- Evaluate nodes in the order listed; `vals` holds inputs under 0 to 15 and nodes under 16 to 30. -/
def evalNodes (redop : Nat) (isInt : Bool) : List (Nat × Nat × Nat) → Tab (Option (List Val)) →
    Tab (Option (List Val))
  | [], vals => vals
  | (num, a, b) :: t, vals =>
    evalNodes redop isInt t (Tab.put vals (16 + num)
      (nodeRow redop isInt (Tab.get none vals a) (Tab.get none vals b)))

/-- The inputs of an entry that are not pruned. -/
def Trestle.live (t : Trestle) : List Nat :=
  (t.ins.map (fun i => i.2.2.1)).filter (fun n => !t.prunedIn.contains n)

/-- The inputs with which a position is evaluated: those not pruned, or those not pruned when a prune took effect that
found it held by every one of them (R376). -/
def Trestle.liveAt (t : Trestle) (chunk : Word) (pos : Nat) : List Nat :=
  ((t.whole.find? (fun x => x.1 == (chunk, pos))).map (·.2)).getD t.live

def Trestle.heldAt (t : Trestle) (num : Nat) (chunk : Word) (pos : Nat) : Option HeldInput :=
  t.inputs.find? (fun h => h.num == num && h.chunk == chunk && h.position == pos)

/-- The position of an input, where it has failed its check for the fourth time. -/
def Trestle.lostAt (t : Trestle) (num : Nat) (h : HeldInput) : Option HeldInput :=
  t.failedIn.find? (fun x => x.num == num && x.chunk == h.chunk && x.position == h.position)

/-- Every live input holds a position, or has failed there. -/
def Trestle.complete (t : Trestle) (h : HeldInput) : Bool :=
  (t.liveAt h.chunk h.position).all (fun n => (t.heldAt n h.chunk h.position).isSome || (t.lostAt n h).isSome)

/-- The position that is evaluated next: of those complete, the one held first; one that every input has lost is
evaluated without elements. -/
def Trestle.nextPosition (t : Trestle) : Option HeldInput := (t.inputs ++ t.failedIn).find? (fun h => t.complete h)

/-- The values of the operands of a position. -/
def Trestle.operandRows (t : Trestle) (h : HeldInput) : Tab (Option (List Val)) :=
  (t.liveAt h.chunk h.position).filterMap (fun n => (t.heldAt n h.chunk h.position).map (fun x =>
    (n, some (x.elems.map (fun e => decodeVal (partialFmt x.isInt) e.toNat)))))

/-- The result of a position: the last node, or the one input of an entry without nodes. -/
def Trestle.result (t : Trestle) (h : HeldInput) : List Val :=
  let vals := evalNodes h.redop h.isInt t.nodes (t.operandRows h)
  let last := match t.nodes.getLast? with
    | some (num, _, _) => 16 + num
    | none => (t.liveAt h.chunk h.position).head?.getD 0
  (Tab.get none vals last).getD []

/-- The evaluated position, as partials. -/
def Trestle.evaluated (t : Trestle) (h : HeldInput) : HeldInput :=
  let live := t.liveAt h.chunk h.position
  let ops := live.filterMap (fun n => t.heldAt n h.chunk h.position)
  let lost := live.filterMap (fun n => t.lostAt n h)
  let known := (ops ++ lost).filterMap (·.isLast)
  { h with
    incomplete := decide (live.length < t.ins.length) || !lost.isEmpty || ops.any (·.incomplete)
    failed := !lost.isEmpty || ops.any (·.failed)
    isLast := known.head?
    elems := (t.result h).map (fun v => BitVec.ofNat 32 (toFmt (partialFmt h.isInt) .rne true false 0 v).1) }

def Trestle.dropPosition (t : Trestle) (h : HeldInput) : Trestle :=
  { t with
    inputs := t.inputs.filter (fun x => !(x.chunk == h.chunk && x.position == h.position))
    failedIn := t.failedIn.filter (fun x => !(x.chunk == h.chunk && x.position == h.position))
    whole := t.whole.filter (fun x => x.1 != (h.chunk, h.position)) }

/-- The frame of evaluated elements in a carried format. -/
def HeldInput.frame (h : HeldInput) (fmt position : Nat) (data : List Byte) : Frame :=
  chunkFrame (chunkWord0 h.redop fmt h.e0)
    (h.chunk.toNat + boolNat h.incomplete * 2 ^ 37 + boolNat h.failed * 2 ^ 36 + position * 2 ^ 32) 0 h.tenant
    data

/-- A partial frame: one position of binary32 or int32. -/
def HeldInput.partialFrame (h : HeldInput) : Frame :=
  h.frame (if h.isInt then 7 else 4) h.position (h.elems.flatMap (fun e => leBytes 4 e.toNat))

/-- A partial rounded once to a format at the root (R363). -/
def rootCode (fmt : Nat) (isInt : Bool) (e : Lane) : Nat :=
  (toFmt ((fmtOf fmt).getD (.float fmtB32)) .rne false false 0 (decodeVal (partialFmt isInt) e.toNat)).1

/-- A root frame: the chunk in its format. -/
def HeldInput.rootFrame (h : HeldInput) (fmt : Nat) : Frame :=
  h.frame fmt 0 (h.elems.flatMap (fun e => leBytes (fmtWidth fmt / 8) (rootCode fmt h.isInt e)))

def HeldInput.round (h : HeldInput) : Nat := bitsOf h.chunk.toNat 39 38

/-- Elements of the vector that the root sends (12_collectives.md R392). -/
def Trestle.vectorLen (t : Trestle) : Nat := if t.op = 2 then t.members * t.count else t.count

/-- The position ends its chunk: what a member's frame said, or a short position, the last of the format's, or the end
of the vector. -/
def Trestle.endsChunk (t : Trestle) (h : HeldInput) : Bool :=
  match h.isLast with
  | some b => b
  | none =>
    decide (h.len < positionSize) || decide (4 ≤ (h.position + 1) * (fmtWidth t.fmt / 8))
      || decide (t.vectorLen ≤ h.e0 + h.len)

/-- The positions of one chunk in order, from position `n` on, up to one that ends the chunk; none while one is still to
come. -/
def Trestle.assembled (t : Trestle) (l : List HeldInput) : Nat → Nat → Option (List HeldInput)
  | 0, _ => none
  | fuel + 1, n =>
    match l.find? (fun h => h.position == n) with
    | none => none
    | some h => if t.endsChunk h then some [h] else (t.assembled l fuel (n + 1)).map (fun r => h :: r)

/-- The most positions that a chunk has (12_collectives.md R394: three bits). -/
def maxPositions : Nat := 8

/-- The whole chunk from its positions; one that has no elements stands as zeros, and its chunk is failed. -/
def HeldInput.joined (h : HeldInput) (l : List HeldInput) : HeldInput :=
  { h with
    position := 0, e0 := (l.head?.map (·.e0)).getD h.e0
    elems := l.flatMap (fun x => (x.elems ++ List.replicate (x.len - x.elems.length) 0).take x.len)
    len := sumNat (l.map (·.len))
    incomplete := l.any (·.incomplete), failed := l.any (·.failed) }

/-- The members whose data the inputs of an entry bring, as their reaches name them (11_switch_die.md R367); none where
an input leads to more than one module. -/
def Trestle.reached (t : Trestle) : Option Nat :=
  if t.ins.any (fun i => bitOf i.2.2.2.toNat 23) then none
  else some (sumNat (t.ins.map (fun i => ((List.range 8).filter (fun b => bitOf i.2.2.2.toNat b)).length)))

/-- The members of a group: as its binding on a stack of this module has them, else as the entry's reaches name them
(DESIGN CHOICE, log entry 187). -/
def State.membersOf (s : State) (t : Trestle) (group : Nat) : Option Nat :=
  (stackNums.filterMap (fun n =>
    ((s.stack n).groups.find? (fun g => g.bound && g.id.toNat == group)).map (·.members))).head?.or t.reached

/-- What the root learns from the header result it sends (12_collectives.md Table 12-3), with the members of the
group (log entry 187). -/
def Trestle.learn (t : Trestle) (h : HeldInput) (members : Nat) : Trestle :=
  let lane (i : Nat) : Nat := (nth 0 h.elems i).toNat
  { t with
    op := bitsOf (lane 0) 3 0
    fmt := bitsOf (lane 0) 9 6
    count := bitsOf (lane 2) 19 0 + bitsOf (lane 3) 19 0 * 2 ^ 20
    members := members }

/-- The frame that an evaluated position gives, if it gives one yet, and the state of its entry. The root sends a chunk
once every position of it has been evaluated, in whatever order (R393). -/
def State.outPosition (s : State) (t : Trestle) (h : HeldInput) : State × Option Frame :=
  if !t.root then (s, some h.partialFrame)
  else if h.round ≠ roundData then
    if h.round = roundHeader then
      let m := s.membersOf t (bitsOf h.chunk.toNat 63 48)
      let f := s.takeFree
      ((if m.isSome then s else f.2).modTrestle t.owner t.entry (fun x => x.learn h (m.getD f.1)),
        some h.partialFrame)
    else (s, some h.partialFrame)
  else
    let l := t.acc ++ [h]
    match t.assembled (l.filter (fun x => x.chunk == h.chunk)) maxPositions 0 with
    | some r =>
      (s.modTrestle t.owner t.entry (fun x => { x with acc := l.filter (fun y => y.chunk != h.chunk) }),
        some ((h.joined r).rootFrame t.fmt))
    | none => (s.modTrestle t.owner t.entry (fun x => { x with acc := l }), none)

/-- Evaluate one position of an entry, and send what it gives. -/
def State.evaluate (s : State) (t : Trestle) (h : HeldInput) : State :=
  let u := s.modTrestle t.owner t.entry (fun x => x.dropPosition h)
  let o := u.outPosition t (t.evaluated h)
  match o.2 with
  | some f => t.sendAll o.1 f
  | none => o.1

/-- Room for what a position gives (R349). -/
def State.positionRoom (s : State) (t : Trestle) (h : HeldInput) : State × Bool :=
  match (s.outPosition t (t.evaluated h)).2 with
  | some f => t.room s f
  | none => (s, true)

/-- REDUCTION_EVALUATE. -/
def execReductionEvaluate (at_ entry : Nat) (s : State) : Res :=
  match s.trestle? at_ entry with
  | none => .next s
  | some t =>
    match t.nextPosition with
    | none => .next s
    | some h =>
      let r := s.positionRoom t h
      whenOk (t.reduction && t.committed) s (if r.2 then r.1.evaluate t h else r.1)

/-- The items that the fences in force prune and that were not pruned before. -/
def Trestle.toPrune (t : Trestle) (s : State) : List (Nat × BitVec 16) × List (Nat × BitVec 16) :=
  (t.ins.filterMap (fun i =>
    if t.prunedIn.contains i.2.2.1 then none else (s.reachFenced i.2.2.2).map (fun x => (i.2.2.1, x))),
   t.branches.zipIdx.filterMap (fun b =>
    if t.prunedOut.contains b.2 then none else (s.reachFenced b.1.2.2).map (fun x => (b.2, x))))

/-- Copies that stand queued on a pruned branch and have not begun to be sent are discarded and counted. -/
def State.discardCopies (s : State) (t : Trestle) (index : Nat) : State :=
  let b := nth (0, 0, 0) t.branches index
  let goes (f : Frame) : Bool := t.owner == switchOwner && f.label.toNat == b.2.1
  let gone := (s.sw.framesAt b.1).filter goes
  if gone.isEmpty then s
  else
    let u := s.modSw (fun w =>
      { w with
        frames := Tab.modify [] w.frames b.1 (fun l => l.filter (fun f => !goes f))
        kept := w.kept.filter (fun x => !(x.goesOn b.1 b.2.1 && gone.contains x.frame)) })
    (gone.foldl (fun v f => v.freeCells (.inr f)) u).countPruned t 1 index (sumNat (gone.map frameCells))

/-- The positions that every input holds, with the inputs that are not pruned. -/
def Trestle.wholeNow (t : Trestle) : List ((Word × Nat) × List Nat) :=
  (t.inputs.filter (fun h => t.complete h)).map (fun h => ((h.chunk, h.position), t.liveAt h.chunk h.position))

/-- A held position is of a pruned input, and will be evaluated without it. -/
def Trestle.goes (t : Trestle) (gone : List Nat) (h : HeldInput) : Bool :=
  gone.contains h.num && !(t.liveAt h.chunk h.position).contains h.num

/-- Inputs are pruned. What every input held is still evaluated with all of them; the rest of what the pruned ones hold
is discarded and counted. -/
def State.pruneInputs (s : State) (t0 : Trestle) (gone : List Nat) : State :=
  match s.trestle? t0.owner t0.entry with
  | none => s
  | some t =>
    let x : Trestle := { t with prunedIn := t.prunedIn ++ gone, whole := t.wholeNow }
    let y : Trestle :=
      { x with
        inputs := x.inputs.filter (fun h => !x.goes gone h)
        failedIn := x.failedIn.filter (fun h => !x.goes gone h) }
    gone.foldl (fun z i =>
      z.countPruned t 0 i (sumNat ((x.inputs.filter (fun h => h.num == i && x.goes gone h)).map (·.cells))))
      (s.modTrestle t.owner t.entry (fun _ => y))

/-- Prune what the fences name: the branches send nothing more, and the inputs bring nothing more. -/
def State.prune (s : State) (t0 : Trestle) : State :=
  let p := t0.toPrune s
  if p.1.isEmpty && p.2.isEmpty then s
  else
    let u := (s.modTrestle t0.owner t0.entry (fun x =>
      { x with prunedOut := x.prunedOut ++ p.2.map Prod.fst })).satFld .SWC_TRESTLE_STATUS
        SWC_TRESTLE_STATUS_PRUNED_BRANCHES (p.1.length + p.2.length)
    let u := p.1.foldl (fun z i => z.tellPruned t0 0 i.1 0 i.2) u
    let u := p.2.foldl (fun z i => z.tellPruned t0 1 i.1 0 i.2) u
    (p.2.foldl (fun z i => z.discardCopies t0 i.1) u).pruneInputs t0 (p.1.map Prod.fst)

def State.pruneAll (s : State) : State :=
  (s.sw.trestles.filter (·.committed)).foldl (fun t e => t.prune e) s

/-! ### Fences (R373) -/

def fenceTable : Nat := 256

def State.fenceResult (s : State) (node : BitVec 16) (r : Nat) : State :=
  s.mgmt s.baseNode 0x0F (le2 node.toNat ++ le1 r)

/-- FENCE_SET. -/
def execFenceSet (src node : BitVec 16) (s : State) : Res :=
  onFm s src
    (if s.sw.fences.contains node then s.fenceResult node 2
     else if fenceTable ≤ s.sw.fences.length then s.fenceResult node 1
     else
       let t := (s.modSw (fun w => { w with fences := w.fences ++ [node] })).setFld .SWC_FENCE_STATUS
         SWC_FENCE_STATUS_LAST_NODE node.toNat
       t.pruneAll.fenceResult node 0)

/-- FENCE_CLEAR. -/
def execFenceClear (src node : BitVec 16) (s : State) : Res :=
  onFm s src
    (if s.sw.fences.contains node then
      (s.modSw (fun w => { w with fences := w.fences.filter (fun x => x != node) })).fenceResult node 0
     else s.fenceResult node 3)

/-! ### Setting entries (R365 to R368; 12_collectives.md R398) -/

def trestleTable : Nat := 4096

/-- The branches an entry may have, and the inputs of a reduction. -/
def maxBranches : Nat := 44
def maxInputs : Nat := 16

/-- The NODE items use each operand once and name only what stands before them. -/
def nodesOk (inputs : List Nat) : List (Nat × Nat × Nat) → List Nat → Bool
  | [], free => free.length == 1
  | (num, a, b) :: t, free =>
    decide (num < 15) && a != b && free.contains a && free.contains b && !free.contains (16 + num)
      && nodesOk inputs t ((free.filter (fun x => x != a && x != b)) ++ [16 + num])

def Trestle.unknownItem (t : Trestle) : Bool :=
  t.items.any (fun i => match i with
    | .unknown _ => true
    | _ => false)

def Trestle.reserves (t : Trestle) : List (Nat × Nat) :=
  t.items.filterMap (fun i => match i with
    | .reserve c sh => some (c, sh)
    | _ => none)

/-- Malformed at any message. -/
def Trestle.malformed (t : Trestle) : Bool :=
  t.unknownItem || (!t.reduction && !(t.ins.isEmpty && t.nodes.isEmpty))
    || (t.reduction && (t.port != 0 || t.label != 0))
    || decide (maxInputs < t.ins.length) || decide (maxBranches < t.branches.length)
    || decide (1 < t.reserves.length)

/-- Malformed at its commit. -/
def Trestle.badCommit (t : Trestle) : Bool :=
  t.branches.isEmpty || t.reserves.length != 1
    || (t.reduction && (t.nodes.length + 1 != t.ins.length
      || !nodesOk [] t.nodes (t.ins.map (fun i => i.2.2.1))
      || !decide ((t.ins.map (fun i => i.2.2.1)).Nodup)))

/-- The ports that an entry names. -/
def Trestle.ports (t : Trestle) : List Nat :=
  (if t.reduction then [] else [t.port]) ++ t.branches.map (·.1) ++ t.ins.map (·.1)

/-- The labels by which it takes frames. -/
def Trestle.labels (t : Trestle) : List Nat := (if t.reduction then [] else [t.label]) ++ t.ins.map (·.2.1)

/-- The table of labels without an entry. -/
def Switch.without (w : Switch) (owner entry : Nat) : Switch :=
  { w with trestles := w.trestles.filter (fun t => !(t.owner == owner && t.entry == entry)) }

def State.withoutEntry (s : State) (owner entry : Nat) : State := s.modSw (fun w => w.without owner entry)

/-- A label of the entry is in use, or is no label. -/
def State.labelsTaken (s : State) (t : Trestle) : Bool :=
  let others := (s.sw.without t.owner t.entry)
  t.labels.any (fun l => decide (spanTable ≤ l)
    || (if t.owner = switchOwner then others.labelUsed l
        else others.trestles.any (fun x => x.owner == t.owner && x.labels.contains l)))
    || !decide (t.labels.Nodup)

/-- A branch's share would take its port above its limit. -/
def State.shareOver (s : State) (t : Trestle) : Bool :=
  let others := s.withoutEntry t.owner t.entry
  t.branches.any (fun b => decide (s.shareLimit b.1 < others.shareUsed b.1 + t.shareOn b.1))

/-- Cells of the near-tier scratch area, 4 MiB (R398, 12_collectives.md Table 12-6). -/
def scratchCells : Nat := 16384

/-- The reservation does not fit. -/
def State.cellsOver (s : State) (t : Trestle) : Bool :=
  if t.owner = switchOwner then !s.cellsFree t.cells
  else
    decide (scratchCells < t.cells + sumNat ((s.sw.trestles.filter (fun x =>
      x.owner == t.owner && x.committed)).map (·.cells)))

def combiners : Nat := 64

/-- The lowest reduction combiner that is free and has not failed. -/
def State.freeCombiner (s : State) : Option Nat :=
  (List.range combiners).find? (fun i =>
    !s.unitFailed kindCombiner 0 i
      && !s.sw.own.any (fun t => t.reduction && t.committed && t.combiner == i))

/-- Hosted entries that an abutment holds. -/
def State.hostedBy (s : State) (n : Nat) : List Trestle := s.sw.trestles.filter (fun t => t.owner == n)

/-- The abutment takes no further hosted entry. -/
def State.hostRefuses (s : State) (t : Trestle) : Bool :=
  !s.bit (.ABT_COLL_CFG t.owner) ABT_COLL_CFG_HOST_OK
    || decide (4 ≤ ((s.withoutEntry t.owner t.entry).hostedBy t.owner).length)

/-- A port that it names cannot serve it: at an abutment, any but its own. -/
def State.portsBad (s : State) (t : Trestle) : Bool :=
  t.ports.any (fun p => if t.owner = switchOwner then !s.portCarries p else p != intPort t.owner)

/-- The lowest result of R368 that applies to an entry with the items of a message. -/
def State.trestleResult (s : State) (t : Trestle) (commit : Bool) : Nat :=
  if s.shareOver t then 2
  else if commit && s.cellsOver t then 3
  else if s.portsBad t then 4
  else if t.ports.any (fun p => s.oldJfp p) then 5
  else if (t.owner = switchOwner ∧ commit = true ∧ t.reduction = true ∧ s.freeCombiner.isNone = true)
      ∨ (t.owner ≠ switchOwner ∧ s.hostRefuses t = true) then 6
  else if t.malformed ∨ (commit = true ∧ t.badCommit = true) then 7
  else if s.labelsTaken t then 8
  else 0

/-- The kinds that the receiver of a message takes. -/
def kindOk (owner kind : Nat) : Bool := if owner = switchOwner then decide (kind ≤ 1) else kind == 2

/-- A new entry. -/
def newTrestle (owner : Nat) (m : TrestleSet) : Trestle :=
  { owner := owner, entry := m.entry, reduction := m.kind != 0, root := m.root, committed := false,
    port := m.port, label := m.label, items := [], combiner := 0, prunedIn := [], prunedOut := [],
    discarded := [], inputs := [], refetch := [], failedIn := [], op := 0, fmt := 0, count := 0, members := 0, acc := [], whole := [] }

def isUnused : TrestleItem → Bool
  | .unused => true
  | _ => false

/-- The entry with the items of one more message; none where the message does not go with it. -/
def State.grown (s : State) (owner : Nat) (m : TrestleSet) : Option Trestle :=
  let add (t : Trestle) : Trestle :=
    { t with root := t.root || m.root, items := t.items ++ m.items.filter (fun i => !isUnused i) }
  if m.append then
    match s.trestle? owner m.entry with
    | some t =>
      if t.committed ∨ t.reduction ≠ (m.kind != 0) ∨ (m.kind = 0 ∧ (t.port ≠ m.port ∨ t.label ≠ m.label)) then
        none
      else some (add t)
    | none => none
  else some (add (newTrestle owner m))

/-- TRESTLE_ENTRY_RESULT. -/
def State.trestleAnswer (s : State) (owner entry r : Nat) : State :=
  s.mgmt (if owner = switchOwner then s.baseNode else s.node owner) 0x0B (le2 entry ++ le1 r)

/-- Put an entry into the table, committed with the combiner it takes. -/
def State.putTrestle (s : State) (t : Trestle) (commit : Bool) : State :=
  let u := s.withoutEntry t.owner t.entry
  let x : Trestle := if commit then { t with committed := true, combiner := s.freeCombiner.getD 0 } else t
  let v := u.modSw (fun w => { w with trestles := w.trestles ++ [x] })
  if commit then v.prune x else v

/-- A TRESTLE_ENTRY_SET at the switch (8) or at an abutment. A refused entry holds nothing. -/
def State.setTrestle (s : State) (owner : Nat) (m : TrestleSet) : State :=
  if m.append = false ∧ (s.trestle? owner m.entry).isSome = true then s.trestleAnswer owner m.entry 1
  else
    match s.grown owner m with
    | none => (s.withoutEntry owner m.entry).trestleAnswer owner m.entry 7
    | some t =>
      let r := if kindOk owner m.kind = false ∨ trestleTable ≤ m.entry then 7 else s.trestleResult t m.commit
      if r = 0 then (s.putTrestle t m.commit).trestleAnswer owner m.entry 0
      else (s.withoutEntry owner m.entry).trestleAnswer owner m.entry r

/-- The holder of an entry exists: the switch, or a stack that has not failed. -/
def State.holder (s : State) (at_ : Nat) : Bool := at_ == switchOwner || s.stackUp at_

/-- TRESTLE_ENTRY_SET. -/
def execTrestleEntrySet (src : BitVec 16) (at_ : Nat) (m : TrestleSet) (s : State) : Res :=
  if at_ ≤ 8 then onFm s src (if s.holder at_ then s.setTrestle at_ m else s) else noUnit

/-- An entry goes, and with it the frames that it keeps. -/
def State.clearTrestle (s : State) (owner entry : Nat) : State :=
  match s.trestle? owner entry with
  | none => s
  | some t =>
    if t.owner ≠ switchOwner then
      (s.withoutEntry owner entry).modSw (fun w =>
        { w with kept := w.kept.filter (fun x =>
            !(x.fromMember && x.port == intPort owner && t.branches.any (fun b => b.2.1 == x.label))) })
    else
      t.branches.foldl (fun u b => u.forgetSpan b.1 b.2.1) ((s.withoutEntry owner entry).modSw (fun w =>
        { w with kept := w.kept.filter (fun x => !t.branches.any (fun b => x.goesOn b.1 b.2.1)) }))

/-- TRESTLE_ENTRY_CLEAR. -/
def execTrestleEntryClear (src : BitVec 16) (at_ entry : Nat) (s : State) : Res :=
  if at_ ≤ 8 then onFm s src (s.clearTrestle at_ entry) else noUnit

/-! ### Frames (R369 to R371; 12_collectives.md R400, R401) -/

/-- The failed checks of a frame so far. -/
def refetchKey (num : Nat) (f : Frame) : Nat := num + 16 * (chunkKey f + chunkPosition f * 2 ^ 32)

/-- How the check of a frame ends. -/
inductive Check where
  | good | again | lost
  deriving DecidableEq, Repr

/-- The check of R400: a hosted entry checks the tenant too. -/
def Trestle.check (t : Trestle) (s : State) (num : Nat) (f : Frame) : Check :=
  if chunkCrcOk f && !s.cellsBad (.inr f) && (t.owner == switchOwner || f.tenant.toNat == s.tenantOf t.owner) then .good
  else if Tab.get 0 t.refetch (refetchKey num f) < 3 then .again else .lost

/-- The request of a receiver to the hop that sent it a frame: send it again. -/
def State.ask (s : State) (code : Nat) (f : Frame) : State :=
  (s.modSw (fun w => { w with asked := w.asked ++ [(code, f)] })).emit (.refetch code f.label.toNat)

/-- Ask the sending hop for a frame again. -/
def State.askAgain (s : State) (t : Trestle) (num port : Nat) (f : Frame) : State :=
  let k := refetchKey num f
  let u := (s.modTrestle t.owner t.entry (fun x =>
    { x with refetch := Tab.modify 0 x.refetch k (· + 1) })).ask (t.senderCode port) f
  if t.owner = switchOwner then u else u.satFld (.ABT_COLL_STATUS t.owner) ABT_COLL_STATUS_REFETCHES 1

def State.forgetChecks (s : State) (t : Trestle) (num : Nat) (f : Frame) : State :=
  s.modTrestle t.owner t.entry (fun x => { x with refetch := Tab.erase x.refetch (refetchKey num f) })

/-- A frame leaves its queue, and the cells of one that is no chunk go on as they are with its copies: no check reads
them (R350). -/
def Trestle.lift (t : Trestle) (s : State) (port : Nat) (f : Frame) : State :=
  if isChunk f then s.popFrom (t.inKey port) f
  else
    (s.modSw (fun w => w.popFrame (t.inKey port) f)).restateFrame f
      ((t.branches.zipIdx.filter (fun b => !t.prunedOut.contains b.2)).map (fun b => underLabel f b.1.2.1))

/-- An entry takes a frame from its queue and sends `g` on every branch, once they have room. -/
def Trestle.pass (t : Trestle) (s : State) (num port : Nat) (f g : Frame) : State :=
  let r := t.room s g
  if r.2 then t.sendAll ((t.accept (t.lift r.1 port f) port f).forgetChecks t num f) g else r.1

/-- MULTICAST_FRAME. A chunk frame is taken whole, as its check reads all of it; any other as it comes (R352). A chunk
frame that fails for the fourth time goes on with failed set. -/
def execMulticastFrame (entry : Nat) (frame : Frame) (s : State) : Res :=
  match s.trestle? switchOwner entry with
  | none => .next s
  | some t =>
    let s := s.bringUp t.port
    let key := framesIn t.port
    whenOk (!t.reduction && t.committed && frame.label.toNat == t.label && s.sw.headFrame key frame
        && (!isChunk frame || (s.tailPort (.inr frame)).isNone)) s
      (if !isChunk frame then t.pass s 0 t.port frame frame
       else match t.check s 0 frame with
         | .good => t.pass s 0 t.port frame frame
         | .again => (s.popFrom key frame).askAgain t 0 t.port frame
         | .lost => t.pass s 0 t.port frame (markFailed frame))

/-- The elements of a frame as partials. -/
def chunkPartials (f : Frame) : List Lane :=
  let fmt := (fmtOf (chunkFmt f)).getD (.float fmtB32)
  let isInt := isIntFmt (chunkFmt f)
  (elements (Nat.max 1 (fmtWidth (chunkFmt f) / 8)) (chunkData f)).map (fun c =>
    BitVec.ofNat 32 (toFmt (partialFmt isInt) .rne true false 0 (decodeVal fmt c)).1)

/-- A frame whose carried format shows that it holds a whole chunk. -/
def chunkWhole (f : Frame) : Bool := chunkFmt f != 4 && chunkFmt f != 7

/-- The positions that an input's frame brings. -/
def heldOf (num : Nat) (f : Frame) : List HeldInput :=
  let es := chunkPartials f
  let rows := chunksOf positionSize es.length es
  rows.zipIdx.map (fun r =>
    { num := num, chunk := BitVec.ofNat 64 (chunkKey f), position := chunkPosition f + r.2,
      e0 := chunkE0 f + positionSize * r.2, redop := chunkRedop f, isInt := isIntFmt (chunkFmt f),
      incomplete := chunkIncomplete f, failed := chunkFailed f, tenant := f.tenant, elems := r.1, len := r.1.length,
      isLast := if chunkWhole f then some (r.2 + 1 == rows.length) else none,
      cells := if r.2 + 1 = rows.length then frameCells f else 0 })

/-- An input's frame that has passed its check. -/
def State.takeInput (s : State) (t : Trestle) (num : Nat) (f : Frame) : State :=
  s.modTrestle t.owner t.entry (fun x => { x with inputs := x.inputs ++ heldOf num f })

/-- An input's frame that has failed for the fourth time. -/
def State.loseInput (s : State) (t : Trestle) (num : Nat) (f : Frame) : State :=
  s.modTrestle t.owner t.entry (fun x =>
    { x with failedIn := x.failedIn ++ (heldOf num f).map (fun h => { h with elems := [], cells := 0 }) })

/-- The reservation of an input has room for a frame beside those that it holds (R349, R370). -/
def Trestle.inputRoom (t : Trestle) (num : Nat) (f : Frame) : Bool :=
  decide (t.inputCells num + frameCells f ≤ t.reserve.1)

/-- TRESTLE_INPUT_FRAME at the switch (8) or at an abutment. -/
def execTrestleInputFrame (at_ entry num : Nat) (frame : Frame) (s : State) : Res :=
  match (s.trestle? at_ entry).bind (fun t =>
      (t.ins.find? (fun i => i.2.2.1 == num)).map (fun i => (t, i.1, i.2.1))) with
  | none => .next s
  | some (t, port, label) =>
    let s := if at_ = switchOwner then s.bringUp port else s
    let key := t.inKey port
    whenOk (t.reduction && t.committed && frame.label.toNat == label && s.sw.headFrame key frame
        && (s.tailPort (.inr frame)).isNone) s
      (let u := s.popFrom key frame
       if t.prunedIn.contains num then (t.accept u port frame).countPruned t 0 num (frameCells frame)
       else if !isChunk frame then (t.accept u port frame).dropFrame
       else match t.check s num frame with
         | .good =>
           if chunkPass frame then t.pass s num port frame frame
           else if t.inputRoom num frame then ((t.accept u port frame).forgetChecks t num frame).takeInput t num frame
           else s
         | .again => u.askAgain t num port frame
         | .lost =>
           if chunkPass frame then t.pass s num port frame (markFailed frame)
           else ((t.accept u port frame).forgetChecks t num frame).loseInput t num frame)

/-- The kept frames that a request can mean: those that a hop sent on a port under a label. -/
def State.keptFor (s : State) (port label : Nat) : List Kept :=
  s.sw.kept.filter (fun x =>
    x.fromMember == decide (100 ≤ port) && x.port == port % 100 && x.label == label)

/-- The frame that a receiver in this module has asked a hop for, under a label. -/
def State.askedFor (s : State) (port label : Nat) : Option (Nat × Frame) :=
  s.sw.asked.find? (fun x => x.1 == port && x.2.label.toNat == label)

/-- The kept frames of a label that have gone over a link whole, so that their check at the far end can have failed. -/
def State.sentOn (s : State) (port label : Nat) : List Kept :=
  (s.keptFor port label).filter (fun x =>
    !(s.sw.framesAt port).contains x.frame && (s.port port).txItem != some (.inr x.frame))

/-- CHUNK_REFETCH: a request to send again reaches the hop that sends on a port (100 and more: an abutment on its
internal port). Over a link, which of the frames that it has sent failed its check the command does not say: a free value
(DESIGN CHOICE, log entry 81). Within the module the hop sends the frame that the receiver has asked for first, while it
keeps it. -/
def execChunkRefetch (port label : Nat) (s : State) : Res :=
  if port < 36 then
    match s.sentOn port label with
    | [] => .next s
    | x :: rest =>
      let f := s.takeFree
      .next (f.2.modSw (fun w => w.pushFrame port (nth x (x :: rest) (f.1 % (rest.length + 1))).frame))
  else
    match s.askedFor port label with
    | none => .next s
    | some a =>
      let t := s.modSw (fun w => { w with asked := w.asked.erase a })
      .next (if (s.keptFor port label).any (fun x => x.frame == a.2) then t.modSw (fun w => w.pushFrame port a.2) else t)

end Sys2Proof.Machine
end

