-- ==== Sys2Proof/Machine/Collectives.lean ====
section
/-! DEFINITION. Collectives at a member: the binding of groups, the header, data and tally rounds, the
checks of chunk frames, and the ends of a collective (12_collectives.md R379 to R409). -/

namespace Sys2Proof.Machine

/-! ### Groups -/

def State.group? (s : State) (n : Nat) (g : BitVec 16) : Option Group :=
  (s.stack n).groups.find? (fun x => x.id == g)

def State.modGroup (s : State) (n : Nat) (g : BitVec 16) (f : Group → Group) : State :=
  s.modStack n (fun k => { k with groups := k.groups.map (fun x => if x.id = g then f x else x) })

/-- The collective of a group that is in progress: one at a time (R384). -/
def State.coll? (s : State) (n : Nat) (g : BitVec 16) : Option Coll :=
  (s.stack n).colls.find? (fun c => c.group == g)

def State.modColl (s : State) (n : Nat) (g : BitVec 16) (f : Coll → Coll) : State :=
  s.modStack n (fun k => { k with colls := k.colls.map (fun c => if c.group = g then f c else c) })

def State.endColl (s : State) (n : Nat) (g : BitVec 16) : State :=
  s.modStack n (fun k => { k with colls := k.colls.filter (fun c => c.group != g) })

def State.boundGroups (s : State) (n : Nat) : Nat := ((s.stack n).groups.filter (·.bound)).length

def maxGroups : Nat := 64

/-- The detail of MEMBER_MISSING without a count. -/
def allMissing : Nat := 0xFFFFFFFF

/-- A collective as it starts on a member. -/
def newColl (d : Desc) (now : Nat) : Coll :=
  { desc := d.handle, group := d.group, inst := 0, started := now, phase := 0, arrival := 0, aMin := 0,
    latest := 0, headerIncomplete := false, mismatch := false, expected := 0, failedChunks := [],
    tally := [], tallyIncomplete := false, early := [], lostEarly := 0 }

/-! ### Frames that a member sends (R388 to R394) -/

/-- Word 1 of a member's frame. An index above 0x7FFF_FFFE is sent as that (R390). -/
def memberWord1 (g : BitVec 16) (inst round pass position index : Nat) : Nat :=
  g.toNat * 2 ^ 48 + inst * 2 ^ 40 + round * 2 ^ 38 + pass * 2 ^ 35 + position * 2 ^ 32
    + Nat.min index 0x7FFFFFFE

/-- A frame of int32 lanes. -/
def laneFrame (g : BitVec 16) (inst round position redop : Nat) (tenant : BitVec 3) (lanes : List Nat) : Frame :=
  chunkFrame (chunkWord0 redop 7 0) (memberWord1 g inst round 0 position 0) 0 tenant (lanes.flatMap le4)

def laneMask : Nat := 0x7FFFFFFF

/-- The 16 header lanes of Table 12-3. -/
def headerLanes (d : Desc) (arrival : BitVec 48) : List Nat :=
  let en := d.flag 3 63
  let beat (hi lo : Nat) : Nat := if en then bitsOf d.startBeat.toNat hi lo else 0
  let l := [d.cop + d.redop * 2 ^ 4 + d.cfmt * 2 ^ 6 + boolNat en * 2 ^ 10, d.root, bitsOf d.count 19 0,
    bitsOf d.count 39 20, beat 15 0, beat 31 16, beat 47 32, arrival.toNat % 2 ^ 31]
  l ++ l.map (fun x => laneMask - x)

/-- A member sends a frame on the group's up label. -/
def State.sendUp (s : State) (n : Nat) (x : Group) (f : Frame) : State :=
  s.memberSend n x.up.toNat f

def State.memberTenant (s : State) (n : Nat) : BitVec 3 := BitVec.ofNat 3 (s.tenantOf n)

/-- The header round begins: the collective takes the next instance (R388). -/
def State.beginColl (s : State) (n : Nat) (x : Group) (d : Desc) : State :=
  let inst := (x.count + 1) % 256
  let c : Coll :=
    { newColl d s.now with phase := 1, inst := BitVec.ofNat 8 inst, arrival := s.beatNow }
  let t := (s.endColl n x.id).modStack n (fun k => { k with colls := k.colls ++ [c] })
  ((((t.modGroup n x.id (fun y => { y with count := inst, refetched := [] })).setFld (.ABT_ARRIVAL n) ABT_ARRIVAL_ARRIVAL
    s.beatNow.toNat).phase d.handle .held)).sendUp n x
      (laneFrame x.id inst roundHeader 0 2 (s.memberTenant n) (headerLanes d s.beatNow))

/-- A collective of a bound group proceeds, unless the group is broken or its descriptor does not match the
group (R379, R406). -/
def State.proceed (s : State) (n : Nat) (x : Group) (d : Desc) : State :=
  if x.broken then (s.endColl n x.id).failDesc d.handle stMissing allMissing
  else if x.members ≠ d.members ∨ x.rank ≠ d.rank then (s.endColl n x.id).failDesc d.handle stBad 7
  else s.beginColl n x d

/-- GROUP_REQUEST (Table 12-2). -/
def State.groupRequest (s : State) (n : Nat) (d : Desc) : State :=
  s.mgmt (s.node n) 0x11
    (le2 d.group.toNat ++ le1 (s.tenantOf n) ++ le1 0 ++ le2 (s.node n).toNat ++ le2 d.members ++ le2 d.rank)

/-- A collective waits for its group: the group's record holds what was asked. -/
def State.askGroup (s : State) (n : Nat) (d : Desc) : State :=
  let x : Group :=
    { id := d.group, bound := false, broken := false, members := d.members, rank := d.rank, up := 0, down := 0,
      count := 0, since := s.now, refetched := [] }
  let t := s.modStack n (fun k =>
    { k with
      groups := k.groups.filter (fun y => y.id != d.group) ++ [x]
      colls := k.colls ++ [newColl d s.now] })
  (t.phase d.handle .held).groupRequest n d

/-- An earlier collective of the group is in progress or waits its turn (R384). -/
def State.collAhead (s : State) (d : Desc) : Bool :=
  (s.coll? d.stack d.group).isSome
    || s.host.descs.any (fun x => x.opcode == dCollective && x.stack == d.stack && x.group == d.group
      && decide (x.st = .started) && decide (x.startNo < d.startNo))

/-- COLLECTIVE. One whose turn in its group has not come stays started. -/
def execCollective (desc : Nat) (s : State) : Res :=
  onStarted s desc dCollective (fun d =>
    if s.collAhead d then s
    else match s.group? d.stack d.group with
      | some x =>
        if x.bound then s.proceed d.stack x d
        else if maxGroups ≤ s.boundGroups d.stack ∨ s.fmNode = 0xFFFF then s.failDesc desc stTimeout 6
        else s.askGroup d.stack d
      | none =>
        if maxGroups ≤ s.boundGroups d.stack ∨ s.fmNode = 0xFFFF then s.failDesc desc stTimeout 6
        else s.askGroup d.stack d)

/-- GROUP_GRANT (R385): the group is bound with what was asked last for it. -/
def execGroupGrant (src : BitVec 16) (stack : Nat) (group up down : BitVec 16) (s : State) : Res :=
  onStack stack (onFm s src (match s.group? stack group with
    | none => s
    | some x =>
      if x.bound then s
      else
        let y : Group := { x with bound := true, broken := false, up := up, down := down, count := 0, refetched := [] }
        let t := s.modGroup stack group (fun _ => y)
        match (s.coll? stack group).bind (fun c => s.desc? c.desc) with
        | none => t
        | some d => t.proceed stack y d))

/-- The collective that waits for a group completes with TIMEOUT. -/
def State.groupFails (s : State) (n : Nat) (g : BitVec 16) (detail : Nat) : State :=
  match s.coll? n g with
  | none => s
  | some c => if c.phase = 0 then (s.endColl n g).failDesc c.desc stTimeout detail else s

/-- GROUP_REFUSE: the reason is recorded. -/
def execGroupRefuse (src : BitVec 16) (stack : Nat) (group : BitVec 16) (reason : Byte) (s : State) : Res :=
  onStack stack (onFm s src
    ((s.modSw (fun w => { w with refuseReason := reason.toNat })).groupFails stack group 6))

/-- GROUP_REQUEST_TIMEOUT. -/
def execGroupRequestTimeout (stack : Nat) (group : BitVec 16) (s : State) : Res :=
  onStack stack (match s.group? stack group with
    | none => .next s
    | some x => whenOk (!x.bound && decide (x.since + fiveMs ≤ s.now)) s (s.groupFails stack group 4))

/-- A collective in progress completes with MEMBER_MISSING; one already complete only loses its tally. -/
def State.missAll (s : State) (n : Nat) (g : BitVec 16) : State :=
  match s.coll? n g with
  | none => s
  | some c =>
    if c.phase < 5 then (s.endColl n g).failDesc c.desc stMissing allMissing else s.endColl n g

/-- GROUP_CLEAR (R387). -/
def State.clearGroup (s : State) (n : Nat) (g : BitVec 16) : State :=
  match s.group? n g with
  | none => s
  | some x =>
    if x.bound then
      (s.missAll n g).modStack n (fun k => { k with groups := k.groups.filter (fun y => y.id != g) })
    else s

def execGroupClear (src : BitVec 16) (stack : Nat) (group : BitVec 16) (s : State) : Res :=
  onStack stack (onFm s src (s.clearGroup stack group))

/-! ### Broken groups (R406) -/

def brokeLimit : Nat := 1
def brokeStale : Nat := 2

/-- A group breaks. -/
def State.breakGroup (s : State) (n : Nat) (x : Group) (cause : Nat) : State :=
  let inst := ((s.coll? n x.id).map (fun c => c.inst.toNat)).getD x.count
  let t := ((s.missAll n x.id).modGroup n x.id (fun y => { y with broken := true })).setBit (.ABT_COLL_STATUS n)
    ABT_COLL_STATUS_BROKEN_SEEN true
  let u := if cause = brokeLimit then t.setBit (.ABT_COLL_STATUS n) ABT_COLL_STATUS_LIMIT_SEEN true else t
  u.mgmt (u.node n) 0x15 (le2 x.id.toNat ++ le1 inst ++ le1 cause)

/-- LIMIT in milliseconds. -/
def State.collLimit (s : State) (n : Nat) : Nat :=
  Nat.min 1000 (s.fld (.ABT_COLL_CFG n) ABT_COLL_CFG_LIMIT)

/-- COLLECTIVE_LIMIT_EXPIRE. -/
def execCollectiveLimitExpire (stack : Nat) (group : BitVec 16) (s : State) : Res :=
  onStack stack (match s.group? stack group, s.coll? stack group with
    | some x, some c =>
      let limit := s.collLimit stack
      whenOk (decide (0 < limit) && decide (0 < c.phase) && decide (c.phase < 5)
        && decide (c.started + limit * ticksPerMs ≤ s.now)) s (s.breakGroup stack x brokeLimit)
    | _, _ => .next s)

/-! ### Frames on the down label (R400, R401, R406, R407) -/

/-- The bound group whose down label a frame carries. -/
def State.downGroup (s : State) (n : Nat) (f : Frame) : Option Group :=
  (s.stack n).groups.find? (fun x => x.bound && x.down == f.label)

/-- The failed checks of a frame are counted under its chunk, round and position. -/
def downKey (f : Frame) : Nat := chunkIndex f * 32 + chunkPosition f * 4 + chunkRound f

def State.countFailed (s : State) (n : Nat) : State := s.satFld (.ABT_COLL_STATUS n) ABT_COLL_STATUS_FAILED 1

/-- Record a chunk as failed (R401); a data frame is no longer expected. -/
def State.recordFailed (s : State) (n : Nat) (g : BitVec 16) (f : Frame) : State :=
  let t := s.modColl n g (fun c =>
    { c with
      failedChunks := c.failedChunks ++ [chunkIndex f]
      lostEarly := if chunkRound f = roundData ∧ c.phase = 1 then c.lostEarly + 1 else c.lostEarly
      expected := if chunkRound f = roundData then c.expected - 1 else c.expected })
  t.countFailed n

/-- A frame fails its check: it is asked for again up to three times; then a member in a collective records its chunk
as failed. One with a foreign tenant is counted (R407). -/
def State.downFails (s : State) (n : Nat) (x : Group) (f : Frame) : State :=
  let t := if f.tenant.toNat = s.tenantOf n then s else s.quiet n qFrame
  if Tab.get 0 x.refetched (downKey f) < 3 then
    ((t.modGroup n x.id (fun y =>
      { y with refetched := Tab.modify 0 y.refetched (downKey f) (· + 1) })).satFld (.ABT_COLL_STATUS n)
        ABT_COLL_STATUS_REFETCHES 1).ask (intPort n) f
  else
    let u := t.unkeep ⟨false, intPort n, f.label.toNat, f⟩
    if (s.coll? n x.id).isSome then u.recordFailed n x.id f else u

/-- A frame on the down label passes its check (R400). -/
def State.downOk (s : State) (n : Nat) (f : Frame) : Bool :=
  chunkCrcOk f && !s.cellsBad (.inr f) && f.tenant.toNat == s.tenantOf n

/-- A frame of a round reaches a member's down label. One of another instance than the running collective's,
or than the last one's when none runs, breaks the group. -/
def onDown (s : State) (n round : Nat) (f : Frame) (g : State → Group → Coll → State) : Res :=
  onStack n (match s.downGroup n f with
    | none => .next s
    | some x =>
      whenOk (isChunk f && chunkRound f == round && s.sw.headFrame (intPort n) f) s
        (let t := s.popFrom (intPort n) f
         if !s.downOk n f then t.downFails n x f
         else
           let u := t.unkeep ⟨false, intPort n, f.label.toNat, f⟩
           match s.coll? n x.id with
           | none => if chunkInst f ≠ x.count ∧ x.broken = false then u.breakGroup n x brokeStale else u
           | some c => if chunkInst f ≠ c.inst.toNat then u.breakGroup n x brokeStale else g u x c))

def frameLanes (f : Frame) : List Nat := elements 4 (chunkData f)

/-! ### Chunks of a vector (R392) -/

/-- Elements that a chunk holds. -/
def Desc.chunkElems (d : Desc) : Nat := 8160 / d.elemBytes

def chunkCount (e v : Nat) : Nat := (v + e - 1) / Nat.max 1 e

/-- The elements of a vector: the reduced vector, or the contributing member's source (R392). -/
def Desc.vectorLen (d : Desc) : Nat :=
  if d.cop = 2 ∨ d.cop = 5 then d.members * d.count else if d.cop = 6 then 0 else d.count

/-- Chunks of one vector. -/
def Desc.chunks (d : Desc) : Nat := chunkCount d.chunkElems d.vectorLen

/-- The data frames that a member receives: every chunk of the reduced vector, or of every contribution. -/
def Desc.expects (d : Desc) : Nat :=
  if reduces d.cop then d.chunks
  else if d.cop = 4 then d.chunks
  else d.members * d.chunks

/-! ### Data round (R381, R388, R392, R393) -/

/-- Read an operand of a collective in place: a segment that lacks R reads as zeros and is counted. -/
def State.readInPlace (s : State) (d : Desc) (word : Nat) : Answer :=
  (d.segsOf word).foldl (fun (a : Answer) x =>
    if !x.rights.getLsbD 0 then ⟨a.state.quiet d.stack qRights, a.bytes ++ zeros x.len, a.poisoned⟩
    else
      let b := a.state.loadAt d.stack x.offset x.len
      ⟨b.state, a.bytes ++ b.bytes, a.poisoned || b.poisoned⟩) ⟨s, [], false⟩

/-- A member's data frames. -/
def State.dataFrames (s : State) (n : Nat) (d : Desc) (inst : Nat) (bs : List Byte) : List Frame :=
  let pass := !reduces d.cop
  let w := d.elemBytes
  let e := d.chunkElems
  (chunksOf (e * w) bs.length bs).zipIdx.map (fun p =>
    chunkFrame (chunkWord0 d.redop d.cfmt (p.2 * e))
      (memberWord1 d.group inst roundData (boolNat pass) 0 (if pass then d.rank * d.chunks + p.2 else p.2))
      (if pass then d.rank else 0) (s.memberTenant n) p.1)

/-- The member contributes data: in BROADCAST only the root does. -/
def Desc.contributes (d : Desc) : Bool := d.cop != 4 || d.rank == d.root

/-- The member sends its data chunks in ascending order. A poisoned source ends the collective with FAULT at
its word (13_memory_tiers.md R417). -/
def State.sendData (s : State) (n : Nat) (x : Group) (c : Coll) (d : Desc) : State :=
  let t := (s.phase d.handle .held).modColl n x.id (fun y => { y with phase := 3 })
  if !d.contributes then t
  else
    let a := t.readInPlace d 1
    if a.poisoned then (a.state.endColl n x.id).failDesc d.handle stFault 1
    else (s.dataFrames n d c.inst.toNat a.bytes).foldl (fun u f => u.sendUp n x f) a.state

/-- DATA_ROUND_START: at the later of the header result and start_beat. -/
def execDataRoundStart (stack : Nat) (group : BitVec 16) (s : State) : Res :=
  onStack stack (match s.group? stack group, s.coll? stack group with
    | some x, some c =>
      match s.desc? c.desc with
      | none => .next s
      | some d => whenOk (c.phase == 2 && (!d.flag 3 63 || s.fires d) && s.sourceReady d) s (s.sendData stack x c d)
    | _, _ => .next s)

/-! ### Chunk frames (R400 to R402) -/

/-- The elements of a vector that a member writes, as first, end, and the place of the first in dst. -/
def Desc.dstPart (d : Desc) (rank : Nat) : Nat × Nat × Nat :=
  let n := d.count
  match d.cop with
  | 0 | 4 => (0, n, 0)
  | 1 => (0, if d.rank = d.root then n else 0, 0)
  | 2 => (d.rank * n, (d.rank + 1) * n, 0)
  | 3 => (0, n, rank * n)
  | 5 => (d.rank * n, (d.rank + 1) * n, rank * n)
  | _ => (0, 0, 0)

/-- A segment list cut to `n` bytes. -/
def takeSegs : Nat → List Seg → List Seg
  | _, [] => []
  | n, x :: t => if n = 0 then [] else { x with len := Nat.min n x.len } :: takeSegs (n - x.len) t

/-- Store bytes into an operand from byte `from_` on. -/
def State.writePart (s : State) (d : Desc) (word from_ : Nat) (bs : List Byte) : State :=
  ((takeSegs bs.length (dropSegs from_ (d.segsOf word))).foldl (fun (p : State × List Byte) x =>
    (p.1.writeSeg d opStore x (p.2.take x.len), p.2.drop x.len)) (s, bs)).1

/-- Write what a chunk frame holds of the member's part of dst. -/
def State.writeChunk (s : State) (d : Desc) (f : Frame) : State :=
  let w := d.elemBytes
  let n := (chunkData f).length / w
  let part := d.dstPart (bitsOf (chunkWord f 2) 63 48)
  let e0 := chunkE0 f
  let lo := Nat.max part.1 e0
  let hi := Nat.min part.2.1 (e0 + n)
  if hi ≤ lo then s
  else
    s.writePart d 2 ((part.2.2 + (lo - part.1)) * w) (((chunkData f).drop ((lo - e0) * w)).take ((hi - lo) * w))

/-- A data frame of the running instance that has passed its checks (R401, R402). -/
def State.takeChunk (s : State) (n : Nat) (g : BitVec 16) (h : Nat) (f : Frame) : State :=
  if chunkFailed f then s.recordFailed n g f
  else
    let u := s.modColl n g (fun y => { y with expected := y.expected - 1 })
    if chunkIncomplete f then u
    else match u.desc? h with
      | some d => u.writeChunk d f
      | none => u

/-- CHUNK_FRAME. One that overtakes the header result, which was asked for again, is kept until that comes. -/
def execChunkFrame (stack : Nat) (frame : Frame) (s : State) : Res :=
  onDown s stack roundData frame (fun t x c =>
    if c.phase = 1 then t.modColl stack x.id (fun y => { y with early := y.early ++ [frame] })
    else if c.phase = 2 ∨ c.phase = 3 then t.takeChunk stack x.id c.desc frame
    else t)

/-! ### Header result (R388, R389, R403) -/

/-- The header result shows a mismatch. -/
def headerMismatch (lanes : List Nat) : Bool :=
  (List.range 7).any (fun k => nth 0 lanes k + nth 0 lanes (k + 8) != laneMask)

/-- A collective's effects are all acknowledged once its writes are: then its record follows. -/
def State.completeColl (s : State) (h : Nat) : State := (s.phase h .flag).moveDesc moveFuel h

/-- The descriptor waits for start_beat. -/
def State.awaitBeat (s : State) (d : Desc) : State := if d.flag 3 63 then s.arm d.handle else s

/-- HEADER_RESULT. -/
def execHeaderResult (stack : Nat) (frame : Frame) (s : State) : Res :=
  onDown s stack roundHeader frame (fun t x c =>
    let l := frameLanes frame
    let bad := headerMismatch l
    let inc := chunkIncomplete frame
    let t := if chunkFailed frame then t.recordFailed stack x.id frame else t
    let c := (t.coll? stack x.id).getD c
    match t.desc? c.desc with
    | none => t
    | some d =>
      if c.phase ≠ 1 then t
      else
        let e : Coll :=
          { c with headerIncomplete := inc, mismatch := bad, latest := nth 0 l 7, aMin := laneMask - nth 0 l 15 }
        if inc ∨ bad = true then t.modColl stack x.id (fun _ => { e with phase := 3 })
        else if d.count = 0 then (t.modColl stack x.id (fun _ => { e with phase := 5 })).completeColl d.handle
        else
          let u := (t.modColl stack x.id (fun _ => { e with phase := 2, expected := d.expects - e.lostEarly, early := [] })).awaitBeat d
          e.early.foldl (fun v f => v.takeChunk stack x.id c.desc f) u)

/-! ### Tally (R388, R390, R403, R404, R408) -/

/-- The lowest chunk that the member holds failed. -/
def Coll.lowestFailed (c : Coll) : Nat :=
  c.failedChunks.foldl (fun m i => Nat.min m (Nat.min i 0x7FFFFFFE)) laneMask

/-- Beats from the earliest arrival, modulo 2^31. -/
def since31 (a lo : Nat) : Nat := (a % 2 ^ 31 + 2 ^ 31 - lo % 2 ^ 31) % 2 ^ 31

/-- The laggard key of a member. -/
def Coll.key (c : Coll) (rank : Nat) : Nat := Nat.min (since31 c.arrival.toNat c.aMin) 65535 * 32768 + rank

/-- The three tally frames of Table 12-4. -/
def Coll.tallyFrames (c : Coll) (x : Group) (tenant : BitVec 3) : List Frame :=
  let i := c.inst.toNat
  [laneFrame x.id i roundTally 0 0 tenant [1, if c.failedChunks.isEmpty then 0 else 1],
   laneFrame x.id i roundTally 1 1 tenant [c.lowestFailed],
   laneFrame x.id i roundTally 2 2 tenant [c.key x.rank]]

/-- TALLY_SEND. -/
def execTallySend (stack : Nat) (group : BitVec 16) (s : State) : Res :=
  onStack stack (match s.group? stack group, s.coll? stack group with
    | some x, some c =>
      whenOk ((c.phase == 3 && c.expected == 0) || c.phase == 5) s
        ((c.tallyFrames x (s.memberTenant stack)).foldl (fun t f => t.sendUp stack x f)
          (s.modColl stack group (fun y => { y with phase := y.phase + 1 })))
    | _, _ => .next s)

/-- The tally with one more of its frames. Keys 0 to 3 hold the lanes, key 4 + p that position p has come. -/
def Coll.addTally (c : Coll) (f : Frame) : Coll :=
  let p := chunkPosition f
  let l := frameLanes f
  let put (t : Tab Nat) (k v : Nat) : Tab Nat := Tab.put t k v
  let t := put c.tally (4 + p) 1
  { c with
    tallyIncomplete := c.tallyIncomplete || chunkIncomplete f
    tally := if p = 0 then put (put t 0 (nth 0 l 0)) 1 (nth 0 l 1)
      else if p = 1 then put t 2 (nth 0 l 0) else if p = 2 then put t 3 (nth 0 l 0) else t }

def Coll.lane (c : Coll) (k : Nat) : Nat := Tab.get 0 c.tally k

/-- Every frame of the tally has come. -/
def Coll.tallied (c : Coll) : Bool := c.lane 4 == 1 && c.lane 5 == 1 && c.lane 6 == 1

/-- ABT_LAGGARD (R408). -/
def State.setLaggard (s : State) (n : Nat) (x : Group) (c : Coll) : State :=
  ((s.setFld (.ABT_LAGGARD n) ABT_LAGGARD_RANK (c.lane 3 % 32768)).setFld (.ABT_LAGGARD n)
    ABT_LAGGARD_LATENESS (since31 c.latest c.aMin)).setFld (.ABT_LAGGARD n) ABT_LAGGARD_GROUP x.id.toNat

/-- The status of a collective at its tally (R404). -/
def State.finishColl (s : State) (x : Group) (c : Coll) : State :=
  if c.headerIncomplete ∨ c.tallyIncomplete = true then s.failDesc c.desc stMissing (x.members - c.lane 0)
  else if c.mismatch then s.failDesc c.desc stBad 9
  else if 0 < c.lane 1 then s.failDesc c.desc stCrc (c.lane 2)
  else s.completeColl c.desc

/-- TALLY_RESULT. -/
def execTallyResult (stack : Nat) (frame : Frame) (s : State) : Res :=
  onDown s stack roundTally frame (fun t x c =>
    if c.phase ≠ 4 ∧ c.phase ≠ 6 then t
    else
      let t := if chunkFailed frame then t.recordFailed stack x.id frame else t
      let e := ((t.coll? stack x.id).getD c).addTally frame
      if !e.tallied then t.modColl stack x.id (fun _ => e)
      else
        let u := (t.setLaggard stack x e).endColl stack x.id
        if c.phase = 6 then u else u.finishColl x e)

/-! ### ABT_COLL_CFG (Table 12-6) and rejected beats -/

/-- A write of ABT_COLL_CFG: SCRATCH stands while a hosted entry is committed. -/
def State.wrCollCfg (n : Nat) (v live : Word) (s : State) : State :=
  let r : Reg := .ABT_COLL_CFG n
  let t := s.plainWrite r v live
  if t.fld r ABT_COLL_CFG_SCRATCH ≠ s.fld r ABT_COLL_CFG_SCRATCH
      ∧ (s.hostedBy n).any (·.committed) = true then s.countAt r
  else t

/-- Every scheduled descriptor whose event has not taken effect completes with TIMEOUT (02_rack_beat.md R34,
R44): span openings and collectives among them. -/
def State.timeoutBeats (s : State) (detail : Nat) : State :=
  let t := s.timeoutScheduled detail
  let u := stackNums.foldl (fun (u : State) n =>
    (u.stack n).spansOut.foldl (fun v x =>
      if x.st = .requested ∨ x.st = .armed then (v.spanFails n x detail).spanRelease n x.id else v) u) t
  stackNums.foldl (fun (u : State) n =>
    (u.stack n).colls.foldl (fun v c =>
      match v.desc? c.desc with
      | some d =>
        if d.beat?.isSome ∧ c.phase ≤ 2 then (v.endColl n c.group).failDesc c.desc stTimeout detail else v
      | none => v) u) u

end Sys2Proof.Machine
end

