-- ==== Sys2Proof/Machine/Defects.lean ====
section
/-! DEFINITION. The defect list, failures after READY, failed stacks, and the repair and scrub of the
memory tiers (13_memory_tiers.md R421 to R425; 15_startup_and_defects.md R462 to R472;
05_spatial_pipelines.md R159). -/

namespace Sys2Proof.Machine

/-! ### Entries (Tables 15-3 to 15-5) -/

def causeKat : Nat := 1
def causeLate : Nat := 2
def causeRepaired : Nat := 3
def causeTraining : Nat := 4

/-- A unit's entry. -/
def unitEntry (u : UnitId) (cause : Nat) (start : BitVec 16) : Word :=
  BitVec.ofNat 64 (u.kind.toNat * 2 ^ 60 + cause * 2 ^ 56 + u.stack * 2 ^ 53 + u.index * 2 ^ 32 + start.toNat)

/-- A memory row's entry, HARD clear. -/
def rowEntry (r : RowId) (cause : Nat) (start : BitVec 16) : Word :=
  BitVec.ofNat 64 (8 * 2 ^ 60 + cause * 2 ^ 56 + r.stack * 2 ^ 53 + boolNat r.far * 2 ^ 52
    + boolNat r.position * 2 ^ 51 + r.channel.toNat * 2 ^ 45 + r.bank.toNat * 2 ^ 39 + r.row.toNat * 2 ^ 20
    + start.toNat)

def entryKind (e : Word) : Nat := bitsOf e.toNat 63 60

/-- What an entry names: its kind with the unit's stack and index, or the row's location. -/
def entryName (e : Word) : Nat × Nat × Nat :=
  if entryKind e = 8 then (8, bitsOf e.toNat 55 20, 0)
  else (entryKind e, bitsOf e.toNat 55 53, bitsOf e.toNat 47 32)

/-- The entries the list may hold (R464). -/
def listSize : Nat := 4096

def State.allEntries (s : State) : List Word := s.boot.defects ++ s.boot.unwritten ++ s.boot.unlisted

/-- An entry already names the same unit or row (R465). -/
def State.namesIt (s : State) (e : Word) : Bool := s.allEntries.any (fun x => entryName x == entryName e)

/-- The list is full: the unit or row is held as failed, and the fabric manager learns of it (R466). -/
def State.holdUnlisted (s : State) (e : Word) : State :=
  ({ s with boot := { s.boot with unlisted := s.boot.unlisted ++ [e] } }.setBit .CAP_START
    CAP_START_DEFECT_FULL true).notice 12 noStack []

/-- Count the entries written since reset. -/
def State.countNew (s : State) : State :=
  s.setFld .CAP_DEFECT_COUNT CAP_DEFECT_COUNT_NEW (s.fld .CAP_DEFECT_COUNT CAP_DEFECT_COUNT_NEW + 1)

/-- Add an entry unless one names the same. After READY it waits to be written (R465, R466, R469). -/
def State.addEntry (s : State) (e : Word) : State :=
  if s.namesIt e then s
  else if listSize ≤ s.boot.defects.length + s.boot.unwritten.length then s.holdUnlisted e
  else if s.ready then { s with boot := { s.boot with unwritten := s.boot.unwritten ++ [e] } }
  else
    let l := s.boot.defects ++ [e]
    { s with boot := { s.boot with defects := l, secondCopy := l } }.countNew

/-- DEFECT_ENTRY_WRITTEN (R464, R469): a copy of the list has been written. The second copy takes what the first holds
before the first takes the oldest entry that waits. -/
def execDefectEntryWritten (s : State) : Res :=
  if s.boot.secondCopy ≠ s.boot.defects then
    .next { s with boot := { s.boot with secondCopy := s.boot.defects } }
  else
    match s.boot.unwritten with
    | [] => .next s
    | e :: rest =>
      .next { s with boot := { s.boot with defects := s.boot.defects ++ [e], unwritten := rest } }.countNew

/-! ### Failed stacks (R462, R463) -/

/-- Every unit of a kind on a stack is in the list. -/
def State.allFailed (s : State) (kind : BitVec 4) (n count : Nat) : Bool :=
  (List.range count).all (fun i => s.unitFailed kind n i)

/-- The defect list makes the stack failed. -/
def State.stackBroken (s : State) (n : Nat) : Bool :=
  s.unitFailed kindAbutment n 0 || s.allFailed kindWalker n 16 || s.allFailed kindDma n 16
    || s.allFailed kindCore n 8
    || [0, 1].any (fun i => s.hbmPresent (2 * n + i) && s.unitFailed kindAccum n i)

/-- The jobs of a stack. -/
def State.stackJobs (s : State) (n : Nat) : List Nat :=
  distinct (((List.range 336).map (s.rawJob n)).filter (fun j => j != 0))

/-- Every descriptor fetched for a stack ends: its engines stand still, and what it has sent is never answered
(log entry 94). -/
def State.endDescs (s : State) (n : Nat) : State :=
  let t := (s.host.descs.filter (fun d => d.stack == n)).foldl (fun u d => u.releaseDesc d) s
  (t.host.descs.filter (fun d => d.stack == n && decide (d.phase = .ending))).foldl (fun u d => u.finishDesc d.handle) t

/-- A stack becomes failed: its jobs are torn down (R471), and it is held in reset until the next reset of the module. -/
def State.failStack (s : State) (n : Nat) : State :=
  let mask := s.fld .CAP_START CAP_START_STACK_FAILED
  let t := (((s.stackJobs n).foldl (fun u j => u.tearJob n j causeStack) s).endDescs n).cycleStack n
  (t.setFld .CAP_START CAP_START_STACK_FAILED (mask ||| 2 ^ n)).modStack n (fun k =>
    { k with up := false, spansOut := [] })

/-! ### Failures after READY (R471) -/

/-- The stack that a notice of a unit names. -/
def noticeStack (u : UnitId) : Nat :=
  if u.kind = kindCombiner ∨ u.kind = kindAtomic then noStack else u.stack

/-- The fabric manager and the host learn of a failed unit. -/
def State.tellUnit (s : State) (stack : Nat) (e : Word) : State :=
  (s.notice 6 stack (le8 e.toNat)).notify HOSTIF_NOTIFY_UNIT_FAILED

/-- The logical bench at a physical bench; none at the bypass (R157). -/
def State.logicalOf (s : State) (n phys : Nat) : Option Nat :=
  let y := phys / 22
  let col := phys % 22
  let b := s.bypass n y
  if col = b then none else some (21 * y + (if col < b then col else col - 1))

/-- A bench fails while it carries a job: the job is torn down (R159). -/
def State.benchLost (s : State) (n phys : Nat) : State :=
  match s.logicalOf n phys with
  | none => s
  | some b => if s.rawJob n b = 0 then s else s.tearJob n (s.rawJob n b) causeBench

/-- The descriptor that a DMA engine carries completes with FAULT (R588). -/
def State.engineLost (s : State) (n engine : Nat) : State :=
  (s.host.descs.filter (fun d => d.stack == n && d.engine == engine + 1)).foldl
    (fun t d => ((t.leaveFaultsDesc d).failDesc d.handle stFault 0).moveDesc moveFuel d.handle) s

/-- The entry that holds a reduction combiner is cleared. -/
def State.combinerLost (s : State) (i : Nat) : State :=
  (s.sw.own.filter (fun t => t.reduction && t.committed && t.combiner == i)).foldl
    (fun t x => t.clearTrestle switchOwner x.entry) s

/-- Table 15-6, but for the failure of the stack. -/
def State.unitLost (s : State) (u : UnitId) : State :=
  if u.kind = kindBench then s.benchLost u.stack u.index
  else if u.kind = kindDma then s.engineLost u.stack u.index
  else if u.kind = kindCore then s.hangCore u.stack u.index
  else if u.kind = kindCombiner then s.combinerLost u.index
  else if u.kind = kindAtomic then s.modSw (fun w => { w with noMerge := true })
  else s

/-- The unit is one that the module has. -/
def State.unitExists (s : State) (u : UnitId) : Bool :=
  let up := s.stackUp u.stack
  if u.kind = kindBench then up && decide (u.index < 352)
  else if u.kind = kindWalker ∨ u.kind = kindDma then up && decide (u.index < 16)
  else if u.kind = kindCore then up && decide (u.index < 8)
  else if u.kind = kindCombiner then decide (u.stack = 0 ∧ u.index < 64)
  else if u.kind = kindAtomic then decide (u.stack = 0 ∧ u.index = 0)
  else if u.kind = kindAbutment then up && decide (u.index = 0)
  else if u.kind = kindAccum then up && decide (u.index < 2) && s.hbmPresent (2 * u.stack + u.index)
  else false

/-- A unit is declared failed. -/
def State.declareFailed (s : State) (u : UnitId) : State :=
  let e := unitEntry u causeLate s.boot.startCount
  let t := ((s.unitLost u).addEntry e).tellUnit (noticeStack u) e
  if u.kind ≠ kindCombiner ∧ u.kind ≠ kindAtomic ∧ t.stackBroken u.stack = true then t.failStack u.stack else t

/-- UNIT_FAILURE: a unit in use after READY. -/
def execUnitFailure (unit : UnitId) (s : State) : Res :=
  whenOk (s.ready && s.unitExists unit && !s.unitFailed unit.kind unit.stack unit.index) s
    (s.declareFailed unit)

/-- SWITCH_FAIL (R472): the fabric manager is notified where it can be; nothing more is promised. -/
def execSwitchFail (s : State) : Res :=
  whenOk s.ready s
    (({ s with boot := { s.boot with alert := true } }.notice 15 noStack []).notify HOSTIF_NOTIFY_SWITCH_FAIL)

/-! ### Rows under repair (13_memory_tiers.md R421, R422) -/

/-- The lines of a row, among some lines of its tier. -/
def State.linesInRow (s : State) (r : RowId) (lines : List Nat) : List Nat :=
  lines.filter (fun l => decide (l * lineSize < s.tierSize r.stack r.far) && rowKey r.stack r.far l == rowIdKey r)

/-- The repair of a row is due: its count of corrected reads has reached the limit (R421), or a line of it was
uncorrectable (log entry 91). -/
def State.rowDue (s : State) (r : RowId) : Bool := (s.stack r.stack).rowsDue.contains (rowIdKey r)

/-- ROW_REPAIR: accesses to the row's bank wait from now on. -/
def execRowRepair (row : RowId) (s : State) : Res :=
  onStack row.stack (whenOk (s.stackUp row.stack && s.rowDue row && !(s.stack row.stack).repairing.contains row) s
    (s.modStack row.stack (fun k =>
      { k with repairing := k.repairing ++ [row], rowsDue := k.rowsDue.erase (rowIdKey row) })))

/-- A line of a repaired row is written back: BLANK during a zero scrub (R425), POISON where it cannot be
corrected, else with its errors corrected (R422). -/
def Stack.writeBack (k : Stack) (far blank : Bool) (bad : List Nat) (line : Nat) : Stack :=
  if blank then
    ((k.setLineErr far line 0).setMark far line markBlank).setTier far
      (Mem.clear (k.tier far) (line * lineSize) (line * lineSize + lineSize))
  else if bad.contains line ∨ correctSymbols < k.lineErr far line then k.poisonLine far line
  else k.setLineErr far line 0

/-- The lines of a row that a write-back can change: those that hold an error, and those among the lines the
command names; every other line is written back as it was (R422). -/
def State.rowLines (s : State) (r : RowId) (lines : List Nat) : List Nat :=
  let k := s.stack r.stack
  s.linesInRow r (lines ++ (if r.far then k.farErr else k.nearErr).map Prod.fst)

/-- MEM_ERROR for a row: the line it names is one of the row's, or a free value when none is known. -/
def State.rowError (s : State) (r : RowId) (lines : List Nat) (kind : Nat) : State :=
  match lines with
  | l :: _ => s.memError r.stack r.far l kind
  | [] =>
    let f := s.takeFree
    let t := f.2.event r.stack evMemError noBench 0
      (memDetail r.far kind (boolNat r.position) r.channel.toNat)
    t.setReg (.MEM_ERR_LOG r.stack) (BitVec.ofNat 64 (2 ^ 63 + boolNat r.far * 2 ^ 62 + kind * 2 ^ 60
      + f.1 % 2 ^ 41 * lineSize))

/-- A row's repair ends: `lines` are some of its lines, the first of which MEM_ERROR names, and `bad` those of
them that could not be corrected. -/
def State.endRepair (s : State) (row : RowId) (lines bad : List Nat) : State :=
  let n := row.stack
  let blank := s.bit (.MEM_STATUS n) MEM_STATUS_ZERO_BUSY
  let t := s.modStack n (fun k =>
    (s.rowLines row lines).foldl (fun x l => x.writeBack row.far blank bad l) { k with repairing := k.repairing.erase row })
  let u := (t.satFld (.MEM_STATUS n) MEM_STATUS_REPAIRS 1).rowError row (s.linesInRow row lines) 2
  u.addEntry (rowEntry row causeRepaired s.boot.startCount)

/-- A write of MEM_CFG: a row whose count a lower limit reaches is repaired too (R421). -/
def State.wrMemCfg (n : Nat) (v live : Word) (s : State) : State :=
  let t := s.plainWrite (.MEM_CFG n) v live
  (s.stack n).rowReads.foldl (fun u p =>
    match s.rowPast n p.1 with
    | [] => u
    | (at_, l) :: past =>
      if t.rowLimit n ≤ past.length + 1 ∧ past.length + 1 < s.rowLimit n then
        u.rowReached n (decide (2 ^ 33 ≤ p.1)) l
      else u) t

/-! ### The end of a row repair (R422) -/

/-- ROW_REPAIR_DONE (R422): the row is written back, and what waits for its bank proceeds. -/
def execRowRepairDone (row : RowId) (lines bad : List Nat) (s : State) : Res :=
  inOrder s <| onStack row.stack (whenOk ((s.stack row.stack).repairing.contains row) s
    ((((((s.endRepair row lines bad).retrySegs row.stack).writeFound s row.stack).pumpAll row.stack).coreResume
      row.stack).debugResume row.stack))

/-! ### Scrubs (R424, R425) -/

/-- Add an index to ascending ranges, joining those that meet. -/
def coverWith (i : Nat) : List (Nat × Nat) → List (Nat × Nat)
  | [] => [(i, i + 1)]
  | (lo, hi) :: t =>
    if i + 1 < lo then (i, i + 1) :: (lo, hi) :: t
    else if i + 1 = lo then (i, hi) :: t
    else if i < hi then (lo, hi) :: t
    else if i = hi then
      match t with
      | (lo2, hi2) :: u => if i + 1 = lo2 then (lo, hi2) :: u else (lo, i + 1) :: t
      | [] => [(lo, i + 1)]
    else (lo, hi) :: coverWith i t

/-- The ranges hold every line of a tier of some size. -/
def coversAll (size : Nat) (l : List (Nat × Nat)) : Bool := decide (size = 0) || decide (l = [(0, size / lineSize)])

/-- The patrol's pass has read one more line. -/
def Stack.patrolled (k : Stack) (far : Bool) (line : Nat) : Stack :=
  if far then { k with patrolFar := coverWith line k.patrolFar } else { k with patrolNear := coverWith line k.patrolNear }

/-- 16-bit symbols of a line have become wrong (R419). -/
def Stack.goesWrong (k : Stack) (far : Bool) (line wrong : Nat) : Stack :=
  k.setLineErr far line (k.lineErr far line + wrong)

/-- The present pass has read every line of both tiers. -/
def State.patrolDone (s : State) (n : Nat) : Bool :=
  coversAll (s.nearSize n) (s.stack n).patrolNear && coversAll (s.farSize n) (s.stack n).patrolFar

/-- SCRUB_PERIOD, in ticks: the field gives hours. -/
def State.patrolPeriod (s : State) (n : Nat) : Nat :=
  s.fld (.MEM_CFG n) MEM_CFG_SCRUB_PERIOD * 3600000 * ticksPerMs

/-- A pass that has read every line is complete, and the next begins once the period of this one is over (R424; DEDUCED,
log entry 229). -/
def State.patrolPass (s : State) (n : Nat) : State :=
  let r : Reg := .MEM_STATUS n
  if s.patrolDone n then
    (s.setFld r MEM_STATUS_PATROL_PASSES (s.fld r MEM_STATUS_PATROL_PASSES + 1)).modStack n (fun k =>
      { k with patrolNear := [], patrolFar := [], patrolFrom := Nat.max s.now (k.patrolFrom + s.patrolPeriod n) })
  else s

/-- The patrol reads the line now: its pass has begun and has not read it (R424). -/
def State.patrolDue (s : State) (n : Nat) (far : Bool) (line : Nat) : Bool :=
  let k := s.stack n
  decide (k.patrolFrom ≤ s.now) && !(if far then k.patrolFar else k.patrolNear).any (fun r =>
    decide (r.1 ≤ line) && decide (line < r.2))

/-- PATROL_SCRUB: the patrol reads a line of an idle bank, of which `wrong` symbols more have become wrong. -/
def execPatrolScrub (stack : Nat) (far : Bool) (line wrong : Nat) (s : State) : Res :=
  onStack stack (whenOk (s.stackUp stack && s.fld (.MEM_CFG stack) MEM_CFG_SCRUB_PERIOD != 0
      && s.patrolDue stack far line && decide (line * lineSize < s.tierSize stack far) && !s.lineBusy stack far line) s
    (((s.modStack stack (fun k => (k.patrolled far line).goesWrong far line wrong)).sense stack far line).patrolPass stack))

/-- Every line of both tiers reads as zero, marked BLANK. -/
def Stack.blankTiers (k : Stack) : Stack :=
  { k with near := [], far := [], nearMark := [], farMark := [], nearErr := [], farErr := [] }

/-- ZERO_SCRUB_DONE. The engines' writes wait for a bank under repair, as every access to it does. -/
def execZeroScrubDone (stack : Nat) (s : State) : Res :=
  onStack stack (whenOk (s.bit (.MEM_STATUS stack) MEM_STATUS_ZERO_BUSY && (s.stack stack).repairing.isEmpty) s
    ((s.modStack stack Stack.blankTiers).setBit (.MEM_STATUS stack) MEM_STATUS_ZERO_BUSY false))

end Sys2Proof.Machine
end

