-- ==== Sys2Proof/Machine/Power.lean ====
section
/-! DEFINITION. Power: the power limit, caps, ramps and the lease, the evaluation every 64 beats, SHED,
SAG, emergency off and the thermal trip (16_power.md R474 to R490; 02_rack_beat.md R45;
20_module_connector.md R566, R569 to R572). Voltages are in units of 10 mV, as PWR_STATUS.INPUT counts
them. -/

namespace Sys2Proof.Machine

/-! ### The power limit (R476, R478) -/

/-- The module TDP in watts (00_scope.md Table 00-1). -/
def tdp : Variant → Nat
  | .x => 4800
  | .d => 4400
  | .l => 2400

def State.pwr (s : State) (f : Field) : Nat := s.fld .PWR_LIMITS f
def State.shed (s : State) : Bool := s.bit .PWR_STATUS PWR_STATUS_SHED
def State.sag (s : State) : Bool := s.bit .PWR_STATUS PWR_STATUS_SAG
def State.leaseLost (s : State) : Bool := s.bit .PWR_STATUS PWR_STATUS_LEASE_LOST

/-- The last cap to take effect; the TDP before the first. -/
def State.presentCap (s : State) : Nat := s.power.cap.getD (tdp s.variant)

/-- The least figure in force, between FLOOR and the TDP (Table 16-2). -/
def State.powerLimit (s : State) : Nat :=
  let cap := s.presentCap
  let safe := if s.power.safe then Nat.min cap (s.pwr PWR_LIMITS_SAFE_CAP) else cap
  let low := if s.shed || s.sag then Nat.min safe (s.pwr PWR_LIMITS_SHED_LEVEL) else safe
  Nat.max (s.pwr PWR_LIMITS_FLOOR) (Nat.min low (tdp s.variant))

/-- What the ramp allows in one window of 64 beats, in milliwatts (R479). -/
def State.rampStep (s : State) : Nat := 64 * s.pwr PWR_LIMITS_RAMP

/-- Count a ramp violation or a ballast short, and notify the fabric manager of it (R478, R482). -/
def State.powerViolation (s : State) (seen : Field) (code : Nat) : State :=
  ((s.setBit .PWR_EVENTS seen true).satFld .PWR_EVENTS PWR_EVENTS_VIOLATIONS 1).notice 13 noStack (le1 code)

/-- The limit in force after a change. A fall is steeper than the ramp limit when the limit now stands below the highest
that it has had in the present window of 64 beats by more than the ramp allows in one; what SHED_N or SAG alone has caused
is left out (R478; DESIGN CHOICE, log entry 222). A fall that waits to be kept stands until the power is at or below it or
the limit has risen again. -/
def State.relimit (s : State) (exempt : Bool) : State :=
  let was := s.power.lastLimit
  let now_ := s.powerLimit
  let base := Nat.max now_ (if exempt then s.power.slopeFrom + now_ - was else s.power.slopeFrom)
  let falls := s.power.falls.filter (fun f => decide (now_ ≤ f.2)) ++ (if now_ < was then [(s.now, now_)] else [])
  let t := ({ s with
    power :=
      { s.power with
        lastLimit := now_, peak := Nat.max s.power.peak now_, slopeFrom := base, falls := falls } }).setFld
      .PWR_STATUS PWR_STATUS_LIMIT now_
  let steep := !exempt && s.pwr PWR_LIMITS_RAMP != 0 && decide (now_ < was)
    && decide (s.rampStep < 1000 * (base - now_))
  (if steep then t.powerViolation PWR_EVENTS_RAMP_VIOLATION_SEEN 6 else t).noteThrottle

/-! ### Loss of power (R474, R475, R487; 20_module_connector.md R563) -/

def offUndervoltage : Nat := 1
def offEpo : Nat := 2
def offTrip : Nat := 3

/-- The power stages open, or the module is held in reset: every register, memory and queue is lost but
LAST_OFF, what flash holds, the pins, and what is not the module's own. -/
def State.powerOff (s : State) (lastOff : Nat) : State :=
  { State.reset with
    now := s.now
    variant := s.variant
    regs := [(.PWR_EVENTS, setF 0 PWR_EVENTS_LAST_OFF lastOff)]
    boot :=
      { State.reset.boot with
        epoHigh := s.boot.epoHigh
        shedHigh := s.boot.shedHigh
        trstHigh := s.boot.trstHigh
        tripped := s.boot.tripped
        alert := s.boot.tripped
        defects := s.boot.defects
        secondCopy := s.boot.secondCopy
        startCount := s.boot.startCount
        revCompute := s.boot.revCompute
        revSwitch := s.boot.revSwitch
        imageBad := s.boot.imageBad
        flashImage := s.boot.flashImage }
    hostMem := s.hostMem
    out := s.out
    free := s.free
    nextId := s.nextId
    pending := s.pending }

/-- A low pulse of some length on a pin counts: it does from `least` on and not below `glitch`; between
them it is free (R566). The answer, and the state after it. -/
def State.pulse (s : State) (us glitch least : Nat) : Bool × State :=
  if least ≤ us then (true, s)
  else if us < glitch then (false, s)
  else
    let f := s.takeFree
    (f.1 % 2 == 1, f.2)

/-- EPO: a low pulse of `us` microseconds on EPO_N. -/
def execEpo (us : Nat) (s : State) : Res :=
  let p := s.pulse us 2 10
  let t : State := { p.2 with boot := { p.2.boot with epoHigh := false } }
  .next (if p.1 then (if s.boot.powered then t.powerOff offEpo else t) else p.2)

/-- EPO_RELEASE: a thermal trip ends with it. -/
def execEpoRelease (s : State) : Res :=
  .next (if s.boot.epoHigh then s
    else { s with
      boot := { s.boot with epoHigh := true, tripped := false, alert := s.boot.alert && !s.boot.tripped } })

/-- UNDERVOLTAGE_RESET: below 36.0 V for 5 µs. At 20 V or below LAST_OFF is lost as well. -/
def execUndervoltageReset (volts us : Nat) (s : State) : Res :=
  let t : State := { s with boot := { s.boot with tripped := false, alert := s.boot.alert && !s.boot.tripped } }
  let last := if volts ≤ 2000 then 0
    else if s.boot.powered then offUndervoltage else s.fld .PWR_EVENTS PWR_EVENTS_LAST_OFF
  whenOk (decide (volts < 3600) && decide (5 ≤ us)) s (t.powerOff last)

/-- THERMAL_TRIP: a junction at 110 °C or above. -/
def execThermalTrip (celsius : Nat) (s : State) : Res :=
  whenOk (s.boot.powered && decide (110 ≤ celsius)) s
    ({ s with boot := { s.boot with tripped := true } }.powerOff offTrip)

/-! ### SHED and SAG (R474, R476, R488) -/

def powerCapChanged : Nat := 1
def powerShedOn : Nat := 2
def powerShedOff : Nat := 3
def powerSagOn : Nat := 4
def powerSagOff : Nat := 5

/-- Post a POWER event to every present stack (R489). -/
def State.powerEvent (s : State) (code : Nat) : State := s.eventAll evPower code

/-- SHED_ASSERT: SHED_N has been low for `us` microseconds. -/
def execShedAssert (us : Nat) (s : State) : Res :=
  let p := s.pulse us 1 5
  let t : State := { p.2 with boot := { p.2.boot with shedHigh := false } }
  .next (if p.1 && s.boot.shedHigh then
    (if s.boot.powered then
      ((((t.setBit .PWR_STATUS PWR_STATUS_SHED true).setBit .PWR_EVENTS PWR_EVENTS_SHED_SEEN true).relimit
        true).powerEvent powerShedOn)
     else t)
    else p.2)

/-- SHED_RELEASE. -/
def execShedRelease (s : State) : Res :=
  let t : State := { s with boot := { s.boot with shedHigh := true } }
  .next (if s.boot.shedHigh then s
    else if s.boot.powered then
      ((t.setBit .PWR_STATUS PWR_STATUS_SHED false).relimit true).powerEvent powerShedOff
    else t)

/-- SAG_SET: below 39.0 V for 20 µs. -/
def execSagSet (volts us : Nat) (s : State) : Res :=
  whenOk (s.boot.powered && !s.sag && decide (volts < 3900) && decide (20 ≤ us)) s
    ((((s.setBit .PWR_STATUS PWR_STATUS_SAG true).setBit .PWR_EVENTS PWR_EVENTS_SAG_SEEN true).relimit
      true).powerEvent powerSagOn)

/-- SAG_CLEAR: above 40.0 V for 1 ms. -/
def execSagClear (volts us : Nat) (s : State) : Res :=
  whenOk (s.boot.powered && s.sag && decide (4000 < volts) && decide (1000 ≤ us)) s
    (((s.setBit .PWR_STATUS PWR_STATUS_SAG false).relimit true).powerEvent powerSagOff)

/-! ### Caps and ramp steps (R483, R484; 02_rack_beat.md R45) -/

/-- R45 governs: caps fall at once, and everything else waits. -/
def State.capsHeld (s : State) : Bool := s.lostOver || s.mismatch

/-- A cap or a ramp step takes effect. A cap ends the safe cap unless the lease has lapsed (R485). -/
def State.applyHeld (s : State) (h : Held) : State :=
  if h.isCap then
    let t := { s with power := { s.power with cap := some h.value, safe := s.power.safe && s.leaseLost } }
    let u := t.relimit false
    if h.value = s.presentCap then u else u.powerEvent powerCapChanged
  else s.setFld .PWR_LIMITS PWR_LIMITS_RAMP (Nat.min 1000 h.value)

def State.dropHeld (s : State) (order : Nat) : State :=
  { s with power := { s.power with held := s.power.held.filter (fun h => h.order != order) } }

/-- A later message of the kind names the same beat: this one takes no effect (R483). -/
def State.overtaken (s : State) (h : Held) : Bool :=
  s.power.held.any (fun x => x.isCap == h.isCap && x.beat == h.beat && decide (h.order < x.order))

/-- One held message takes effect, or gives way to a later one. -/
def State.releaseHeld (s : State) (h : Held) : State :=
  if s.overtaken h then s.dropHeld h.order else (s.dropHeld h.order).applyHeld h

def heldDue (h : Held) : Due := (h.beat, 3, h.order)

/-- The held message whose turn it is among those whose beat has passed. -/
def State.dueHeld (s : State) : Option Held :=
  s.power.held.find? (fun h => s.reached h.beat
    && !s.power.held.any (fun x => s.reached x.beat && s.dueBefore (heldDue x) (heldDue h)))

/-- What takes effect at once: while R45 governs, a cap below the present one; otherwise every message
whose beat has passed. -/
def State.govern : Nat → State → State
  | 0, s => s
  | f + 1, s =>
    if s.capsHeld then
      match s.power.held.find? (fun h => h.isCap && decide (h.value < s.presentCap)) with
      | some h => State.govern f ((s.dropHeld h.order).applyHeld h)
      | none => s
    else
      match s.dueHeld with
      | some h => State.govern f (s.releaseHeld h)
      | none => s

def heldMax : Nat := 16

/-- Let every message that may take effect now do so. -/
def State.governAll (s : State) : State := s.govern (heldMax + 1)

/-- The message with an order of acceptance takes effect at its beat, in the place of R39. -/
def State.takeHeld (s : State) (order : Nat) (isCap : Bool) : State :=
  match s.power.held.find? (fun h => h.order == order && h.isCap == isCap) with
  | none => s
  | some h =>
    if s.capsHeld then
      (if isCap = true ∧ h.value < s.presentCap then (s.dropHeld order).applyHeld h else s)
    else if s.myTurn (heldDue h) then s.releaseHeld h else s

/-- CAP_TAKES_EFFECT. -/
def execCapTakesEffect (order : Nat) (s : State) : Res := .next (s.takeHeld order true)

/-- RAMP_TAKES_EFFECT. -/
def execRampTakesEffect (order : Nat) (s : State) : Res := .next (s.takeHeld order false)

/-! ### Messages of the tray controller (20_module_connector.md R569 to R572) -/

def resultLength : Nat := 1
def resultCode : Nat := 2
def resultRange : Nat := 3
def resultParity : Nat := 4

/-- Record the result of a private write. -/
def State.i3cEnd (s : State) (code result : Nat) : State :=
  { s with boot := { s.boot with i3cResult := BitVec.ofNat 8 result, i3cCode := BitVec.ofNat 8 code } }

/-- The static address: 0x30 + SLOT_ID[0] (R569). -/
def State.i3cStatic (s : State) : BitVec 7 := 0x30#7 + BitVec.ofNat 7 (s.boot.slot.toNat % 2)

/-- A transfer to an address is one to this target: to its static address, or to the dynamic one that it has been given
(R569; DEDUCED, log entry 247). -/
def State.i3cAnswers (s : State) (dest : BitVec 7) : Bool :=
  s.boot.i3cOn && (dest == s.i3cStatic || s.boot.i3cDyn == some dest)

/-- A private write to an address is not acknowledged: the target does not answer there, or it holds 16 messages. -/
def State.i3cRefuses (s : State) (dest : BitVec 7) : Bool :=
  !s.i3cAnswers dest || decide (heldMax ≤ s.power.held.length)

/-- A private write: it is acknowledged, and accepted as `f` or discarded with its result. Where two
results apply, which is recorded is free. -/
def State.i3cWrite (s : State) (dest : BitVec 7) (code len : Nat) (body : List Byte) (parityErr outOfRange : Bool)
    (f : State → State) : State :=
  if s.i3cRefuses dest then s.emit .i3cNack
  else
    let t := s.emit .i3cAck
    let faults := (if body.length = len then [] else [resultLength])
      ++ (if body.length = len ∧ outOfRange = true then [resultRange] else [])
      ++ (if parityErr then [resultParity] else [])
    match faults with
    | [] => f (t.i3cEnd code 0)
    | [r] => t.i3cEnd code r
    | _ =>
      let x := t.takeFree
      x.2.i3cEnd code (nth 0 faults (x.1 % faults.length))

/-- A message refreshes the lease; the safe cap stays in force until a CAP_AT takes effect (R485). -/
def State.refreshLease (s : State) : State :=
  ({ s with power := { s.power with leaseAt := s.now } }).setBit .PWR_STATUS PWR_STATUS_LEASE_LOST false

/-- Hold a cap or a ramp step, and let it take effect at once where it may. -/
def State.hold (s : State) (isCap : Bool) (value : Nat) (beat : BitVec 48) : State :=
  let h : Held := { isCap := isCap, value := value, beat := beat, order := s.host.nextOrder }
  let t : State :=
    { s with
      power := { s.power with held := s.power.held ++ [h] }
      host := { s.host with nextOrder := s.host.nextOrder + 1 } }
  if t.capsHeld then t.governAll else if t.reached beat then t.releaseHeld h else t

/-- The body of CAP_AT and RAMP_AT: a figure and a beat. -/
def State.holdBody (s : State) (isCap : Bool) (body : List Byte) : State :=
  s.refreshLease.hold isCap (leNat (body.take 2)) (BitVec.ofNat 48 (leNat (body.drop 2)))

/-- CAP_AT. -/
def execCapAt (msg : I3cWrite) (parityErr : Bool) (s : State) : Res :=
  .next (s.i3cWrite msg.dest 0x30 8 msg.body parityErr false (fun t => t.holdBody true msg.body))

/-- RAMP_AT. -/
def execRampAt (msg : I3cWrite) (parityErr : Bool) (s : State) : Res :=
  .next (s.i3cWrite msg.dest 0x31 8 msg.body parityErr false (fun t => t.holdBody false msg.body))

/-- LEASE. -/
def execLease (msg : I3cWrite) (parityErr : Bool) (s : State) : Res :=
  .next (s.i3cWrite msg.dest 0x32 0 msg.body parityErr false State.refreshLease)

/-- LEASE_LAPSE: no message has refreshed the lease for 2 s. -/
def execLeaseLapse (s : State) : Res :=
  whenOk (s.boot.powered && !s.leaseLost && decide (s.power.leaseAt + 2000 * ticksPerMs ≤ s.now)) s
    (({ s with power := { s.power with safe := true } }.setBit .PWR_STATUS PWR_STATUS_LEASE_LOST true).setBit
      .PWR_EVENTS PWR_EVENTS_LEASE_LOST_SEEN true |>.relimit false)

/-- A code that Table 20-5 lists. -/
def knownMessage (code : Byte) : Bool := decide (0x30 ≤ code.toNat) && decide (code.toNat ≤ 0x34)

/-- UNKNOWN_SIDEBAND_MESSAGE: a private write whose code Table 20-5 does not list. -/
def execUnknownSidebandMessage (code : Byte) (msg : I3cWrite) (parityErr : Bool) (s : State) : Res :=
  let t := s.emit .i3cAck
  let f := t.takeFree
  whenOk (!knownMessage code) s
    (if s.i3cRefuses msg.dest then s.emit .i3cNack
     else if parityErr then f.2.i3cEnd code.toNat (if f.1 % 2 = 0 then resultCode else resultParity)
     else t.i3cEnd code.toNat resultCode)

/-- The flags of the status read (R572). -/
def State.i3cFlags (s : State) : Nat :=
  boolBit s.ready 0 + boolBit (s.bit .CAP_POSITION CAP_POSITION_RACK_VALID) 1
    + boolBit (s.bit .BEAT_STATUS BEAT_STATUS_LOCKED) 2 + boolBit s.leaseLost 3 + boolBit s.sag 4
    + boolBit s.shed 5

/-- The eight bytes of a status read. -/
def State.i3cStatus (s : State) : List Byte :=
  [s.boot.i3cResult, s.boot.i3cCode] ++ le1 s.i3cFlags ++ le1 s.power.held.length
    ++ le2 (s.fld .PWR_STATUS PWR_STATUS_POWER) ++ le2 (s.fld .PWR_STATUS PWR_STATUS_LIMIT)

/-- STATUS_READ: a private read that names this module at an address which it answers (log entry 247). -/
def execStatusRead (s : State) : Res :=
  .next (if s.boot.i3cOn then s.emit (.i3cData s.i3cStatus) else s.emit .i3cNack)

/-- I3C_CCC (R569): ENTDAA and SETDASA give a dynamic address to a target that has none, SETDASA to the one whose static
address it names, and GETSTATUS asks the target that it addresses. The bytes that GETSTATUS returns are free. -/
def execI3cCcc (ccc : I3cCcc) (s : State) : Res :=
  let addr (a : Option (BitVec 7)) : State := { s with boot := { s.boot with i3cDyn := a } }
  .next (if !s.boot.i3cOn then s.emit .i3cNack
    else match ccc with
      | .entdaa a => if s.boot.i3cDyn.isNone then (addr (some a)).emit .i3cAck else s.emit .i3cNack
      | .setdasa dest a =>
        if s.boot.i3cDyn.isNone && dest == s.i3cStatic then (addr (some a)).emit .i3cAck else s.emit .i3cNack
      | .rstdaa => (addr none).emit .i3cAck
      | .getstatus dest =>
        let f := s.takeFree
        if s.i3cAnswers dest then f.2.emit (.i3cData (le2 f.1)) else s.emit .i3cNack
      | .other _ => s.emit .i3cNack)

/-! ### The evaluation every 64 beats (R477 to R482, R486, R489) -/

/-- The bounds of the next window, in milliwatts: lower and upper (R479). -/
def State.powerBounds (s : State) (p : Nat) : Nat × Nat :=
  let limit := 1000 * s.powerLimit
  if s.pwr PWR_LIMITS_RAMP = 0 then (0, limit)
  else (Nat.min limit (p - s.rampStep), Nat.min limit (p + s.rampStep))

/-- THERMAL_STEP of a stack after an evaluation (R486). -/
def thermalNext (step temp : Nat) : Nat :=
  if 95 ≤ temp then Nat.max 16 (step - 4) else if temp ≤ 90 then Nat.min 64 (step + 4) else step

/-- THERMAL_STEP of every present stack, and the bits that report it. -/
def State.thermal (s : State) (temps : List Nat) : State :=
  let t := s.presentStacks.foldl (fun (u : State) n =>
    let v := u.setFld (.PWR_STEP n) PWR_STEP_THERMAL_STEP
      (thermalNext (u.fld (.PWR_STEP n) PWR_STEP_THERMAL_STEP) (nth 0 temps n))
    if 95 ≤ nth 0 temps n then v.setBit .PWR_EVENTS PWR_EVENTS_THERMAL_SEEN true else v) s
  { t with power := { t.power with temp := s.presentStacks.map (fun n => (n, nth 0 temps n)) } }.setBit
    .PWR_STATUS PWR_STATUS_THERMAL
    (s.presentStacks.any (fun n => decide (t.fld (.PWR_STEP n) PWR_STEP_THERMAL_STEP < 64)))

/-- The highest of the steps 16 to 63 at which the power of the running work stays within a bound; 16 when none does
(R480). -/
def highestStep (stepMw : List Nat) (upper : Nat) : Nat :=
  16 + ((List.range 48).filter (fun i => decide (nth 0 stepMw i ≤ upper))).foldl Nat.max 0

/-- CAP_STEP of every present stack (R480): 64 while the demand is within the upper bound. -/
def State.capSteps (s : State) (demand upper : Nat) (stepMw : List Nat) : State :=
  let new := if upper < demand then highestStep stepMw upper else 64
  (s.presentStacks.foldl (fun u n => u.setFld (.PWR_STEP n) PWR_STEP_CAP_STEP new) s).setBit .PWR_STATUS
    PWR_STATUS_CAPPING (decide (new < 64))

/-- Ballast may run on a bench: it has a physical bench, all its contexts are IDLE or HALTED, and its stack is under no
thermal throttle (R481). -/
def State.mayBallast (s : State) (n b : Nat) : Bool :=
  s.stackUp n && !s.vacant n b && decide (64 ≤ s.fld (.PWR_STEP n) PWR_STEP_THERMAL_STEP)
    && (List.range 8).all (fun c => ((s.bench n b).ctx c).st == .idle || ((s.bench n b).ctx c).st == .halted)

/-- The first benches of a list that together add some power and no more than some other; none where none do. -/
def ballastWithin : List BallastBench → Nat → Nat → Option (List BallastBench)
  | _, 0, _ => some []
  | [], _ + 1, _ => none
  | x :: l, need + 1, most =>
    if x.mw ≤ most then
      ((ballastWithin l (need + 1 - x.mw) (most - x.mw)).map (fun r => x :: r)).or (ballastWithin l (need + 1) most)
    else ballastWithin l (need + 1) most

/-- Each bench of a list in turn that leaves the power within some bound. -/
def ballastUpTo : List BallastBench → Nat → List BallastBench
  | [], _ => []
  | x :: l, most => if x.mw ≤ most then x :: ballastUpTo l (most - x.mw) else ballastUpTo l most

/-- The benches that add at least `need` and at most `most`; where none do, those that come closest from below in turn
(R481, R482; DESIGN CHOICE, log entry 223). -/
def ballastFor (need most : Nat) (l : List BallastBench) : List BallastBench :=
  (ballastWithin l need most).getD (ballastUpTo l most)

/-- Ballast: it runs where the demand falls below the lower bound, on eligible benches that bring the power up to it and
not above the upper one, and is short where all of them cannot (R480 to R482). -/
def State.runBallast (s : State) (demand lower upper : Nat) (benches : List BallastBench) : State :=
  let may := benches.filter (fun x => s.mayBallast x.stack x.bench)
  let run := if demand < lower then ballastFor (lower - demand) (upper - demand) may else []
  let t := s.presentStacks.foldl (fun (u : State) n =>
    u.modStack n (fun k => { k with ballast := (run.filter (fun x => x.stack == n)).map (·.bench) })) s
  let u := t.setBit .PWR_STATUS PWR_STATUS_BALLAST (!run.isEmpty)
  if demand + sumNat (may.map (·.mw)) < lower then u.powerViolation PWR_EVENTS_BALLAST_SHORT_SEEN 7 else u

/-- The average power of a window that has ended, in milliwatts: at most the limit in force during it, plus 2 % (R477),
and at or below a limit that has fallen where no window ends after this one within 200 µs of the fall (R478). -/
def State.powerHeld (s : State) (powerMw : Nat) : Bool :=
  decide (powerMw ≤ 1020 * s.power.peak)
    && s.power.falls.all (fun f =>
      decide (s.now + 64 * ticksPerBeat ≤ f.1 + 200 * ticksPerUs) || decide (powerMw ≤ 1000 * f.2))

/-- POWER_EVALUATION, at a beat that is a multiple of 64. A window whose average power R477 or R478 rules out does not
end. -/
def execPowerEvaluation (powerMw demandMw : Nat) (ballast : List BallastBench) (input : Nat) (temps stepMw : List Nat)
    (s : State) : Res :=
  let b := s.powerBounds powerMw
  let t := (s.setFld .PWR_STATUS PWR_STATUS_POWER (powerMw / 1000)).setFld .PWR_STATUS PWR_STATUS_INPUT input
  let bound : State :=
    { t with
      power :=
        { t.power with
          lower := b.1
          upper := b.2
          demand := demandMw
          peak := s.powerLimit
          slopeFrom := s.powerLimit
          falls := s.power.falls.filter (fun f => decide (1000 * f.2 < powerMw)) } }
  whenOk (s.boot.powered && decide (s.beatNow.toNat % 64 = 0) && s.powerHeld powerMw) s
    (((bound.thermal temps).capSteps demandMw b.2 stepMw).runBallast demandMw b.1 b.2 ballast).noteThrottle

end Sys2Proof.Machine
end

