-- ==== Sys2Proof/Machine/Startup.lean ====
section
/-! DEFINITION. Start-up: the steps of Table 15-1, firmware recovery, the merge of the defect list, the
training of the tiers, and the rack number (15_startup_and_defects.md R452 to R470; 13_memory_tiers.md
R423; 01_module_overview.md R17 to R20; 20_module_connector.md R568, R573). -/

namespace Sys2Proof.Machine

/-! ### CAP_START -/

def State.stepNo (s : State) : Nat := s.fld .CAP_START CAP_START_STEP
def State.startCause (s : State) : Nat := s.fld .CAP_START CAP_START_CAUSE
def State.halted (s : State) : Bool := s.bit .CAP_START CAP_START_HALTED

def State.toStep (s : State) (k : Nat) : State := s.setFld .CAP_START CAP_START_STEP k
def State.setCause (s : State) (c : Nat) : State := s.setFld .CAP_START CAP_START_CAUSE c

/-- Start-up halts with a cause. -/
def State.halt (s : State) (c : Nat) : State := (s.setCause c).setBit .CAP_START CAP_START_HALTED true

/-- Step `k` of Table 15-1 is under way. -/
def State.inStep (s : State) (k : Nat) : Bool := s.boot.powered && s.stepNo == k && !s.halted

def causeDescriptor : Nat := 1
def causeKeys : Nat := 2
def causeFirmware : Nat := 3
def causeRejected : Nat := 4
def causeLists : Nat := 5
def causeSwitch : Nat := 6
def causeStraps : Nat := 7
def causeRack : Nat := 8
def causeLock : Nat := 9

/-! ### Power good and the boot ROM: steps 1 and 2 (R452 to R458) -/

/-- POWER_GOOD: the straps are sampled, and the module runs its sequence from step 1 into step 2. A module
held off by EPO_N or a thermal trip does not start. -/
def execPowerGood (volts ms : Nat) (tray : BitVec 5) (slot : BitVec 3) (s : State) : Res :=
  let t : State :=
    { s with
      boot :=
        { s.boot with
          powered := true, tray := tray, slot := slot, i3cOn := true
          startCount := if s.boot.startCount = 0xFFFF then 0xFFFF else s.boot.startCount + 1 }
      power := { s.power with leaseAt := s.now }
      beat := { s.beat with lastEdge := s.now } }
  let u := ((t.setFld .CAP_POSITION CAP_POSITION_TRAY_ID tray.toNat).setFld .CAP_POSITION
    CAP_POSITION_SLOT_ID slot.toNat).toStep 2
  let v := if s.boot.shedHigh then u
    else (u.setBit .PWR_STATUS PWR_STATUS_SHED true).setBit .PWR_EVENTS PWR_EVENTS_SHED_SEEN true
  whenOk (!s.boot.powered && s.boot.epoHigh && !s.boot.tripped && decide (4000 < volts) && decide (10 ≤ ms)) s
    ({ v with
      power := { v.power with lastLimit := v.powerLimit, peak := v.powerLimit, slopeFrom := v.powerLimit } }.setFld .PWR_STATUS PWR_STATUS_LIMIT
      v.powerLimit)

/-- The host link stands: four modules at 32 GT/s, with CXL.io, CXL.cache and CXL.mem
(01_module_overview.md). -/
def hostLinkUp : Word := BitVec.ofNat 64 (15 * 2 ^ 48 + 32 * 2 ^ 32 + 7)

/-- CAP_UNITS and VARIANT when the descriptor has not been verified: they are not promised (R5, R455). -/
def State.unpromised (s : State) : State :=
  let f := s.takeFree
  let g := f.2.takeFree
  (g.2.setReg .CAP_UNITS (BitVec.ofNat 64 f.1)).setFld .CAP_ID CAP_ID_VARIANT g.1

/-- BAR0 answers from now on. -/
def State.openBar (s : State) (descriptorOk : Bool) : State :=
  { s with boot := { s.boot with bar0 := true, descriptorOk := descriptorOk } }.setReg .HOSTIF_LINK hostLinkUp

/-- The firmware starts. -/
def State.startFirmware (s : State) (digest : List Byte) : State :=
  ({ s with keeper := { s.keeper with fwDigest := digest } }.setCause 0).toStep 3

/-- The digest of the image in flash (R457): `made` is that of the image it was made with. -/
def State.imageDigest (s : State) (made : List Byte) : List Byte :=
  match s.boot.flashImage with
  | some image => Config.sha512 image
  | none => made

/-- The check of the firmware image: it verifies only if flash holds it. -/
def State.checkImageInFlash (s : State) (firmwareOk : Bool) (fwDigest : List Byte) : State :=
  if !firmwareOk || s.boot.imageBad then s.setCause causeFirmware else s.startFirmware (s.imageDigest fwDigest)

/-- KEEPER_BOOT: the keys and the module descriptor have been checked, and BAR0 answers, with STEP 2 (R455); given again,
the firmware image has been checked (DESIGN CHOICE, log entry 228). -/
def execKeeperBoot (keysOk descriptorOk firmwareOk : Bool) (fwDigest : List Byte) (s : State) : Res :=
  whenOk (s.inStep 2 && (!s.boot.bar0 || s.startCause == 0)) s
    (if s.boot.bar0 then s.checkImageInFlash firmwareOk fwDigest
     else if !keysOk then (s.openBar false).unpromised.halt causeKeys
     else if !descriptorOk then (s.openBar false).unpromised.halt causeDescriptor
     else s.openBar true)

/-- The boot ROM waits for a recovery image. -/
def State.awaitsImage (s : State) : Bool :=
  s.inStep 2 && (s.startCause == causeFirmware || s.startCause == causeRejected)

/-- A write of CAP_RECOVERY: with GO it has the image fetched, or is ignored and counted (R458). -/
def State.wrRecovery (v live : Word) (s : State) : State :=
  let t := s.plainWrite .CAP_RECOVERY v live
  if writesOne v live CAP_RECOVERY_GO then
    if s.awaitsImage then { t with boot := { t.boot with recovering := true } } else s.countAt .CAP_RECOVERY
  else t

/-- CAP_RECOVERY_GO: a write of CAP_RECOVERY; `value` carries GO. -/
def execCapRecoveryGo (who : Requester) (value : Word) (s : State) : Res :=
  .next (s.onWord who .CAP_RECOVERY (State.wrRecovery value wholeWrite))

/-- 4 KiB to 16 MiB. -/
def imageSizeOk (size : Nat) : Bool := decide (4096 ≤ size) && decide (size ≤ 16777216)

/-- The image is written to flash in place of the failed one, or the write fails and flash holds none that verifies
(R457). -/
def State.writeFlash (s : State) (image : List Byte) (ok : Bool) : State :=
  { s with boot := { s.boot with imageBad := !ok, flashImage := if ok then some image else s.boot.flashImage } }

/-- RECOVERY_IMAGE_CHECK: the image at ADDR, of the size its header gives. An image whose write to flash
fails still runs, and the next start-up recovers again (R457). -/
def execRecoveryImageCheck (size : Nat) (signatureOk flashOk : Bool) (s : State) : Res :=
  let image := s.hostRead (4096 * s.fld .CAP_RECOVERY CAP_RECOVERY_ADDR) size
  let t : State := { s with boot := { s.boot with recovering := false } }
  whenOk (s.awaitsImage && s.boot.recovering) s
    (if signatureOk && imageSizeOk size then
      ((t.writeFlash image flashOk).setBit .CAP_START CAP_START_RECOVERED true).startFirmware (Config.sha512 image)
     else t.setCause causeRejected)

/-! ### Steps 3 and 4: stacks and known-answer tests (R459, R460) -/

/-- STACKS_OUT_OF_RESET. -/
def execStacksOutOfReset (s : State) : Res :=
  whenOk (s.inStep 3) s
    ((s.presentStacks.foldl (fun t n => t.modStack n (fun k => { k with up := true })) s).toStep 4)

/-- Drawers, program stores, accumulator tiles and runtime SRAM of a stack read as zero. -/
def Stack.zeroed (k : Stack) : Stack :=
  { k with
    drawer := [], drawerBad := [], drawerSoft := [], sram := []
    benches := k.benches.map (fun p =>
      (p.1, { p.2 with prog := [], bundles := 0, ctxs := p.2.ctxs.map (fun q => (q.1, { q.2 with tile := [] })) })) }

/-- The units that step 4 tests; the accumulate units are tested in step 6. -/
def testedEarly (u : UnitId) : Bool := u.kind != kindAccum

/-- KNOWN_ANSWER_TESTS_DONE. -/
def execKnownAnswerTestsDone (failed : List UnitId) (switchFailed : Bool) (s : State) : Res :=
  let t := s.presentStacks.foldl (fun t n => t.modStack n Stack.zeroed) s
  whenOk (s.inStep 4) s
    (if switchFailed then t.halt causeSwitch
     else
      ({ t with boot := { t.boot with katFailed := failed.filter (fun u => s.unitExists u && testedEarly u) } }).toStep
        5)

/-! ### Step 5: the merge (R158, R462, R465, R468) -/

/-- Ascending order of kind, stack and index. -/
def unitBefore (a b : UnitId) : Bool :=
  decide (a.kind.toNat < b.kind.toNat)
    || (a.kind == b.kind && (decide (a.stack < b.stack) || (a.stack == b.stack && decide (a.index ≤ b.index))))

def insertUnit (u : UnitId) : List UnitId → List UnitId
  | [] => [u]
  | x :: t => if unitBefore u x then u :: x :: t else x :: insertUnit u t

def sortUnits (l : List UnitId) : List UnitId := l.foldr insertUnit []

/-- The bypass column of a row (R158). -/
def State.bypassFor (s : State) (n y : Nat) : Nat :=
  ((List.range 21).find? (fun x => s.unitFailed kindBench n (22 * y + x))).getD 21

def State.setBypasses (s : State) (n : Nat) : State :=
  (List.range 16).foldl (fun t y =>
    t.setFld (.BCH_ROW_MAP n y) BCH_ROW_MAP_BYPASS (s.bypassFor n y)) s

/-- The kinds that make stack `n` failed. -/
def State.breakingKinds (s : State) (n : Nat) : List (BitVec 4) :=
  [kindAbutment, kindAccum] ++ [(kindWalker, 16), (kindDma, 16), (kindCore, 8)].filterMap (fun p =>
    if s.allFailed p.1 n p.2 then some p.1 else none)

/-- An entry of the list that makes a stack failed. -/
def State.breakingEntry (s : State) (n : Nat) : Option Word :=
  s.allEntries.find? (fun e => bitsOf e.toNat 55 53 == n
    && (s.breakingKinds n).any (fun k => entryKind e == k.toNat))

/-- A stack becomes failed during start-up; the notice names an entry that made it so, or a free value
where no entry did (R462, R463). -/
def State.failEarly (s : State) (n : Nat) (e : Option Word) : State :=
  match e with
  | some w => (s.failStack n).tellUnit n w
  | none =>
    let f := s.takeFree
    (f.2.failStack n).tellUnit n (BitVec.ofNat 64 f.1)

/-- Mark the stacks that the list makes failed. -/
def State.failBroken (s : State) : State :=
  s.presentStacks.foldl (fun t n =>
    if !t.stackFailed n && t.stackBroken n then t.failEarly n (t.breakingEntry n) else t) s

/-- The copy of the list that is used, which the other is rewritten from: the first where it passes its check (R468). -/
def State.useCopy (s : State) (copyA : Bool) : State :=
  let l := if copyA then s.boot.defects else s.boot.secondCopy
  { s with boot := { s.boot with defects := l, secondCopy := l } }

/-- DEFECT_MERGE_DONE: `copyA` and `copyB` say whether each copy of the list passes its check. -/
def execDefectMergeDone (copyA copyB : Bool) (s : State) : Res :=
  let added := (sortUnits s.boot.katFailed).foldl (fun t u =>
    t.addEntry (unitEntry u causeKat s.boot.startCount)) (s.useCopy copyA)
  let mapped := added.presentStacks.foldl (fun t n => t.setBypasses n) added
  let t : State := { mapped with boot := { mapped.boot with merged := true, katFailed := [] } }
  whenOk (s.inStep 5) s
    (if !copyA && !copyB then s.halt causeLists else t.failBroken.toStep 6)

/-! ### Step 6: the tiers (13_memory_tiers.md R423; R467) -/

def hardBit : Word := 0x80000

def entryHard (e : Word) : Bool := e.getLsbD 19

/-- The bank of a row's entry: stack, tier, position, channel and bank. -/
def entryBank (e : Word) : Nat := bitsOf e.toNat 55 39

/-- Hard repairs that a bank can hold. -/
def bankRepairs (e : Word) : Nat := if bitOf e.toNat 52 then 2 else 4

def entryRow (e : Word) : RowId :=
  { stack := bitsOf e.toNat 55 53, far := bitOf e.toNat 52, position := bitOf e.toNat 51,
    channel := BitVec.ofNat 6 (bitsOf e.toNat 50 45), bank := BitVec.ofNat 6 (bitsOf e.toNat 44 39),
    row := BitVec.ofNat 19 (bitsOf e.toNat 38 20) }

/-- MEM_ERROR kind 3 and its notice: the line that they name is a free value. -/
def State.noRepair (s : State) (e : Word) : State :=
  let r := entryRow e
  let off := (s.takeFree.1 % 2 ^ 41) * lineSize
  (s.rowError r [] 3).notice 11 r.stack
    (le4 (memDetail r.far 3 (boolNat r.position) r.channel.toNat) ++ le8 off)

/-- Hard-repair entry `i` of the list if it is a row that needs it. -/
def State.hardRepair (s : State) (i : Nat) : State :=
  let l := s.boot.defects
  let e := nth 0 l i
  let used := (l.filter (fun x => entryKind x == 8 && entryHard x && entryBank x == entryBank e)).length
  if entryKind e ≠ 8 ∨ entryHard e = true ∨ s.stackUp (entryRow e).stack = false then s
  else if used < bankRepairs e then
    let l := l.set i (e ||| hardBit)
    { s with boot := { s.boot with defects := l, secondCopy := l } }
  else s.noRepair e

def State.hardRepairs (s : State) : State :=
  (List.range s.boot.defects.length).foldl (fun t i => t.hardRepair i) s

/-- What the training of one stack finds goes to the list. -/
def State.takeTier (s : State) (r : TierResult) : State :=
  let t := r.badRows.foldl (fun t x =>
    t.addEntry (rowEntry { x with stack := r.stack } causeTraining s.boot.startCount)) s
  r.accFailed.foldl (fun t i =>
    let u : UnitId := { kind := kindAccum, stack := r.stack, index := i }
    if t.unitExists u then t.addEntry (unitEntry u causeKat s.boot.startCount) else t) t

/-- The straps agree (R19). -/
def State.strapsOk (s : State) : Bool := bitsOf s.boot.slot.toNat 2 1 == bitsOf s.boot.tray.toNat 1 0

def State.rackValid (s : State) : Bool := s.bit .CAP_POSITION CAP_POSITION_RACK_VALID

/-! ### The rack number (R17, R18, R20; 20_module_connector.md R573) -/

/-- The node of stack 0: rack, bay from TRAY_ID[4:2], slot from SLOT_ID. -/
def nodeFor (rack : Nat) (tray : BitVec 5) (slot : BitVec 3) : Nat :=
  rack * 512 + bitsOf tray.toNat 4 2 * 64 + slot.toNat * 8

/-- The ports begin to train: step 7 starts (R452). -/
def State.beginPorts (s : State) : State := { s with boot := { s.boot with portsFrom := s.now } }.setCause 0

/-- The rack number is taken. -/
def State.takeRack (s : State) (rack : Nat) : State :=
  let t := ((s.setFld .CAP_POSITION CAP_POSITION_RACK rack).setBit .CAP_POSITION CAP_POSITION_RACK_VALID
    true).setFld .CAP_POSITION CAP_POSITION_BASE_NODE (nodeFor rack s.boot.tray s.boot.slot)
  if t.inStep 7 && t.startCause == causeRack then t.beginPorts else t

/-- RACK_SET. -/
def execRackSet (msg : I3cWrite) (parityErr : Bool) (s : State) : Res :=
  let rack := leNat (msg.body.take 1)
  let refused := decide (63 < rack) || (s.rackValid && s.fld .CAP_POSITION CAP_POSITION_RACK != rack)
  .next (s.i3cWrite msg.dest 0x33 1 msg.body parityErr refused (fun t => if t.rackValid then t else t.takeRack rack))

/-! ### Steps 7 to 10 -/

/-! ### The position check (01_module_overview.md R24 to R26) -/

def nodeBay (node : BitVec 16) : Nat := bitsOf node.toNat 8 6
def nodeSlot (node : BitVec 16) : Nat := bitsOf node.toNat 5 3

/-- The far end stands where the port's assignment says. -/
def State.wired (s : State) (p : Nat) (far : BitVec 16) : Bool :=
  let own := s.baseNode
  jzb2 far ||
    match (portUse s.variant p).1 with
    | .bay j => nodeRack far == nodeRack own && nodeBay far == nodeBay own && nodeSlot far != nodeSlot own
        && neighbourIndex (nodeSlot own) (nodeSlot far) == j
    | .column j => nodeRack far == nodeRack own && nodeSlot far == nodeSlot own && nodeBay far != nodeBay own
        && neighbourIndex (nodeBay own) (nodeBay far) == j
    | .viaduct _ => nodeRack far != nodeRack own
    | .none => false

/-- A B port of a bay or column whose A port has found a JZK-4L module in its place (R26). What the A port's last PARAMS
told of the far variant decides, also while the A port is down again (DESIGN CHOICE, log entry 213). -/
def State.bUnused (s : State) (p : Nat) : Bool :=
  (portUse s.variant p).2 && extPorts.any (fun a =>
    let far := BitVec.ofNat 16 (s.fld (.PORT_STATUS a) PORT_STATUS_FAR_NODE)
    !(portUse s.variant a).2 && (portUse s.variant a).1 == (portUse s.variant p).1
      && (s.port a).farVariant == .l && s.wired a far && !jzb2 far)

/-- Why a port stays in OFF; 0 where nothing holds it there (14_links_and_cables.md R438). -/
def State.offReason (s : State) (p : Nat) : Nat :=
  if s.bit (.PORT_CTRL p) PORT_CTRL_HOLD then 1
  else if !s.portPresent p || decide ((portUse s.variant p).1 = .none) then 2
  else if !s.strapsOk || !s.rackValid then 4
  else if s.bUnused p then 3 else 0

def State.portState (s : State) (p : Nat) : Nat := s.fld (.PORT_STATUS p) PORT_STATUS_STATE

/-- Each port that a reason holds in OFF reports it (R438, R470). -/
def State.sayHeld (s : State) : State :=
  extPorts.foldl (fun t p =>
    if t.portState p = 0 ∧ t.offReason p ≠ 0 then t.setFld (.PORT_STATUS p) PORT_STATUS_REASON (t.offReason p) else t) s

/-- Step 7 begins, or waits for its start condition. -/
def State.enterStep7 (s : State) : State :=
  let t := (s.toStep 7).sayHeld
  if !s.strapsOk then t.halt causeStraps
  else if !s.rackValid then t.setCause causeRack
  else t.beginPorts

/-- TIER_TRAINING_DONE. A stack with no result has not finished at the budget. -/
def execTierTrainingDone (results : List TierResult) (s : State) : Res :=
  let mine := results.filter (fun r => s.stackUp r.stack)
  let listed := (mine.foldl (fun t r => t.takeTier r) s).hardRepairs
  let broken := listed.failBroken
  let untrained := s.presentStacks.filter (fun n => !mine.any (fun r => r.stack == n && r.trained))
  let failed := untrained.foldl (fun t n => if t.stackFailed n then t else t.failEarly n none) broken
  whenOk (s.inStep 6) s
    ((failed.presentStacks.foldl (fun t n =>
      if t.stackFailed n then t else t.modStack n Stack.blankTiers) failed).enterStep7)

/-- A port in OFF that has not begun its first attempt: what held it there, if anything did, no longer does. -/
def State.portFresh (s : State) (p : Nat) : Bool :=
  s.portState p == 0 && s.fld (.PORT_STATUS p) PORT_STATUS_ATTEMPTS == 0
    && [0, 1, 2, 4].contains (s.fld (.PORT_STATUS p) PORT_STATUS_REASON)

/-- The port is UP, stays in OFF and says why, or has ended its first attempt. -/
def State.portSettled (s : State) (p : Nat) : Bool :=
  s.portState p == portUp
    || (s.portState p == 0 && s.fld (.PORT_STATUS p) PORT_STATUS_REASON != 0
      && (s.offReason p != 0 || !s.portFresh p))
    || s.fld (.PORT_STATUS p) PORT_STATUS_ATTEMPTS != 0

def State.isLocked (s : State) : Bool := s.bit .BEAT_STATUS BEAT_STATUS_LOCKED

/-- Step 8 begins; it has ended when the beat is locked. -/
def State.enterStep8 (s : State) : State :=
  if s.isLocked then (s.setCause 0).toStep 9 else (s.setCause causeLock).toStep 8

/-- PORT_TRAINING_STEP_END: `budget` says that the step ends because its 3,000 ms are over. -/
def execPortTrainingStepEnd (budget : Bool) (s : State) : Res :=
  let spent := budget && decide (s.boot.portsFrom + 3000 * ticksPerMs ≤ s.now)
  whenOk (s.inStep 7 && s.startCause == 0 && (spent || extPorts.all s.portSettled)) s s.enterStep8

/-- The port is UP or reports its reason (R470). -/
def State.portTells (s : State) (p : Nat) : Bool :=
  s.portState p == portUp || s.fld (.PORT_STATUS p) PORT_STATUS_REASON != 0

/-- MEASUREMENTS_RECORDED: READY is set. LOCKED holds then, and every port is UP or reports its reason (R470): one that
is in its first attempt when the budget of step 7 is over holds READY back until it has ended it. -/
def execMeasurementsRecorded (s : State) : Res :=
  whenOk (s.inStep 9 && s.isLocked && extPorts.all s.portTells) s ((s.toStep 10).setBit .CAP_START CAP_START_READY true)

end Sys2Proof.Machine
end

