-- ==== Sys2Proof/Machine/Beat.lean ====
section
/-! DEFINITION. The rack beat: edges and marker beats, LOCKED, the in-band check, loss and return
(02_rack_beat.md R28 to R36, R42 to R47; 20_module_connector.md R567, R574). Phases and differences are in
1/256 beat. -/

namespace Sys2Proof.Machine

/-! ### The input -/

/-- Ticks pass before the command. -/
def State.pass (s : State) (dt : Nat) : State := { s with now := s.now + dt }

/-- `n` beats that last `ticks` have a frequency of 1.000 MHz within some parts per million (R28, R42): the
frequency is n beats by their time. -/
def nearBeats (ticks n ppm : Nat) : Bool :=
  let ideal := n * ticksPerBeat
  decide (1000000 * ((ticks - ideal) + (ideal - ticks)) ≤ ppm * ticks)

/-- What one beat of an input in tolerance may differ from 1 µs by, in ticks: 50 ppm, and the period jitter of
2 ns of the beat input (20_module_connector.md Table 20-4). -/
def toleranceTicks : Nat := 3 + 151

/-- One beat of `ticks` is in tolerance, give or take the period jitter (log entry 118). -/
def nearBeat (ticks : Nat) : Bool :=
  decide ((ticks - ticksPerBeat) + (ticksPerBeat - ticks) ≤ toleranceTicks)

/-- The input has stayed in tolerance for 1,024 beats (R28, R31): each of them is, and their frequency is. -/
def Beat.steady (b : Beat) : Bool :=
  decide (1024 ≤ b.inTol) && decide (1025 ≤ b.recent.length)
    && nearBeats (b.lastEdge - nth 0 b.recent 1024) 1024 50

/-- A marker beat by its high phase (R567). -/
def isMarker (high : Nat) : Bool := decide (650 ≤ high) && decide (high ≤ 850)

/-- An edge at the present moment: tolerance and the frequency window. -/
def Beat.onEdge (b : Beat) (now : Nat) : Beat :=
  let ok := b.edges && nearBeat (now - b.lastEdge)
  { b with
    edges := true
    lastEdge := now
    inTol := if ok then b.inTol + 1 else 0
    recent := if b.edges then (now :: b.recent).take 1025 else [now]
    sinceLoad := b.sinceLoad + 1
    winStart := if b.edges then b.winStart else now
    winEdges := if b.edges then b.winEdges + 1 else 0 }

/-! ### BEAT_STATUS -/

def State.beatBit (s : State) (f : Field) (v : Bool) : State := s.setBit .BEAT_STATUS f v

/-- The low half of BEAT_STATUS. -/
def State.beatWord (s : State) : Nat := (s.reg .BEAT_STATUS).toNat % 2 ^ 32

/-- LOCKED, LOST, MISMATCH and POD_SKEW. -/
def State.beatFlags (s : State) : Nat := s.beatWord % 16

/-- The runtimes learn of a change (06_host_cores.md Table 06-3). -/
def State.tellBeat (s old : State) : State :=
  if s.beatFlags = old.beatFlags then s else s.eventAll evBeat s.beatWord

/-- The fabric manager learns of it (Table 18-2, cause 8). -/
def State.beatNotice (s : State) (port : Nat) (d : Int) : State :=
  s.notice 8 noStack (le4 s.beatWord ++ le1 port ++ le2 (ofSigned 16 (max (-32768) (min 32767 d))))

/-- The notice of a cause that concerns no link. -/
def noPortCode : Nat := 0xFF

/-! ### Links that take part (R31, R33) -/

def State.link (s : State) (p : Nat) : LinkCheck := Tab.get ⟨false, false, 0, 0, 0⟩ s.beat.links p

/-- A trained link on which the check runs (14_links_and_cables.md R447). -/
def State.checks (s : State) (p : Nat) : Bool :=
  s.usable p && decide (3 ≤ s.fld (.PORT_STATUS p) PORT_STATUS_JFP)

def State.checkPorts (s : State) : List Nat := extPorts.filter s.checks

/-- The links that take part. -/
def State.partPorts (s : State) : List Nat := s.checkPorts.filter (fun p => (s.link p).part)

/-- The conditions of R31. -/
def State.lockHolds (s : State) : Bool :=
  s.beat.steady && s.beat.loaded && s.partPorts.all (fun p => (s.link p).agrees)
    && (s.checkPorts.all (fun p => (s.link p).part) || decide (2048 ≤ s.beat.sinceLoad))

/-- LOCKED clears when its conditions no longer hold. -/
def State.dropLock (s : State) : State :=
  if s.isLocked && !s.lockHolds then s.beatBit BEAT_STATUS_LOCKED false else s

/-- What every change of the beat ends with: LOCKED, the event, and the caps that it lets take effect. -/
def State.beatEnd (s old : State) : State :=
  let t := s.dropLock.tellBeat old
  if t.capsHeld || old.capsHeld then t.governAll else t

/-- LOCKED_SET: step 8 of start-up ends with it. -/
def execLockedSet (s : State) : Res :=
  let t := s.beatBit BEAT_STATUS_LOCKED true
  let u := t.tellBeat s
  whenOk (s.boot.powered && !s.isLocked && s.lockHolds) s (if u.inStep 8 then u.enterStep8 else u)

/-! ### Loads (R30, R35, R46, R574) -/

/-- BEAT_SET: the last one before a marker beat counts. -/
def execBeatSet (msg : I3cWrite) (parityErr : Bool) (s : State) : Res :=
  let hi := leNat (msg.body.take 4)
  .next (s.i3cWrite msg.dest 0x34 5 msg.body parityErr (decide (2 ^ 28 ≤ hi)) (fun t =>
    { t with
      beat :=
        { t.beat with
          delivered := some (BitVec.ofNat 28 hi, BitVec.ofNat 8 (leNat (msg.body.drop 4))) } }))

/-- LOST ends. -/
def State.endLoss (s : State) : State :=
  (({ s with
      beat := { s.beat with lostLong := false, cmpEdges := 0, cmpErr := 0, total := s.beatsPassed } }).beatBit
    BEAT_STATUS_LOST false).beatBit BEAT_STATUS_RELOCK false

/-- The delivered number is loaded at this marker beat. It starts a window of 1,024 beats; the one that it cuts short is
not published (17_security_and_tenancy.md R513; log entry 222). -/
def State.loadBeat (s : State) (hi : BitVec 28) (m : BitVec 8) : State :=
  let number := BitVec.ofNat 48 (hi.toNat * 2 ^ 20)
  let t : State :=
    { s with
      beat :=
        { s.beat with
          count := number
          loaded := true
          delivered := none
          sinceLoad := 0
          reloaded := true
          goodCount := if s.lost then number - BitVec.ofNat 48 (s.freeBeats 1)
            else s.beat.goodCount }
      power := { s.power with winNow := number.toNat / 1024 } }
  let u := (t.setFld .BEAT_STATUS BEAT_STATUS_MARGIN m.toNat).setFld .BEAT_STATUS BEAT_STATUS_LEAD (19 + m.toNat)
  if !s.lost then u
  else if s.beat.steady then u.endLoss
  else { u with beat := { u.beat with cmpEdges := 0, cmpErr := 0 } }.beatBit BEAT_STATUS_RELOCK true

/-! ### Return (R46) -/

/-- The estimate at the present moment, in 1/256 beat (R43). -/
def State.estimate (s : State) : Nat :=
  s.beat.goodCount.toNat * 256 + s.freeBeats 256

/-- An edge while LOST is set and no number is awaited joins the comparison. The first edge takes the
number nearest to the estimate. -/
def State.compareEdge (s : State) : State :=
  let e := s.estimate
  let number := if s.beat.cmpEdges = 0 then (e + 128) / 256 else s.beat.cmpCount.toNat + 1
  let off := (toSigned 56 ((e + 2 ^ 56 - number * 256 % 2 ^ 56) % 2 ^ 56)).natAbs
  { s with
    beat :=
      { s.beat with
        cmpCount := BitVec.ofNat 48 number
        cmpEdges := s.beat.cmpEdges + 1
        cmpErr := Nat.max s.beat.cmpErr off } }

/-- BEAT_EDGE: `dt` ticks pass, and an edge comes whose high phase lasts `high` nanoseconds. -/
def execBeatEdge (dt high : Nat) (s : State) : Res :=
  let p := s.pass dt
  let t : State := { p with beat := p.beat.onEdge p.now }
  let counted : State :=
    if s.lost then (if s.bit .BEAT_STATUS BEAT_STATUS_RELOCK then t else t.compareEdge)
    else { t with beat := { t.beat with count := t.beat.count + 1, total := t.beat.total + 1 } }
  let loaded := if isMarker high then
      match counted.beat.delivered with
      | some (hi, m) => counted.loadBeat hi m
      | none => counted
    else counted
  .next (if s.boot.powered then loaded.beatEnd s else p)

/-- BEAT_RETURN_COMPARE: 1,024 beats, from the first edge that returned to the 1,025th, have been compared. -/
def execBeatReturnCompare (s : State) : Res :=
  let kept : State := { s with beat := { s.beat with count := s.beat.cmpCount } }
  whenOk (s.lost && !s.bit .BEAT_STATUS BEAT_STATUS_RELOCK && decide (1024 < s.beat.cmpEdges)) s
    (if s.beat.cmpErr ≤ 64 ∧ s.beat.steady = true then kept.endLoss.beatEnd s
     else s.beatBit BEAT_STATUS_RELOCK true)

/-! ### Loss (R42, R44) -/

/-- LOST is set: the count runs on from the last good edge, `back` beats ago. -/
def State.setLost (s : State) (goodAt back : Nat) : State :=
  let t : State :=
    { s with
      beat :=
        { s.beat with
          goodAt := goodAt, goodCount := s.beat.count - BitVec.ofNat 48 back, total := s.beat.total - back, lostLong := false, cmpEdges := 0, cmpErr := 0 } }
  ((((t.beatBit BEAT_STATUS_LOST true).beatBit BEAT_STATUS_LOST_SEEN true).notify HOSTIF_NOTIFY_BEAT).beatNotice
    noPortCode 0).beatEnd s

/-- BEAT_GAP_TIMEOUT: no edge for 4 µs. A gap while LOST is set ends a comparison under way: the next edge is the
first of a new one (log entry 211). -/
def execBeatGapTimeout (dt : Nat) (s : State) : Res :=
  let p := s.pass dt
  let t : State := { p with beat := { p.beat with edges := false, inTol := 0, recent := [], winEdges := 0, cmpEdges := 0, cmpErr := 0 } }
  .next (if s.boot.powered && decide (p.beat.lastEdge + 4 * ticksPerUs ≤ p.now) then
    (if s.lost then t.beatEnd s else t.setLost s.beat.lastEdge 0)
    else p)

/-- BEAT_FREQ_WINDOW: 1,024 beats have been measured. The last good edge of a bad window is its first. -/
def execBeatFreqWindow (s : State) : Res :=
  let b := s.beat
  let t : State := { s with beat := { b with winStart := b.lastEdge, winEdges := 0 } }
  whenOk (decide (1024 ≤ b.winEdges)) s
    (if s.lost then t
     else if nearBeats (b.lastEdge - b.winStart) b.winEdges 200 then
      { t with beat := { t.beat with span := (b.lastEdge - b.winStart) * 1024 / b.winEdges } }
     else t.setLost b.winStart b.winEdges)

/-- LOST_LIMIT_EXPIRE: 100 ms from the last good edge. -/
def execLostLimitExpire (dt : Nat) (s : State) : Res :=
  let p := s.pass dt
  .next (if s.lost && !s.beat.lostLong && decide (s.beat.goodAt + 100 * ticksPerMs ≤ p.now) then
      ((({ p with beat := { p.beat with lostLong := true } }).timeoutBeats 2).stopBeatWaits).governAll
    else p)

/-! ### The in-band check (R33 to R36) -/

/-- The module's own position now, in 1/256 beat. -/
def State.position (s : State) : Nat :=
  if s.lost then s.estimate
  else s.beat.count.toNat * 256 + Nat.min 255 ((s.now - s.beat.lastEdge) * 256 / ticksPerBeat)

def State.modLink (s : State) (p : Nat) (f : LinkCheck → LinkCheck) : State :=
  { s with beat := { s.beat with links := Tab.put s.beat.links p (f (s.link p)) } }

/-- The class M packet of a check, bound for the far end of its link and consumed there. R33 gives what its 16 bytes
hold; their order is the model's (DESIGN CHOICE, log entry 184). -/
def State.checkPacket (s : State) (port : Nat) : Packet :=
  { newPacket s.baseNode (BitVec.ofNat 16 (s.fld (.PORT_STATUS port) PORT_STATUS_FAR_NODE)) classM opBeatCheck 0 0 0 0
      (le8 s.beatNow.toNat ++ le8 (s.position % 256)) with
    vc := if isViaduct s.variant port then 0 else 2 }

/-- BEAT_CHECK_SEND: once every 1,024 beats on a link, after the first load. -/
def execBeatCheckSend (port : Nat) (s : State) : Res :=
  let l := s.link port
  onPort port (whenOk (s.checks port && s.beat.loaded
      && (l.sentAt == 0 || decide (l.sentAt - 1 + 1024 ≤ s.beatsPassed))) s
    (((s.modLink port (fun l => { l with sentAt := s.beatsPassed + 1 })).emit
      (.beatCheck port s.beatNow (s.position % 256))).settle port (s.checkPacket port)))

/-- |d| within which a link agrees. -/
def agreeBound (v : Variant) (p : Nat) : Nat := if isViaduct v p then 128 else 64

/-- The links that disagree, among those that take part. -/
def State.disagreeing (s : State) (pick : Nat → Bool) : List Nat :=
  s.partPorts.filter (fun p => pick p && !(s.link p).agrees)

/-- MISMATCH and POD_SKEW after a change among the links; `checked` when a check has come (R34 to R36). -/
def State.tally (s : State) (checked : Bool) : State :=
  let nIn := (s.partPorts.filter (inRack s.variant)).length
  let nDis := (s.disagreeing (inRack s.variant)).length
  let t := (s.setFld .BEAT_STATUS BEAT_STATUS_IN_RACK_MISMATCH nDis).beatBit BEAT_STATUS_POD_SKEW
    (!(s.disagreeing (isViaduct s.variant)).isEmpty)
  if nIn < 2 * nDis then
    if s.mismatch then t
    else
      (((({ t with beat := { t.beat with reloaded := false } }.beatBit BEAT_STATUS_MISMATCH true).beatBit
        BEAT_STATUS_MISMATCH_SEEN true).notify HOSTIF_NOTIFY_BEAT).beatNotice noPortCode 0).timeoutBeats 3
        |>.stopBeatWaits
  else if s.mismatch && s.beat.reloaded && checked then t.beatBit BEAT_STATUS_MISMATCH false
  else t

/-- A received check is compared. -/
def State.takeCheck (s : State) (p : Nat) (farBeat : BitVec 48) (farPhase : Nat) : State :=
  let far := farBeat.toNat * 256 + farPhase
  let own := s.position + 2 ^ 56 - (s.port p).latency * 256 / ticksPerBeat
  let d := toSigned 56 (far + 2 ^ 57 - own)
  let ok := decide (d.natAbs ≤ agreeBound s.variant p)
  let was := s.link p
  let t := (s.modLink p (fun l =>
    { l with part := true, agrees := ok, d := d, heardAt := s.beatsPassed })).tally true
  if isViaduct s.variant p && !ok && (was.agrees || !was.part) then t.beatNotice p d else t

/-- BEAT_CHECK. -/
def execBeatCheck (port : Nat) (farBeat : BitVec 48) (farPhase : Nat) (s : State) : Res :=
  onPort port (whenOk (s.checks port && s.beat.loaded) s ((s.takeCheck port farBeat farPhase).beatEnd s))

/-- BEAT_CHECK_LAPSE: no check on a link for 2,048 beats. -/
def execBeatCheckLapse (port : Nat) (s : State) : Res :=
  onPort port (whenOk ((s.link port).part && decide ((s.link port).heardAt + 2048 ≤ s.beatsPassed)) s
    (((s.modLink port (fun l => { l with part := false })).tally false).beatEnd s))

end Sys2Proof.Machine
end

