-- ==== Sys2Proof/Machine/Ports.lean ====
section
/-! DEFINITION. External ports: training, retraining, what leaving UP brings, and the cable
(14_links_and_cables.md R437 to R450; 01_module_overview.md R19 to R27; 10_spans_and_routing.md R338). -/

namespace Sys2Proof.Machine

/-! ### States and reasons (Tables 14-4 and 14-6) -/

def portOff : Nat := 0
def portCable : Nat := 1
def portDc : Nat := 2
def portEqualise : Nat := 3
def portParams : Nat := 4
def portCheck : Nat := 5
def portWait : Nat := 7

def reasonHeld : Nat := 1
def reasonUnused : Nat := 3
def reasonNoSignal : Nat := 5
def reasonCable : Nat := 6
def reasonLanes : Nat := 7
def reasonNarrow : Nat := 8
def reasonLimit : Nat := 9
def reasonVersion : Nat := 10
def reasonKeys : Nat := 11
def reasonMiswired : Nat := 12
def reasonReplay : Nat := 13
def reasonTag : Nat := 14
def reasonSignal : Nat := 15
def reasonRate : Nat := 16
def reasonRetrain : Nat := 17

def State.portFld (s : State) (p : Nat) (f : Field) : Nat := s.fld (.PORT_STATUS p) f

def State.setReason (s : State) (p r : Nat) : State := s.setFld (.PORT_STATUS p) PORT_STATUS_REASON r

/-- A change of state, reported to the fabric manager with the number of the port behind PORT_STATUS (R443, log entry
133). -/
def State.setPortState (s : State) (p st : Nat) : State :=
  let t := (s.setFld (.PORT_STATUS p) PORT_STATUS_STATE st).modPort p (fun x =>
    { x with since := s.now, crossedAt := 0 })
  t.notice 7 noStack (le8 (t.reg (.PORT_STATUS p)).toNat ++ le1 p)

/-- The highest JFP version that PORT_CTRL admits. -/
def State.jfpMax (s : State) (p : Nat) : Nat :=
  Nat.max 2 (Nat.min 4 (s.fld (.PORT_CTRL p) PORT_CTRL_JFP_MAX))

/-- An attempt begins in a state: it goes by JFP_MAX and MIN_WIDTH as they stand now (R451), and every driver is on. -/
def State.beginAttempt (s : State) (p st : Nat) : State :=
  (s.modPort p (fun x =>
    { x with
      maxJfp := s.jfpMax p, minWidth := s.fld (.PORT_CTRL p) PORT_CTRL_MIN_WIDTH, pairs := [], driversOff := []
    })).setPortState p st

/-- The port is in one of the states of an attempt. -/
def State.attempting (s : State) (p : Nat) : Bool :=
  decide (portCable ≤ s.portState p) && decide (s.portState p ≤ portCheck)

/-- A counter of failed attempts. -/
def State.countAttempt (s : State) (p : Nat) : State := s.satFld (.PORT_STATUS p) PORT_STATUS_ATTEMPTS 1

/-- WIDTH and JFP of a port that is not UP. -/
def State.noWidth (s : State) (p : Nat) : State :=
  (s.setFld (.PORT_STATUS p) PORT_STATUS_WIDTH 0).setFld (.PORT_STATUS p) PORT_STATUS_JFP 0

/-- An attempt fails: the port enters WAIT (R442). -/
def State.failAttempt (s : State) (p reason : Nat) : State :=
  ((((s.countAttempt p).noWidth p).setReason p reason).modPort p (fun x =>
    { x with backoff := x.backoff + 1 })).setPortState p portWait

/-- Milliseconds of the wait after the failures so far (R442). -/
def waitMs (failures : Nat) : Nat := 1000 * 2 ^ Nat.min (failures - 1) 6

/-! ### Leaving UP (R444; 10_spans_and_routing.md R338) -/

/-- A routed packet is moved to the queue that R323 chooses now, where it meets the profile of R331. -/
def State.requeue (s : State) (p : Packet) : State :=
  match s.route p with
  | .out q x => (s.restated p x).settle q x
  | .own x => (s.restated p x).arrive switchPort x
  | .noPort => (s.freePacket p).unroutable p
  | .error => (s.freePacket p).routeError switchPort p

/-- A packet that waits in an ingress reserve for the port is bound for another. -/
def State.rebind (s : State) (key : Nat) (w : Waiting) : State :=
  let t := s.modSw (fun x => { x with ingress := Tab.modify [] x.ingress key (fun l => l.erase w) })
  let gone (x : State) : State := x.returnCredit (key / 16) (key % 16) (pktCells w.pkt)
  match t.route w.pkt with
  | .out q x =>
    (s.restated w.pkt x).modSw (fun y =>
      { y with ingress := Tab.modify [] y.ingress key (fun l => l.replace w ⟨q, x⟩) })
  | .own x => (gone (t.restated w.pkt x)).arrive switchPort x
  | .noPort => ((gone t).freePacket w.pkt).unroutable w.pkt
  | .error => ((gone t).freePacket w.pkt).routeError (key / 16) w.pkt

/-- Routed packets queued on the port. -/
def State.moveQueued (s : State) (p : Nat) : State :=
  let queued := (List.range 9).flatMap (fun q => s.sw.egressQ p q)
  let t := s.modSw (fun w =>
    { w with egress := (List.range 9).foldl (fun e q => Tab.erase e (queueKey p q)) w.egress })
  let u := queued.foldl (fun x k => x.requeue k) t
  let bound := u.sw.ingress.flatMap (fun e =>
    (e.2.filter (fun w => w.egress == p)).map (fun w => (e.1, w)))
  bound.foldl (fun x b => x.rebind b.1 b.2) u

/-- The spans whose entries use the port are broken, and their frames on it are discarded and counted. -/
def State.breakSpans (s : State) (p : Nat) : State :=
  let lost := s.sw.framesAt p
  let t := s.modSw (fun w =>
    { w with
      frames := Tab.erase w.frames p
      kept := w.kept.filter (fun x => x.fromMember || x.port != p)
      frameDrops := w.frameDrops + lost.length })
  let t := lost.foldl (fun u f => u.freeCells (.inr f)) t
  (t.sw.spanTab.filter (fun e => e.inPort == p || e.outPort == p)).foldl (fun u e =>
    u.sendBroken switchPort u.baseNode e.srcNode e.spanId) t

/-- A packet that has landed in part leaves the queue of an egress port, and the merge that holds it. -/
def Switch.dropEgress (w : Switch) (key : Nat) (x : Packet) : Switch :=
  let heirs := ((w.merges.find? (fun m => m.port == key / 16 && m.reqs.head? == some x)).map (·.reqs)).getD []
  { w with
    egress := Tab.modify [] w.egress key (fun l =>
      match (heirs.drop 1).head? with
      | some y => l.replace x y
      | none => l.erase x)
    merges := (w.merges.map (fun m => { m with reqs := m.reqs.erase x })).filter (fun m => !m.reqs.isEmpty) }

/-- What has landed in part of a packet from a port is discarded, wherever it waits. -/
def State.dropPart (s : State) (q : Nat) (k : Packet) : State :=
  let same (x : Packet) : Bool := bare (.inl x) == bare (.inl k)
  match (Tab.get [] s.sw.arrived q).find? same,
      (List.range 9).findSome? (fun c => ((s.sw.ingressQ q c).find? (fun w => same w.pkt)).map (fun w => (c, w))),
      (s.sw.egress.findSome? (fun e => (e.2.find? same).map (fun x => (e.1, x)))).or
        (s.sw.merges.findSome? (fun m => (m.reqs.find? same).map (fun x => (queueKey m.port (pktQueue x), x)))) with
  | some x, _, _ =>
    ((s.modSw (fun w => { w with arrived := Tab.modify [] w.arrived q (fun l => l.erase x) })).returnCredit q
      (pktQueue x) (pktCells x)).freePacket x
  | none, some (c, w), _ =>
    ((s.modSw (fun y =>
      { y with ingress := Tab.modify [] y.ingress (queueKey q c) (fun l => l.erase w) })).returnCredit q c
      (pktCells w.pkt)).freePacket w.pkt
  | none, none, some (key, x) =>
    (s.modSw (fun w => w.dropEgress key x)).freePacket x
  | none, none, none => s

/-- The same for a span frame and its copies. -/
def State.dropPartFrame (s : State) (f : Frame) : State :=
  (s.sw.frames.filterMap (fun e => (e.2.find? (fun g => bare (.inr g) == bare (.inr f))).map (fun g => (e.1, g)))).foldl
    (fun t c => ((t.modSw (fun w => w.popFrame c.1 c.2)).freeCells (.inr c.2)).unkeep
      ⟨false, c.1, c.2.label.toNat, c.2⟩) s

/-- The first cell of what arrives in part has come. -/
def Port.landed (y : Port) (x : Packet ⊕ Frame) : Bool :=
  decide (Nat.min cellBytes (itemBytes x) ≤ itemBytes x - y.rxLeft)

/-- R354: the rest of what has arrived in part over a port will not come. A port that is sending it ends it with an
end-error; where it is not yet begun on its egress, it is discarded. -/
def State.dropTail (s : State) (q : Nat) : State :=
  match (s.port q).rxItem with
  | none => s
  | some x =>
    let t := s.modPort q (fun y => { y with rxItem := none, rxLeft := 0 })
    if !(s.port q).landed x then t
    else
      let sending := extPorts.filter (fun p => (s.port p).txItem.map bare == some (bare x))
      let u := sending.foldl (fun v p => v.modPort p (fun y => { y with txCut := true })) t
      match x with
      | .inl k => if sending.isEmpty then u.dropPart q k else u
      | .inr f => u.dropPartFrame f

def isFrame : Option (Packet ⊕ Frame) → Bool
  | some (.inr _) => true
  | _ => false

/-- A span frame that the link carries in part is lost with it, and counted (10_spans_and_routing.md R338). -/
def State.loseFrames (s : State) (p : Nat) : State :=
  s.modSw (fun w =>
    { w with frameDrops := w.frameDrops + boolNat (isFrame (s.port p).txItem) + boolNat (isFrame (s.port p).rxItem) })

/-- The link is forgotten: replay buffer, keys, and what was being sent. The credit stands as the last it was known to
be. -/
def Port.cut (x : Port) : Port :=
  { x with
    replay := [], txItem := none, txLeft := 0, txCut := false, rxItem := none, rxLeft := 0, txKey := [], rxKey := []
    nak := false, farNak := false, jfp := 0, owed := [], spanUsed := [], keyWork := none, farShare := none, msgs := [] }

/-- The in-band check of a link that is no longer UP ends (02_rack_beat.md R33). -/
def State.endCheck (s old : State) (p : Nat) : State :=
  let t : State := { s with beat := { s.beat with links := Tab.erase s.beat.links p } }
  if (old.link p).part then (t.tally false).beatEnd old else t

/-- The port leaves UP for another state, in one step. -/
def State.leaveUp (s : State) (p st reason : Nat) : State :=
  let u := (((((s.loseFrames p).dropTail p).satFld (.PORT_ERR p) PORT_ERR_RETRAINS 1).noWidth p).setReason p
    reason).modPort p Port.cut
  let t := if st = portDc then u.beginAttempt p st else u.setPortState p st
  (((t.breakSpans p).moveQueued p)).endCheck s p

/-- A cause takes the port down: out of UP into a new attempt at DC_CHECK, or an attempt into its
failure (R435, R445). -/
def State.portDown (s : State) (p reason : Nat) : State :=
  if s.portState p = portUp then s.leaveUp p portDc reason
  else if s.attempting p then s.failAttempt p reason
  else s

/-- The causes of R435, R436 and R450. -/
def downCauses : List Nat :=
  [reasonCable, reasonKeys, reasonReplay, reasonTag, reasonSignal, reasonRate]

/-- PORT_DOWN. -/
def execPortDown (port reason : Nat) (s : State) : Res :=
  onPort port (whenOk (s.portPresent port && downCauses.contains reason) s (s.portDown port reason))

/-! ### Attempts (R437 to R442) -/

/-- A new attempt begins at CABLE. -/
def State.startAttempt (s : State) (p : Nat) : State := s.beginAttempt p portCable

/-- A port that stays in OFF says why. -/
def State.startOrSay (s : State) (p : Nat) : State :=
  if s.offReason p = 0 then s.startAttempt p else s.setReason p (s.offReason p)

/-- The backoff of a port in WAIT is over. -/
def State.waitOver (s : State) (p : Nat) : Bool :=
  s.portState p == portWait
    && decide ((s.port p).since + waitMs (s.port p).backoff * ticksPerMs ≤ s.now)

/-- PORT_TRAIN_START: at start-up, or when a backoff is over. -/
def execPortTrainStart (port : Nat) (s : State) : Res :=
  let first := s.inStep 7 && s.startCause == 0 && s.portFresh port
  onPort port (.next (if first then s.startOrSay port
    else if s.waitOver port then s.startAttempt port else s))

/-- TRAIN_BACKOFF_EXPIRE. -/
def execTrainBackoffExpire (port : Nat) (s : State) : Res :=
  onPort port (whenOk (s.waitOver port) s (s.startAttempt port))

/-- CABLE_BRINGUP_DONE. -/
def execCableBringupDone (port : Nat) (cable : CableAnswer) (s : State) : Res :=
  let go (k : Nat) : State := (s.setFld (.PORT_STATUS port) PORT_STATUS_CABLE k).setPortState port portDc
  onPort port (whenOk (s.portState port == portCable) s
    (match cable with
     | .none => go 0
     | .passive => go 1
     | .active => go 2
     | .noApplication | .moduleFault | .tooSlow => s.failAttempt port reasonCable))

/-- What DC_CHECK found on a receive pair: open, and shorted. -/
def Port.pairOf (x : Port) (pair : BitVec 3) : Bool × Bool :=
  match x.pairs.find? (fun l => !l.tx && l.pair == pair) with
  | some l => (l.isOpen, l.short)
  | none => (false, false)

/-- The byte of PORT_LANES of a logical lane (Table 14-7). -/
def laneByte (dc : Bool × Bool) (l : LaneResult) (used : Bool) : Nat :=
  boolNat dc.2 * 64 + boolNat dc.1 * 32 + boolNat used * 16 + boolNat l.inverted * 8 + l.pair.toNat

/-- PORT_LANES for the lanes in use. -/
def Port.lanesWord (x : Port) (lanes : List LaneResult) (used : List Nat) : Nat :=
  leNat ((List.range 8).map (fun i =>
    BitVec.ofNat 8 (match lanes[i]? with
      | some l => laneByte (x.pairOf l.pair) l (used.contains i)
      | none => 0)))

/-- Lane order as it stands before EQUALISE finds it: each lane on the pair of its number (DESIGN CHOICE, log entry
231). -/
def plainLanes : List LaneResult := (List.range 8).map (fun i => ⟨BitVec.ofNat 3 i, false, false, false⟩)

/-- What a check of the pairs found is kept and reported (R446), and the drivers of the shorted ones are off (R439). -/
def State.measured (s : State) (p : Nat) (pairs : List PairDc) : State :=
  let t := s.modPort p (fun x =>
    { x with pairs := pairs, driversOff := (pairs.filter (·.short)).map (fun l => (l.tx, l.pair)) })
  t.setReg (.PORT_LANES p) (BitVec.ofNat 64 ((t.port p).lanesWord plainLanes []))

/-- No receive pair has a far-end transmitter: no signal on any lane (DESIGN CHOICE, log entry 232). -/
def noSignal (pairs : List PairDc) : Bool :=
  (List.range 8).all (fun i => pairs.any (fun l => !l.tx && l.pair.toNat == i && l.isOpen))

/-- Pairs that are not crossed, or no longer: the attempt goes on. -/
def State.pairsDone (s : State) (p : Nat) (pairs : List PairDc) : State :=
  if noSignal pairs then s.failAttempt p reasonNoSignal else s.setPortState p portEqualise

/-- DC_CHECK: what the pairs measure. Crossed pairs are checked again. -/
def execDcCheck (port : Nat) (pairs : List PairDc) (crossed : Bool) (s : State) : Res :=
  let t := s.measured port pairs
  onPort port (whenOk (s.portState port == portDc && (s.port port).crossedAt == 0) s
    (if crossed then t.modPort port (fun x => { x with crossedAt := s.now + 1 })
     else t.pairsDone port pairs))

/-- 20 ms of DC_CHECK have passed. -/
def State.dcOver (s : State) (p : Nat) : Bool := decide ((s.port p).since + 20 * ticksPerMs ≤ s.now)

/-- The roles of the pairs are swapped. -/
def State.swapRoles (s : State) (p : Nat) : State :=
  s.setBit (.PORT_STATUS p) PORT_STATUS_CROSSED (!s.bit (.PORT_STATUS p) PORT_STATUS_CROSSED)

/-- CROSS_RECHECK after a wait of 0 to 7 ms: what the pairs measure in the roles they now have. -/
def execCrossRecheck (port : Nat) (waited : Nat) (found : DcResult) (s : State) : Res :=
  let t := s.measured port found.pairs
  onPort port (whenOk (s.portState port == portDc && (s.port port).crossedAt != 0 && decide (waited ≤ 7)) s
    (if !found.crossed then t.pairsDone port found.pairs
     else if s.dcOver port then t.failAttempt port reasonLanes
     else t.swapRoles port))

/-- The largest width that a number of usable lanes gives. -/
def widthOf (n : Nat) : Nat := if 8 ≤ n then 8 else if 4 ≤ n then 4 else if 2 ≤ n then 2 else if 1 ≤ n then 1 else 0

/-- WIDTH of a trained width. -/
def widthCode (w : Nat) : Nat := if w = 8 then 4 else if w = 4 then 3 else w

/-- The logical lanes that this end finds good: none on an open or shorted pair. -/
def Port.goodLanes (x : Port) (lanes : List LaneResult) : List Nat :=
  (List.range 8).filter (fun i =>
    match lanes[i]? with
    | some l => l.good && !(x.pairOf l.pair).1 && !(x.pairOf l.pair).2
    | none => false)

/-- The usable set U: logical lanes good at both ends. -/
def Port.usableLanes (x : Port) (lanes : List LaneResult) : List Nat :=
  (x.goodLanes lanes).filter (fun i => (lanes[i]?.map (·.farGood)).getD false)

/-- A port enters PARAMS: it sends its versions, its node, port and variant, its chain and a fresh ephemeral key (R441;
17_security_and_tenancy.md R493). -/
def State.enterParams (s : State) (p : Nat) : State :=
  let i := s.free
  let t : State := { s with free := i + 1 }
  ((((t.modPort p (fun x => { x with eph := i })).setPortState p portParams).emit
    (.link p (.params (s.port p).maxJfp 2 s.baseNode p s.variant))).emit
    (.link p (.share Config.certificates (Config.ephemeralPublic i))))

/-- EQUALISE_DONE: lane i of the list is logical lane i. This end sends the set that it found good. -/
def execEqualiseDone (port : Nat) (lanes : List LaneResult) (s : State) : Res :=
  let x := s.port port
  let good := x.usableLanes lanes
  let w := widthOf good.length
  let t (used : List Nat) : State :=
    (s.setReg (.PORT_LANES port) (BitVec.ofNat 64 (x.lanesWord lanes used))).emit (.link port (.lanes (x.goodLanes lanes)))
  onPort port (whenOk (s.portState port == portEqualise) s
    (if w = 0 then (t []).failAttempt port reasonLanes
     else if w < 2 ^ x.minWidth then (t []).failAttempt port reasonNarrow
     else (t (good.take w)).enterParams port))

/-- Lanes in use. -/
def State.lanesUsed (s : State) (p : Nat) : Nat :=
  ((List.range 8).filter (fun i => bitOf (s.reg (.PORT_LANES p)).toNat (8 * i + 4))).length

/-- The version that the link settles on, if one is common. -/
def State.version (s : State) (p farMin farMax : Nat) : Option Nat :=
  let v := Nat.min (s.port p).maxJfp farMax
  if Nat.max 2 farMin ≤ v then some v else none

/-- 64 bytes of link keys from the ECDH secret and the two ephemeral public keys, that of the end with the lower
(node, port) first (17_security_and_tenancy.md R493). -/
def linkKeys (z lowKey highKey : List Byte) : List Byte := Config.hkdf z (Config.sha512 (lowKey ++ highKey)) [3] 64

/-- This end's (node, port) is the lower pair. -/
def State.lowerEnd (s : State) (p : Nat) (farNode : BitVec 16) (farPort : Nat) : Bool :=
  decide (s.baseNode.toNat * 64 + p < farNode.toNat * 64 + farPort)

/-- The keys of the two directions of a link, this end's first, by the ephemeral keys of both ends. -/
def State.agreed (s : State) (p i : Nat) (farNode : BitVec 16) (farPort : Nat) (farKey : List Byte) :
    List Byte × List Byte :=
  let own := Config.ephemeralPublic i
  let z := Config.ecdh i farKey
  if s.lowerEnd p farNode farPort then ((linkKeys z own farKey).take 32, (linkKeys z own farKey).drop 32)
  else ((linkKeys z farKey own).drop 32, (linkKeys z farKey own).take 32)

/-- This end's signature of both ephemeral keys, both nodes and both ports, those of the lower end first (DESIGN CHOICE,
log entry 235). -/
def State.signLink (s : State) (p i : Nat) (farNode : BitVec 16) (farPort : Nat) (farKey : List Byte) : LinkMsg :=
  let own := Config.ephemeralPublic i
  let body := if s.lowerEnd p farNode farPort then
      own ++ farKey ++ le2 s.baseNode.toNat ++ le2 farNode.toNat ++ le1 p ++ le1 farPort
    else farKey ++ own ++ le2 farNode.toNat ++ le2 s.baseNode.toNat ++ le1 farPort ++ le1 p
  .signed (Config.signature (Config.sha512 body))

/-- PARAMS_DONE: `authOk` says that the far end's chain and signature verify, and `farKey` is its ephemeral key. -/
def execParamsDone (port : Nat) (farMin farMax : Nat) (farNode : BitVec 16) (farPort : Nat) (farVariant : Variant)
    (authOk : Bool) (farKey : List Byte) (s : State) : Res :=
  let t := ((s.setFld (.PORT_STATUS port) PORT_STATUS_FAR_NODE farNode.toNat).setFld (.PORT_STATUS port)
    PORT_STATUS_FAR_PORT farPort).modPort port (fun x => { x with farVariant := farVariant })
  let i := (s.port port).eph
  let keys := s.agreed port i farNode farPort farKey
  onPort port (whenOk (s.portState port == portParams) s
    (match s.version port farMin farMax with
     | none => t.failAttempt port reasonVersion
     | some v =>
       let u := t.emit (.link port (s.signLink port i farNode farPort farKey))
       if !authOk then u.failAttempt port reasonKeys
       else
         (u.modPort port (fun x => { x with jfp := v, txKey := keys.1, rxKey := keys.2 })).setPortState port
           portCheck))

/-! ### CHECK (01_module_overview.md R24 to R26) -/

/-- A B link to a JZK-4L neighbour (R26). -/
def State.unusedB (s : State) (p : Nat) (far : BitVec 16) : Bool :=
  (portUse s.variant p).2 && inRack s.variant p && !jzb2 far && (s.port p).farVariant == .l

/-- The free cells of the far end's reserve for a queue as a port comes UP: all of them at first; later, all but what
still stands there of what this end had sent, a free value `f` (R347, log entry 186). -/
def Port.freshCredit (x : Port) (f q : Nat) : Nat :=
  if x.credit = [] then reserveCells
  else reserveCells - f / 64 ^ q % 64 % (reserveCells - Tab.get 0 x.credit q + 1)

/-- The flit state of a port that comes UP. -/
def Port.fresh (x : Port) (now latency f : Nat) : Port :=
  { x with
    backoff := 0, txSeq := 0, replay := [], ackAt := now, rxSeq := 0xFFF, nak := false, farNak := false
    txCount := 0, rxCount := 0, uncorr := 0, latency := latency, owed := [], txItem := none, txLeft := 0
    credit := (List.range 9).map (fun q => (q, x.freshCredit f q)) }

/-- The port reaches UP. -/
def State.comeUp (s : State) (p latency : Nat) : State :=
  let t := ((s.setFld (.PORT_STATUS p) PORT_STATUS_WIDTH (widthCode (s.lanesUsed p))).setFld (.PORT_STATUS p)
    PORT_STATUS_JFP (s.port p).jfp).setFld (.PORT_STATUS p) PORT_STATUS_ATTEMPTS 0
  let f := t.takeFree
  (f.2.modPort p (fun x => x.fresh s.now latency f.1)).setPortState p portUp

/-- The port enters, or stays in, OFF for a reason. -/
def State.putOff (s : State) (p reason : Nat) : State :=
  if s.portState p = portUp then s.leaveUp p portOff reason
  else if s.portState p = portOff then s.setReason p reason
  else ((s.noWidth p).setReason p reason).setPortState p portOff

/-- An A port is up to a JZK-4L neighbour: the B port to that neighbour is held down, unused (R26). -/
def State.holdUnused (s : State) (p : Nat) : State :=
  (extPorts.filter (fun b => s.bUnused b && (portUse s.variant b).1 == (portUse s.variant p).1)).foldl
    (fun t b => t.putOff b (t.offReason b)) s

/-- CHECK_DONE. -/
def execCheckDone (port latency : Nat) (s : State) : Res :=
  let far := BitVec.ofNat 16 (s.portFld port PORT_STATUS_FAR_NODE)
  onPort port (whenOk (s.portState port == portCheck) s
    (if !s.wired port far then
      ((s.countAttempt port).setReason port reasonMiswired).setPortState port portOff
     else if s.unusedB port far then (s.setReason port reasonUnused).setPortState port portOff
     else (s.comeUp port latency).holdUnused port))

/-- The limits of Table 14-4, in milliseconds. -/
def stateLimit (st : Nat) : Nat :=
  if st = portCable then 2000 else if st = portDc then 20 else if st = portEqualise then 500
  else if st = portParams then 200 else 80

/-- The reason of an attempt that exceeds the limit of its state (R439, R442, R449). -/
def State.limitReason (s : State) (p : Nat) : Nat :=
  if s.portState p = portCable then reasonCable
  else if s.portState p = portDc ∧ (s.port p).crossedAt ≠ 0 then reasonLanes
  else reasonLimit

/-- TRAIN_STATE_TIMEOUT. -/
def execTrainStateTimeout (port : Nat) (s : State) : Res :=
  onPort port (whenOk (s.attempting port
      && decide ((s.port port).since + stateLimit (s.portState port) * ticksPerMs ≤ s.now)) s
    (s.failAttempt port (s.limitReason port)))

/-! ### PORT_CTRL (R438, R442, R445) -/

/-- HOLD is set: the port enters OFF. -/
def State.holdOff (s : State) (p : Nat) : State :=
  s.putOff p (if s.portState p = portOff then s.offReason p else reasonHeld)

/-- RETRAIN is written. -/
def State.retrainNow (s : State) (p : Nat) : State :=
  if s.portState p = portUp then s.leaveUp p portDc reasonRetrain
  else if s.portState p = portOff then s.startOrSay p
  else if s.portState p = portWait then s.startAttempt p
  else s.beginAttempt p portDc

/-- A write of PORT_CTRL. HOLD takes effect before RETRAIN. A port in OFF that something else than HOLD holds there shows
that reason (R26, R438). -/
def State.wrPortCtrl (p : Nat) (v live : Word) (s : State) : State :=
  let t := s.plainWrite (.PORT_CTRL p) v live
  if t.bit (.PORT_CTRL p) PORT_CTRL_HOLD then t.holdOff p
  else if writesOne v live PORT_CTRL_RETRAIN then t.retrainNow p
  else if t.portState p = portOff ∧ t.offReason p ≠ 0 then t.setReason p (t.offReason p)
  else t

/-- RETRAIN: a write of PORT_CTRL. -/
def execRetrain (who : Requester) (port : Nat) (value : Word) (s : State) : Res :=
  onPort port (.next (s.onWord who (.PORT_CTRL port) (State.wrPortCtrl port value wholeWrite)))

/-- HOLD: a write of PORT_CTRL. -/
def execHold (who : Requester) (port : Nat) (value : Word) (s : State) : Res :=
  onPort port (.next (s.onWord who (.PORT_CTRL port) (fun t => t.wrPortCtrl port value wholeWrite)))

/-! ### Cable flags and the error rate (R435, R450) -/

/-- A temperature, voltage or power alarm. -/
def State.cableAlarm (s : State) (p : Nat) (alarms : BitVec 32) : State :=
  if alarms = 0 then s else s.notice 14 noStack (le1 p ++ le4 alarms.toNat)

/-- CABLE_FLAG_POLL. -/
def execCableFlagPoll (port : Nat) (lossOfSignal moduleFault : Bool) (alarms : BitVec 32) (s : State) : Res :=
  let t := s.cableAlarm port alarms
  onPort port (whenOk (s.portPresent port && s.portState port != portOff) s
    (if moduleFault then t.portDown port reasonCable
     else if lossOfSignal then t.portDown port reasonSignal
     else t))

/-- ERROR_RATE_WINDOW: one second is over. -/
def execErrorRateWindow (port : Nat) (s : State) : Res :=
  let limit := s.fld (.PORT_CTRL port) PORT_CTRL_UNCORR_LIMIT
  let t := s.modPort port (fun x => { x with uncorr := 0 })
  onPort port (whenOk (s.portState port == portUp) s
    (if limit ≠ 0 ∧ limit < (s.port port).uncorr then t.portDown port reasonRate else t))

end Sys2Proof.Machine
end

