-- ==== Sys2Proof/Machine/Flits.lean ====
section
/-! DEFINITION. Flits: what a port sends, what it accepts, replay and the change of keys
(14_links_and_cables.md R429 to R436; 10_spans_and_routing.md R321, R327; 11_switch_die.md R347, R350, R354).
The rates of M and of spans are timing (log entry 188). -/

namespace Sys2Proof.Machine

/-! ### Bytes on the link (R430; 10_spans_and_routing.md R309, R311) -/

def flitPayload : Nat := 484

/-- The header words of a packet and its padded payload (10_spans_and_routing.md Table 10-2). -/
def packetWire (p : Packet) : List Byte :=
  le8 (headerWord0 p).toNat ++ le8 (p.op.toNat * 2 ^ 56 + p.param.toNat * 2 ^ 48 + p.offset.toNat)
    ++ le8 (p.seq.toNat * 2 ^ 32 + p.payload.length * 2 ^ 18) ++ p.payload
    ++ zeros (pktBytes p - 24 - p.payload.length)

/-- The header of a frame and its payload (10_spans_and_routing.md Table 10-4). -/
def frameWire (f : Frame) : List Byte :=
  le8 (f.label.toNat * 2 ^ 48 + f.kind.toNat * 2 ^ 46 + boolNat f.ackreq * 2 ^ 45 + f.epoch.toNat * 2 ^ 41
    + f.tenant.toNat * 2 ^ 14 + f.payload.length) ++ f.payload

def itemWire : Packet ⊕ Frame → List Byte
  | .inl p => packetWire p
  | .inr f => frameWire f

/-- The flit header of Table 14-2. -/
def flitHeader (kind : Nat) (seq ack : BitVec 12) (nak endError : Bool) (fill start creditClass credits : Nat) :
    List Byte :=
  le8 (kind * 2 ^ 62 + seq.toNat * 2 ^ 50 + ack.toNat * 2 ^ 38 + boolNat nak * 2 ^ 37 + boolNat endError * 2 ^ 36
    + fill * 2 ^ 27 + start * 2 ^ 18 + creditClass * 2 ^ 14 + credits)

/-- The reflected polynomial of CRC-32C (PRESUMED, log entry 189: the spec names the code and gives no parameters). -/
def crc32Poly : BitVec 32 := 0x82F63B78

def crc32Bit (c : BitVec 32) : BitVec 32 := if c.getLsbD 0 then (c >>> 1) ^^^ crc32Poly else c >>> 1

def crc32Byte (c : BitVec 32) (b : Byte) : BitVec 32 :=
  crc32Bit (crc32Bit (crc32Bit (crc32Bit (crc32Bit (crc32Bit (crc32Bit (crc32Bit (c ^^^ b.setWidth 32))))))))

def crc32c (bs : List Byte) : BitVec 32 := ~~~(bs.foldl crc32Byte (BitVec.allOnes 32))

/-- The 512 bytes of a flit (Table 14-1): header, sealed payload, tag and CRC-32C. The IV is 4 zero bytes and the
count of the flits that the key has sealed (R431); idle payload bytes are zeros (log entry 189). -/
def flitWire (key : List Byte) (count : Nat) (header payload : List Byte) : List Byte :=
  let x := Config.gcmSeal key (zeros 4 ++ beBytes 8 count) header (fit flitPayload payload)
  let body := header ++ fit flitPayload x.1 ++ fit 16 x.2
  body ++ le4 (crc32c body).toNat

/-! ### Egress order (10_spans_and_routing.md R321) -/

/-- The packet of a queue that meets a condition and comes first, if the far end has credit for it and enough of it has
come. -/
def State.sendable (s : State) (p queue : Nat) (pick : Packet → Bool) : Option Packet :=
  match (s.sw.egressQ p queue).find? pick with
  | some k => if pktCells k ≤ Tab.get 0 (s.port p).credit queue ∧ s.mayBegin p (.inl k) = true then some k else none
  | none => none

/-- The packets that some queues could send now. -/
def State.candidates (s : State) (p : Nat) (queues : List Nat) (pick : Packet → Bool) : List (Nat × Packet) :=
  queues.filterMap (fun q => (s.sendable p q pick).map (fun k => (q, k)))

/-- One of several virtual channels: a free value. -/
def choose (l : List (Nat × Packet)) (f : Nat) : Option (Nat × Packet) :=
  match l with
  | [] => none
  | x :: t => some (nth x (x :: t) (f % (t.length + 1)))

/-- The tenant that sends next within class Q, its packet, and the deficits after it. -/
def State.pickQ (s : State) (p f : Nat) : Option ((Nat × Packet) × State) :=
  let of (t : Nat) := choose (s.candidates p [0, 1, 2] (fun k => k.tenant.toNat == t)) f
  match s.drrAt 8 (16 * (100 + p)) (16 * (100 + p) + 8) (fun t => (of t).map (fun x => pktBytes x.2))
      (fun t => bitsOf (s.reg .SWC_TENANT_Q).toNat (4 * t + 3) (4 * t)) with
  | none => none
  | some (t, u) => (of t).map (fun x => (x, u))

/-- The packet of P, D and Q that is sent next. -/
def State.pickRest (s : State) (p f : Nat) : Option (Packet × State) :=
  let cp := choose (s.candidates p [3, 4] (fun _ => true)) f
  let cd := choose (s.candidates p [7, 8] (fun _ => true)) f
  let cq := s.pickQ p f
  let size (i : Nat) : Option Nat :=
    (if i = 0 then cp else if i = 1 then cd else cq.map (·.1)).map (fun x => pktBytes x.2)
  let weight (i : Nat) : Nat :=
    s.fld (.PORT_SHARE p) (if i = 0 then PORT_SHARE_W_P else if i = 1 then PORT_SHARE_W_D else PORT_SHARE_W_Q)
  let base : State := match s.drrAt 3 (16 * p) (16 * p + 3) size weight with
    | some (2, _) => (cq.map (·.2)).getD s
    | _ => s
  match base.drrAt 3 (16 * p) (16 * p + 3) size weight with
  | none => none
  | some (i, u) => (if i = 0 then cp else if i = 1 then cd else cq.map (·.1)).map (fun x => (x.2, u))

/-- A packet begins to be sent: it leaves its queue and takes its credit. -/
def State.beginPacket (s : State) (p : Nat) (k : Packet) : State :=
  (s.takeEgress p (pktQueue k) k).modPort p (fun x =>
    { x with
      txItem := some (.inl (s.forwarded k)), txLeft := pktBytes k
      credit := Tab.modify 0 x.credit (pktQueue k) (fun c => c - pktCells k) })

/-- The cells that the entry of a frame on this port reserves, here and at the next hop. -/
def State.spanCells (s : State) (p label : Nat) : Option Nat :=
  match s.sw.spanTab.find? (fun e => e.outPort == p && e.nextLabel == label) with
  | some e => some e.cells
  | none => (s.sw.own.find? (fun t => t.committed && t.branches.any (fun b => b.1 == p && b.2.1 == label))).map
      (fun t => t.reserve.1)

/-- The next hop's reserved cells take the frame (R327). How its credits for them come back no rule says: when they
do not reach, how many have come back is a free value (log entry 186). -/
def State.frameCredit (s : State) (p : Nat) (g : Frame) : State × Bool :=
  match s.spanCells p g.label.toNat with
  | none => (s, true)
  | some c =>
    let used := Tab.get 0 (s.port p).spanUsed g.label.toNat
    if used + frameCells g ≤ c then (s, true)
    else
      let f := s.takeFree
      let left := used - f.1 % (used + 1)
      (f.2.modPort p (fun x => { x with spanUsed := Tab.put x.spanUsed g.label.toNat left }),
        decide (left + frameCells g ≤ c))

/-- The first frame of a label for which there is credit, and of which enough has come. -/
def State.pickFrame : List Frame → List (BitVec 16) → State → Nat → State × Option Frame
  | [], _, s, _ => (s, none)
  | g :: t, seen, s, p =>
    if seen.contains g.label then pickFrame t seen s p
    else if !s.mayBegin p (.inr g) then pickFrame t (g.label :: seen) s p
    else
      let c := s.frameCredit p g
      if c.2 then (c.1, some g) else pickFrame t (g.label :: seen) c.1 p

def State.beginFrame (s : State) (p : Nat) (f : Frame) : State :=
  (s.popFrom p f).modPort p (fun x =>
    { x with
      txItem := some (.inr f), txLeft := frameBytes f
      spanUsed := Tab.modify 0 x.spanUsed f.label.toNat (fun c => c + frameCells f) })

/-- The next packet or frame in the order of R321. -/
def State.beginNext (s0 : State) (p : Nat) : Option State :=
  let f := s0.takeFree.1
  let s := s0.takeFree.2
  match choose (s.candidates p [5, 6] (fun _ => true)) f with
  | some x => some (s.beginPacket p x.2)
  | none =>
    let g := State.pickFrame (s.sw.framesAt p) [] s p
    match g.2 with
    | some x => some (g.1.beginFrame p x)
    | none => (g.1.pickRest p f).map (fun r => r.2.beginPacket p r.1)

/-- What fills one flit. -/
structure Fill where
  st : State
  bytes : Nat
  /-- the payload bytes so far -/
  payload : List Byte
  /-- where the first packet or frame begins; 0x1FF none -/
  start : Nat
  /-- the packets and frames that begin in it -/
  items : List (Packet ⊕ Frame)
  /-- it ends what is under way with an end-error (R354, R430) -/
  ended : Bool

/-- What a link carries in place of a packet: at JFP-2 and JFP-3 a keystone store goes as a plain store (R447). -/
def State.onLink (s : State) (p : Nat) : Packet ⊕ Frame → Packet ⊕ Frame
  | .inl k => .inl (if k.op = opKeystone ∧ s.oldJfp p = true then { k with op := opStore } else k)
  | .inr f => .inr f

/-- What has begun on the port joins the payload. -/
def Fill.begin (x : Fill) (p : Nat) (t : State) : Fill :=
  { x with
    st := t, start := if x.start = 0x1FF then x.bytes else x.start
    items := x.items ++ ((t.port p).txItem.map (t.onLink p)).toList }

/-- Pack what is under way, and then what is next, into the room that is left. A packet whose next cell has not come
leaves the rest of the payload idle (R354, R430). -/
def packFlit (p : Nat) : Nat → Fill → Fill
  | 0, x => x
  | fuel + 1, x =>
    let room := flitPayload - x.bytes
    let y := x.st.port p
    if room = 0 then x
    else match y.txItem with
      | none =>
        match x.st.beginNext p with
        | none => x
        | some t => packFlit p fuel (x.begin p t)
      | some item =>
        if y.txCut then
          { x with
            st := x.st.modPort p (fun z => { z with txItem := none, txLeft := 0, txCut := false })
            ended := true }
        else
          let rest := (itemWire (x.st.onLink p item)).drop (itemBytes item - y.txLeft)
          let n := Nat.min room (y.txLeft - x.st.tailLeft item)
          if y.txLeft ≤ n then
            packFlit p fuel { x with
              st := x.st.modPort p (fun z => { z with txItem := none, txLeft := 0 })
              bytes := x.bytes + y.txLeft
              payload := x.payload ++ rest }
          else
            { x with
              st := x.st.modPort p (fun z => { z with txLeft := y.txLeft - n })
              bytes := x.bytes + n
              payload := x.payload ++ rest.take n }

/-- The most items that a flit can hold, each begun and ended. -/
def packFuel : Nat := 128

/-! ### Sending (R432, R433) -/

def replayFlits : Nat := 1024

/-- Credit that goes back in a flit: of one (class, VC), and what its field holds (Table 14-2). -/
def State.takeCredit (s : State) (p : Nat) : Nat × Nat × State :=
  let f := s.takeFree
  let due := (s.port p).owed.filter (fun e => e.2 != 0)
  match due with
  | [] => (15, 0, s)
  | e :: t =>
    let x := nth e (e :: t) (f.1 % (t.length + 1))
    let c := Nat.min x.2 16383
    (x.1, c, f.2.modPort p (fun y => { y with owed := Tab.put y.owed x.1 (x.2 - c) }))

/-- A data flit is numbered, kept and sent. -/
def State.dataFlit (s : State) (p : Nat) (x : Fill) : State :=
  let c := x.st.takeCredit p
  let y := c.2.2.port p
  let t : TxFlit :=
    { seq := y.txSeq, sends := 1, ack := y.rxSeq, nak := y.nak, creditClass := c.1, credits := c.2.1,
      fill := x.bytes, start := x.start, endError := x.ended, items := x.items
      wire := flitWire y.txKey y.txCount
        (flitHeader 0 y.txSeq y.rxSeq y.nak x.ended x.bytes x.start c.1 c.2.1) x.payload }
  (c.2.2.modPort p (fun z =>
    { z with
      txSeq := z.txSeq + 1, txCount := z.txCount + 1, replay := z.replay ++ [t]
      ackAt := if z.replay.isEmpty then s.now else z.ackAt })).emit (.flit p t)

/-- A control flit: not numbered and not kept; the count of R431 takes it as a flit of its own (log entry 196). It
carries the next message to the far end, if there is one. -/
def State.controlFlit (s : State) (p : Nat) : State :=
  let c := s.takeCredit p
  let y := c.2.2.port p
  let t := c.2.2.modPort p (fun z => { z with txCount := z.txCount + 1, msgs := z.msgs.drop 1 })
  let u := match y.msgs with
    | [] => t
    | m :: _ => t.emit (.link p m)
  u.emit (.control p y.rxSeq y.nak c.1 c.2.1
    (flitWire y.txKey y.txCount (flitHeader 1 0 y.rxSeq y.nak false 0 0x1FF c.1 c.2.1)
      ((y.msgs.head?.map Config.linkMessage).getD [])))

/-- The moments at which every unacknowledged flit goes again (R434). -/
def State.replayDue (s : State) (p : Nat) : Bool :=
  let x := s.port p
  !x.replay.isEmpty && (x.farNak || decide (x.ackAt + 10 * ticksPerUs ≤ s.now))

/-- FLIT_SEND: one flit slot. A replay comes first. -/
def execFlitSend (port : Nat) (s : State) : Res :=
  let room := decide ((s.port port).replay.length < replayFlits)
  let x := packFlit port packFuel ⟨s, 0, [], 0x1FF, [], false⟩
  onPort port (whenOk (s.portState port == portUp && !s.replayDue port) s
    (if room && (x.bytes != 0 || x.ended) then s.dataFlit port x else s.controlFlit port))

/-- A flit goes again with the bytes of its first sending. -/
def TxFlit.again (t : TxFlit) : TxFlit := { t with sends := t.sends + 1 }

/-- REPLAY. A flit that has been sent 8 times takes the port down. -/
def execReplay (port : Nat) (s : State) : Res :=
  let x := s.port port
  let l := x.replay.map TxFlit.again
  onPort port (whenOk (s.portState port == portUp && s.replayDue port) s
    (if x.replay.any (fun t => decide (8 ≤ t.sends)) then s.portDown port reasonReplay
     else
      l.foldl (fun u t => u.emit (.flit port t))
        ((s.satFld (.PORT_ERR port) PORT_ERR_REPLAYS 1).modPort port (fun y =>
          { y with replay := l, farNak := false, ackAt := s.now }))))

/-! ### Receiving (R433, R435) -/

/-- What ack names leaves the replay buffer. -/
def Port.acked (x : Port) (ack : BitVec 12) (now : Nat) : Port :=
  match x.replay.findIdx? (fun t => t.seq == ack) with
  | some i => { x with replay := x.replay.drop (i + 1), ackAt := now }
  | none => x

/-- ack, nak and credits of a flit that has been accepted. -/
def State.takeHeader (s : State) (p : Nat) (f : Flit) : State :=
  s.modPort p (fun x =>
    let y := x.acked f.ack s.now
    { y with
      farNak := f.nak
      credit := if f.creditClass.toNat < 9 then
          Tab.modify 0 y.credit f.creditClass.toNat (fun c => c + f.credits.toNat)
        else y.credit })

/-- More bytes of what is under way on a port, as far as they go. -/
def State.takeRest (s : State) (p room : Nat) : State :=
  match (s.port p).rxItem with
  | none => s
  | some x => s.fillItem p x (s.port p).rxLeft (Nat.min room (s.port p).rxLeft)

/-- The byte stream of a payload: the rest of what is under way, then what begins in it, cut by its own length (R430). -/
def State.takeStream (s : State) (p : Nat) (f : Flit) : State :=
  let left := (s.port p).rxLeft
  let room := f.fill.toNat
  State.beginItems (if left ≤ room then f.items else []) (s.takeRest p room) p (room - left)

/-- An end-error loses what is then under way, and that is counted (R354, R430). -/
def State.endPart (s : State) (p : Nat) : State :=
  if (s.port p).rxItem.isSome then (s.dropTail p).modSw (fun w => { w with truncated := w.truncated + 1 }) else s

/-- The payload of a data flit. -/
def State.takeItems (s : State) (p : Nat) (f : Flit) : State :=
  if f.endError then (s.takeStream p f).endPart p else s.takeStream p f

/-- An accepted data flit; its tag is checked now. -/
def State.acceptFlit (s : State) (p : Nat) (f : Flit) : State :=
  let t := s.modPort p (fun x => { x with rxSeq := f.seq, nak := false, rxCount := x.rxCount + 1 })
  if f.tagOk then (t.takeHeader p f).takeItems p f
  else (t.satFld (.PORT_ERR p) PORT_ERR_TAG_FAIL 1).portDown p reasonTag

/-- Symbols corrected and codewords that could not be. -/
def State.countFec (s : State) (p : Nat) (f : Flit) : State :=
  let t := s.setReg (.PORT_FEC_CORR p) (s.reg (.PORT_FEC_CORR p) + BitVec.ofNat 64 f.corrected)
  if f.fecOk then t
  else (t.satFld (.PORT_ERR p) PORT_ERR_FEC_UNCORR f.newBad).modPort p (fun x =>
    { x with uncorr := x.uncorr + f.newBad })

/-! ### Keys (R436; 17_security_and_tenancy.md R494) -/

/-- The far end of a port, as PARAMS had it. -/
def State.farEnd (s : State) (p : Nat) : BitVec 16 × Nat :=
  (BitVec.ofNat 16 (s.portFld p PORT_STATUS_FAR_NODE), s.portFld p PORT_STATUS_FAR_PORT)

/-- A key change begins: this end's chain and a fresh ephemeral key wait for a control flit. -/
def State.startKeys (s : State) (p : Nat) : State :=
  let i := s.free
  let t : State := { s with free := i + 1 }
  t.modPort p (fun x =>
    { x with keyWork := some i, msgs := x.msgs ++ [.share Config.certificates (Config.ephemeralPublic i)] })

/-- A control flit brings what the far end has sent for a key change: this end takes part, and signs. -/
def State.takeMsg (s : State) (p : Nat) (m : Option FarShare) : State :=
  match m with
  | none => s
  | some x =>
    let t := if (s.port p).keyWork.isNone then s.startKeys p else s
    let i := (t.port p).keyWork.getD 0
    let far := t.farEnd p
    t.modPort p (fun y =>
      { y with farShare := some x, msgs := y.msgs ++ [t.signLink p i far.1 far.2 x.key] })

/-- Directions that are due to change their keys. -/
def Port.txDue (x : Port) : Bool := decide (2 ^ 44 ≤ x.txCount)
def Port.rxDue (x : Port) : Bool := decide (2 ^ 44 ≤ x.rxCount)

/-- The directions that are due take the keys of the new agreement. -/
def Port.newKeys (x : Port) (keys : List Byte × List Byte) : Port :=
  { x with
    txKey := if x.txDue then keys.1 else x.txKey
    txCount := if x.txDue then 0 else x.txCount
    rxKey := if x.rxDue then keys.2 else x.rxKey
    rxCount := if x.rxDue then 0 else x.rxCount
    keyWork := none, farShare := none }

/-- FLIT_RECEIVE. One of a reserved kind has no effect (DESIGN CHOICE, log entry 189). -/
def execFlitReceive (port : Nat) (flit : Flit) (s : State) : Res :=
  let t := s.countFec port flit
  onPort port (whenOk (s.portState port == portUp) s
    (if !(flit.fecOk && flit.crcOk) then
      (if flit.kind = 0 then t.modPort port (fun x => { x with nak := true }) else t)
     else if 2 ≤ flit.kind.toNat then t
     else if flit.kind = 1 then
       ((t.modPort port (fun x => { x with rxCount := x.rxCount + 1 })).takeHeader port flit).takeMsg port flit.msg
     else if flit.seq = (s.port port).rxSeq + 1 then t.acceptFlit port flit
     else t))

/-- KEY_CHANGE: a direction has reached 2^44 flits. The agreement begins; once the far end's part has come, it ends with
new keys, or, where that does not verify, takes the port down. -/
def execKeyChange (port : Nat) (s : State) : Res :=
  let x := s.port port
  let far := s.farEnd port
  onPort port (whenOk (s.portState port == portUp && (x.txDue || x.rxDue)) s
    (match x.keyWork, x.farShare with
     | none, _ => s.startKeys port
     | some _, none => s
     | some i, some m =>
       if !m.authOk then s.portDown port reasonKeys
       else s.modPort port (fun y => y.newKeys (s.agreed port i far.1 far.2 m.key))))

/-- KEY_CHANGE_TIMEOUT. -/
def execKeyChangeTimeout (port : Nat) (s : State) : Res :=
  let x := s.port port
  onPort port (whenOk (s.portState port == portUp && (decide (2 ^ 45 ≤ x.txCount) || decide (2 ^ 45 ≤ x.rxCount))) s
    (s.portDown port reasonKeys))

end Sys2Proof.Machine
end

