-- ==== Sys2Proof/Machine/Security.lean ====
section
/-! DEFINITION. The keeper: bindings, release and scrub, measurements, attestation reports, throttle state,
and the opening of debug (17_security_and_tenancy.md R491 to R518; 07_rings_and_doorbells.md Table 07-12;
13_memory_tiers.md R425). -/

namespace Sys2Proof.Machine

/-! ### Tenants -/

def State.setTenant (s : State) (t : Nat) (x : Tenant) : State :=
  { s with keeper := { s.keeper with tenants := Tab.put s.keeper.tenants t x } }

def State.tenantBound (s : State) (t : Nat) : Bool := s.bit (.SEC_TENANT t) SEC_TENANT_BOUND

def State.setStackTenant (s : State) (n t : Nat) : State := s.setFld .SEC_STACK (secTenantField n) t
def State.setStackState (s : State) (n st : Nat) : State := s.setFld .SEC_STACK (secStateField n) st

def stFree : Nat := 0
def stBound : Nat := 1
def stReleasing : Nat := 2

/-- Stacks of a tenant that are BOUND. -/
def State.boundStacks (s : State) (t : Nat) : List Nat :=
  stackNums.filter (fun n => s.bound n && s.tenantOf n == t)

/-- The mask of some stacks. -/
def stackMask (l : List Nat) : Nat := sumNat (l.map (fun n => 2 ^ n))

/-! ### Reports (R511) -/

/-- Module positions that a peer map admits, as its 512 bytes (Table 17-3). -/
def peerBytes (peers : List Nat) : List Byte :=
  (List.range 512).map (fun m =>
    BitVec.ofNat 8 (sumNat ((List.range 8).map (fun i => if peers.contains (8 * m + i) then 2 ^ i else 0))))

/-- The positions of a peer map. -/
def peersOf (map : List Byte) : List Nat :=
  (List.range 4096).filter (fun m => bitOf (nth 0 map (m / 8)).toNat (m % 8))

/-- Flags of a report (Table 17-4). -/
def State.reportFlags (s : State) (t : Nat) : Nat :=
  boolNat (s.bit (.SEC_TENANT t) SEC_TENANT_SEALED_ONLY) + 2 * boolNat (s.bit (.SEC_TENANT t) SEC_TENANT_FORERUNNER)
    + 4 * boolNat s.debugOpen + 8 * boolNat (s.tenant t).debugSeen
    + 16 * boolNat (s.bit .CAP_START CAP_START_RECOVERED)

/-- SHA-512 of the tenant's measurements of one kind, in ascending stack order. -/
def State.aggregate (s : State) (t : Nat) (m : Stack → List Byte) : List Byte :=
  fit 64 (Config.sha512 ((s.boundStacks t).flatMap (fun n => fit 64 (m (s.stack n)))))

def State.generation (s : State) (t : Nat) : Nat := s.fld (.SEC_TENANT t) SEC_TENANT_GENERATION

/-- The configuration digest. -/
def State.configDigest (s : State) (t : Nat) : List Byte :=
  fit 64 (Config.sha512 (fit 64 Config.descriptorDigest ++ le1 s.boot.tray.toNat ++ le1 s.boot.slot.toNat
    ++ le1 (s.fld .CAP_POSITION CAP_POSITION_RACK) ++ le1 (variantCode s.variant)
    ++ le8 (s.reg .CAP_UNITS).toNat ++ le1 (stackMask (s.boundStacks t)) ++ le1 (s.reportFlags t)
    ++ le1 (s.generation t) ++ peerBytes (s.tenant t).peers))

/-- Bytes 0x000 to 0x37F of a report. -/
def State.reportBody (s : State) (kind t : Nat) (nonce key eph : List Byte) : List Byte :=
  le2 1 ++ le2 1040 ++ le1 kind ++ le1 t ++ le1 (stackMask (s.boundStacks t)) ++ le1 (s.reportFlags t)
    ++ le1 (variantCode s.variant) ++ le1 (s.generation t) ++ le2 s.boot.startCount.toNat
    ++ le2 s.baseNode.toNat ++ zeros 2 ++ le8 s.beatNow.toNat ++ le8 (s.reg .CAP_UNITS).toNat
    ++ le4 s.keeper.reports.toNat ++ zeros 28
    ++ fit 64 (Config.sha512 Config.identityPublic) ++ fit 32 nonce ++ zeros 32
    ++ fit 64 s.keeper.fwDigest ++ s.aggregate t (·.measCore) ++ s.aggregate t (·.measBench)
    ++ s.aggregate t (·.measWeights) ++ fit 64 (Config.sha512 (s.boot.defects.flatMap (fun e => le8 e.toNat)))
    ++ s.configDigest t ++ fit 64 s.keeper.digest ++ fit 64 key ++ fit 133 eph ++ zeros 59

/-- A report with its signature: 1,040 bytes. -/
def State.report (s : State) (kind t : Nat) (nonce key eph : List Byte) : List Byte :=
  let body := s.reportBody kind t nonce key eph
  let sig := Config.signature (Config.sha512 body)
  body ++ fit 66 sig.1 ++ fit 66 sig.2 ++ zeros 12

/-- One more report is signed; the count includes it. -/
def State.countReport (s : State) : State :=
  { s with keeper := { s.keeper with reports := s.keeper.reports + 1 } }

/-- The tenant of a host ring. -/
def State.ringTenant (s : State) (q : RingId) : Nat :=
  match q with
  | .host r => s.fld (.HOSTIF_RING_CFG r) HOSTIF_RING_CFG_TENANT
  | .dev n _ => s.tenantOf n

/-- ATTEST: a kind-1 report to host memory (R512). -/
def execAttest (desc : Nat) (s : State) : Res :=
  onStarted s desc dAttest (fun d =>
    let t := s.countReport
    let nonce := [1, 2, 3, 4].flatMap (fun i => le8 (d.word i).toNat)
    (t.hostWrite (d.word 5).toNat (t.report 1 (t.ringTenant d.ring) nonce [] [])).finishDesc desc)

/-! ### BIND (R497 to R499) -/

/-- A BIND request (Table 17-3). -/
structure BindReq where
  tenant : Nat
  stackMask : BitVec 8
  flags : Nat
  reserved : Bool
  nonce : List Byte
  key : List Byte
  peers : List Nat

def bindReq (page : List Byte) : BindReq where
  tenant := (nth 0 page 0).toNat
  stackMask := nth 0 page 1
  flags := (nth 0 page 2).toNat
  reserved := ((page.drop 3).take 29 ++ (page.drop 0xC5).take 59).any (fun b => b != 0)
  nonce := (page.drop 0x20).take 32
  key := (page.drop 0x40).take 133
  peers := peersOf ((page.drop 0x100).take 512)

/-- A stack that a BIND can take. -/
def State.bindable (s : State) (n : Nat) : Bool := s.stackUp n && s.stackState n == stFree

/-- The lowest result that applies (Table 17-2). The key of a bound tenant's BIND is no point when it is all
zero, as it must be then. -/
def State.bindResult (s : State) (q : BindReq) : Nat :=
  let known := decide (q.tenant ≤ 7) && s.tenantBound q.tenant
  let keyed := q.key.any (fun b => b != 0)
  if q.stackMask = 0 ∨ (maskStacks q.stackMask).all s.bindable = false then 1
  else if (known = false ∨ keyed = true) ∧ Config.onCurve q.key = false then 2
  else if known ∧ keyed then 3
  else if 7 < q.tenant ∨ 3 < q.flags ∨ q.reserved = true then 5
  else 0

/-- A tier key (R499). -/
def tierKey (nonce : List Byte) (tier n t : Nat) : List Byte :=
  Config.hkdf Config.memoryRoot nonce [1, BitVec.ofNat 8 tier, BitVec.ofNat 8 n, BitVec.ofNat 8 t] 64

/-- The throttle state of the completed windows, in the registers of a stack (R513). -/
def State.publish (s : State) (n : Nat) : State :=
  let r : Reg := .HCORE_SEC_STATE n
  ((s.setFld r HCORE_SEC_STATE_THROTTLE s.power.hist.toNat).setFld r HCORE_SEC_STATE_WINDOW s.power.winLast).setFld r
    HCORE_SEC_STATE_BAND s.power.band

/-- A stack is bound: its keys are installed, its measurements zero. -/
def State.bindStack (s : State) (t n : Nat) : State :=
  let nonce := Config.tenantNonce s.free
  let u := { s with free := s.free + 1 }.modStack n (fun k =>
    { k with
      nearKey := tierKey nonce 0 n t
      farKey := if s.farPresent n then tierKey nonce 1 n t else []
      measCore := zeros 64, measBench := zeros 64, measWeights := zeros 64 })
  (((u.setBit (.MEM_STATUS n) MEM_STATUS_KEYED_NEAR true).setBit (.MEM_STATUS n) MEM_STATUS_KEYED_FAR
    (s.farPresent n)).setStackTenant n t).setStackState n stBound |>.publish n

/-- Union of two peer maps, in ascending order. -/
def peerUnion (a b : List Nat) : List Nat := (List.range 4096).filter (fun m => a.contains m || b.contains m)

/-- The binding after a BIND. -/
def State.bindTenant (s : State) (q : BindReq) : State :=
  let t := q.tenant
  let r : Reg := .SEC_TENANT t
  let old := s.tenant t
  let u := ((((s.setBit r SEC_TENANT_BOUND true).setFld r SEC_TENANT_GENERATION (s.generation t + 1)).setBit r
    SEC_TENANT_SEALED_ONLY (s.bit r SEC_TENANT_SEALED_ONLY || bitOf q.flags 0)).setBit r SEC_TENANT_FORERUNNER
      (s.bit r SEC_TENANT_FORERUNNER || bitOf q.flags 1)).setFld r SEC_TENANT_STACKS
        (s.fld r SEC_TENANT_STACKS ||| q.stackMask.toNat)
  let v := u.setTenant t
    { old with peers := peerUnion (peerUnion old.peers q.peers) [modulePos s.baseNode] }
  ((maskStacks q.stackMask).foldl (fun x n => x.bindStack t n) v).noteThrottle

/-- The ring key of a new tenant (R498). The two bytes of the base node are little-endian. -/
def ringKeyFor (z nonce : List Byte) (t : Nat) (base : BitVec 16) : List Byte :=
  Config.hkdf z nonce ([2, BitVec.ofNat 8 t] ++ le2 base.toNat) 32

def State.setResult (s : State) (r : Nat) : State := s.setFld .SEC_CMD SEC_CMD_RESULT r

def State.cmdPage (s : State) : Nat := 4096 * s.fld .SEC_CMD SEC_CMD_ADDR

/-- BIND of a request that passes. -/
def State.bindNow (s : State) (q : BindReq) : State :=
  let new := !s.tenantBound q.tenant
  let i := s.free
  let a : State := { s with free := s.free + 1 }
  let b := a.bindTenant q
  let c := if new then
      b.setTenant q.tenant
        { b.tenant q.tenant with ringKey := ringKeyFor (Config.ecdh i q.key) q.nonce q.tenant s.baseNode }
    else b
  let d := c.countReport
  d.hostWrite (s.cmdPage + 0x800) (d.report 2 q.tenant q.nonce (Config.sha512 q.key)
    (if new then Config.ephemeralPublic i else []))

def State.keeperBind (s : State) : State :=
  let q := bindReq (s.hostRead s.cmdPage 4096)
  let r := s.bindResult q
  (if r = 0 then s.bindNow q else s).setResult r

/-! ### RELEASE (R505, R506) -/

/-- Step 1. -/
def State.releaseOne (s : State) (n : Nat) : State :=
  let t := s.setStackState n stReleasing
  let u := t.modStack n (fun k => { k with nearKey := [], farKey := [], booting := none, weights := none })
  let v := (u.setBit (.MEM_STATUS n) MEM_STATUS_KEYED_NEAR false).setBit (.MEM_STATUS n) MEM_STATUS_KEYED_FAR false
  if ((s.stack n).weights).isSome then
    (v.setBit (.HCORE_WEIGHTS_CTRL n) HCORE_WEIGHTS_CTRL_BUSY false).setFld (.HCORE_WEIGHTS_CTRL n)
      HCORE_WEIGHTS_CTRL_RESULT 3
  else v

/-- The jobs of a stack. -/
def State.jobsOn (s : State) (n : Nat) : List Nat :=
  (distinct ((List.range 336).map (fun b => s.rawJob n b))).filter (fun j => j != 0)

/-- Step 2. -/
def State.releaseTwo (s : State) (n : Nat) : State :=
  let t := (s.jobsOn n).foldl (fun u j => u.tearJob n j causeRelease) s
  let u := ((t.stack n).contexts n).foldl (fun u c => u.killCtx c true) t
  let v := (u.host.descs.filter (fun d => d.stack == n)).foldl (fun u d => u.releaseDesc d) u
  let w := (v.stack n).groups.foldl (fun x g => x.clearGroup n g.id) v
  let w := w.modStack n (fun k => { k with groups := [] })
  let y := (w.stack n).spansOut.foldl (fun z x =>
    ((z.dropSpan n x).abandon n (fun r => r.span == x.tag) stDead x.dstNode).1) w
  let y := (s.hostedBy n).foldl (fun z t => z.clearTrestle n t.entry) y
  y.modStack n (fun k => { k with releasing := 2 })

/-- Step 2 has ended: every teardown is over and no access of the stack is outstanding. -/
def State.releaseQuiet (s : State) (n : Nat) : Bool :=
  (s.stack n).tears.isEmpty && !(s.stack n).reqs.any outstandingReq

/-- Steps 3 to 5: the memory engines start. -/
def State.releaseFive (s : State) (n : Nat) : State :=
  ((s.cycleStack n).modStack n (fun k => { k with releasing := 5 })).setBit (.MEM_STATUS n) MEM_STATUS_ZERO_BUSY true

/-- The registers that step 6 returns to their reset values. -/
def releasedReg (n : Nat) : Reg → Bool
  | .XLT_CFG m | .XLT_FQ_IDX m | .XLT_FQ_RESOLVE m | .XLT_STATUS m | .XLT_CTX m _ => m == n
  | .BCH_WDOG_CFG m | .BCH_RESEAT m | .BCH_CLOCK m | .BCH_CTX_STATUS m _ _ | .BCH_CTX_CTRL m _ _ => m == n
  | .BCH_BENCH_CFG m _ | .BCH_LINK_STATUS m _ => m == n
  | .HCORE_BOOT m | .HCORE_CFG m | .HCORE_EVT_IDX m | .HCORE_CORE m _ | .HCORE_DRING_CFG m _ => m == n
  | .HCORE_DRING_IDX m _ | .HCORE_WEIGHTS_ADDR m | .HCORE_WEIGHTS_CTRL m | .HCORE_SEC_STATE m => m == n
  | .ABT_CWIN_CFG m | .ABT_CWIN_STATUS m | .ABT_DEAD_STATUS m | .ABT_LINE_STATUS m | .ABT_SPAN_STATUS m => m == n
  | .ABT_COLL_CFG m | .ABT_COLL_STATUS m | .ABT_LAGGARD m | .ABT_ARRIVAL m | .ABT_RECOVERY m => m == n
  | _ => false

/-- The dead marks, the coherent window and the shadowing role of a released stack are gone. -/
def Stack.released (k : Stack) : Stack :=
  { k with
    dead := [], fenced := [], heard := [], lineHolds := [], lineOrder := [], dir := [], invals := [], oldWindow := none, shadow := Shadow.reset,
    measCore := zeros 64, measBench := zeros 64, measWeights := zeros 64, releasing := 0 }

/-- The tenant's last stack is released. -/
def State.endTenant (s : State) (t : Nat) : State :=
  let u := ({ s with keeper := { s.keeper with tenants := Tab.erase s.keeper.tenants t } }).resetReg (.SEC_TENANT t)
  (List.range 64).foldl (fun x r =>
    if x.ringOn r && x.fld (.HOSTIF_RING_CFG r) HOSTIF_RING_CFG_TENANT == t then x.disableRing r else x) u

/-- Step 6: the stack becomes FREE. The command ends with its last stack. -/
def State.releaseSix (s : State) (n : Nat) : State :=
  let t := s.tenantOf n
  let u := { s with regs := s.regs.filter (fun e => !releasedReg n e.1) }.modStack n Stack.released
  let v := (u.setStackState n stFree).setStackTenant n 0
  let left := bitsOf (s.fld (.SEC_TENANT t) SEC_TENANT_STACKS - 2 ^ n) 7 0
  let w := if left = 0 then v.endTenant t else v.setFld (.SEC_TENANT t) SEC_TENANT_STACKS left
  let mask := w.keeper.releaseMask &&& ~~~(1#8 <<< n)
  let x := { w with keeper := { w.keeper with releaseMask := mask } }
  if mask = 0 then (x.setBit .SEC_CMD SEC_CMD_BUSY false).setResult 0 else x

/-- Lowest result of a RELEASE. -/
def State.releaseResult (s : State) (t : Nat) (stackMask : BitVec 8) : Nat :=
  if stackMask = 0 ∨ (maskStacks stackMask).all (fun n => s.bound n && s.tenantOf n == t) = false then 1
  else if 7 < t then 5
  else 0

/-- A stack goes as far as it can without waiting. -/
def State.releaseStack (s : State) (n : Nat) : State :=
  let t := (s.releaseOne n).releaseTwo n
  if t.releaseQuiet n then t.releaseFive n else t

def State.keeperRelease (s : State) : State :=
  let page := s.hostRead s.cmdPage 4096
  let stackMask := nth 0 page 1
  let r := s.releaseResult (nth 0 page 0).toNat stackMask
  if r = 0 then
    let t := (s.setBit .SEC_CMD SEC_CMD_BUSY true)
    (maskStacks stackMask).foldl (fun u n => u.releaseStack n)
      { t with keeper := { t.keeper with releaseMask := stackMask } }
  else s.setResult r

/-- RELEASE_DONE: the next end that a release of the stack waits for: of step 2, or of the zero scrub. -/
def execReleaseDone (stack : Nat) (s : State) : Res :=
  onStack stack (.next (
    if s.stackState stack ≠ stReleasing then s
    else if (s.stack stack).releasing = 2 then (if s.releaseQuiet stack then s.releaseFive stack else s)
    else if s.bit (.MEM_STATUS stack) MEM_STATUS_ZERO_BUSY then s
    else s.releaseSix stack))

/-! ### SEC_CMD (R496) -/

/-- The response of CERTS (Table 17-2): the count, then each certificate after its length; no more than the command page
holds. -/
def certsPage : List Byte :=
  (le2 Config.certificates.length ++ Config.certificates.flatMap (fun c => le2 c.length ++ c)).take 4096

def State.keeperCerts (s : State) : State := (s.hostWrite s.cmdPage certsPage).setResult 0

/-- A write of SEC_CMD. -/
def State.wrSecCmd (v live : Word) (s : State) : State :=
  let t := s.plainWrite .SEC_CMD v live
  if !writesOne v live SEC_CMD_GO then t
  else if s.bit .SEC_CMD SEC_CMD_BUSY then t.countAt .SEC_CMD
  else match t.fld .SEC_CMD SEC_CMD_CODE with
    | 1 => t.keeperBind
    | 2 => t.keeperRelease
    | 3 => t.keeperCerts
    | _ => (t.setResult 4).countAt .SEC_CMD

/-- BIND: a write of SEC_CMD with CODE 1 and GO. -/
def execBind (value : Word) (s : State) : Res :=
  .next (s.onWord .bar0 .SEC_CMD (State.wrSecCmd value wholeWrite))

/-- RELEASE: a write of SEC_CMD with CODE 2 and GO. -/
def execRelease (value : Word) (s : State) : Res :=
  .next (s.onWord .bar0 .SEC_CMD (State.wrSecCmd value wholeWrite))

/-- CERTS: a write of SEC_CMD with CODE 3 and GO. -/
def execCerts (value : Word) (s : State) : Res :=
  .next (s.onWord .bar0 .SEC_CMD (State.wrSecCmd value wholeWrite))

/-! ### Weights (R508, R509) -/

/-- A write of HCORE_WEIGHTS_CTRL. -/
def State.wrWeightsCtrl (n : Nat) (v live : Word) (s : State) : State :=
  let r : Reg := .HCORE_WEIGHTS_CTRL n
  let t := s.plainWrite r v live
  if writesOne v live HCORE_WEIGHTS_CTRL_GO && !s.bit r HCORE_WEIGHTS_CTRL_BUSY then
    (t.setBit r HCORE_WEIGHTS_CTRL_BUSY true).modStack n (fun k =>
      { k with weights := some ⟨pageSize * t.fld (.HCORE_WEIGHTS_ADDR n) HCORE_WEIGHTS_ADDR_OFFSET,
        t.fld r HCORE_WEIGHTS_CTRL_PAGES⟩ })
  else t

/-- WEIGHTS_GO: a write of HCORE_WEIGHTS_CTRL. -/
def execWeightsGo (who : Requester) (stack : Nat) (value : Word) (s : State) : Res :=
  stackWrite stack who (.HCORE_WEIGHTS_CTRL stack) s (State.wrWeightsCtrl stack value wholeWrite)

def State.endWeights (s : State) (n result : Nat) : State :=
  let r : Reg := .HCORE_WEIGHTS_CTRL n
  ((s.setBit r HCORE_WEIGHTS_CTRL_BUSY false).setFld r HCORE_WEIGHTS_CTRL_RESULT result).modStack n (fun k =>
    { k with weights := none })

/-- The tier and the offset within it of a region that lies wholly within one present tier. -/
def State.tierRegion (s : State) (n off len : Nat) : Option (Bool × Nat) :=
  match s.whereIs n off len with
  | .near o => some (false, o)
  | .far o => some (true, o)
  | .drawer _ | .control _ | .nothing => none

/-- WEIGHTS_DIGEST_DONE. The offset of the record is that within the node (DEDUCED, log entry 248). -/
def execWeightsDigestDone (stack : Nat) (s : State) : Res :=
  onStack stack (match (s.stack stack).weights with
    | none => .next s
    | some w =>
      let len := pageSize * w.pages
      match s.tierRegion stack w.offset len with
      | none => .next (s.endWeights stack 1)
      | some (far, o) =>
        if w.pages = 0 ∨ 2 ^ 24 < w.pages then .next (s.endWeights stack 1)
        else if s.tierBusy stack far o len then .next s
        else
          let a := s.loadTier stack far o len
          if a.poisoned then .next (a.state.endWeights stack 2)
          else
            .next ((a.state.modStack stack (fun k =>
              { k with
                measWeights := extendBy k.measWeights
                  (le8 w.offset ++ le8 len ++ Config.sha512 a.bytes) })).endWeights stack 0))

/-! ### Throttle state (R513) -/

def bandOf (celsius : Nat) : Nat :=
  if celsius < 70 then 0 else if celsius < 85 then 1 else if celsius < 95 then 2 else 3

/-- THROTTLE_WINDOW_END: the window that ran is over, and the present beat lies in a later one. Its throttle bit and its
band are published in every bound stack, and what holds now counts in the next one as well. -/
def execThrottleWindowEnd (hottest : Nat) (s : State) : Res :=
  let w := s.beatNow.toNat / 1024
  let t : State :=
    { s with
      power :=
        { s.power with
          hist := s.power.hist <<< 1 ||| (if s.power.throttled then 1 else 0)
          throttled := s.throttleHolds
          winNow := w
          winLast := (w + 65535) % 65536
          band := bandOf hottest } }
  whenOk (s.boot.powered && decide (w ≠ s.power.winNow)) s
    ((stackNums.filter s.bound).foldl (fun u n => u.publish n) t)


/-! ### Debug (R510, R516, R517; 19_register_map.md R556) -/


/-- Debug is open through JTAG. -/
def State.jtagOpen (s : State) : Bool := s.keeper.jtagIr != irBypass && s.keeper.jtagIr != irIdcode

/-- Extend the debug-state digest with an event. -/
def State.extendDebug (s : State) (event : Nat) : State :=
  { s with
    keeper :=
      { s.keeper with
        digest := extendBy s.keeper.digest (le8 s.beatNow.toNat ++ le1 event ++ zeros 7) } }

def Bench.undebug (x : Bench) (now : Nat) : Bench :=
  { x with ctxs := x.ctxs.map (fun p => (p.1, if p.2.dbgStop then p.2.setDbg now false else p.2)) }

/-- Every stop by debug is released. -/
def State.releaseStops (s : State) : State :=
  { s with
    stackTab := s.stackTab.map (fun p =>
      (p.1, { p.2 with benches := p.2.benches.map (fun q => (q.1, q.2.undebug s.now)) })) }

/-- DEBUG_SEEN of every bound tenant. -/
def State.debugWasSeen (s : State) : State :=
  (List.range 8).foldl (fun t i =>
    if t.tenantBound i then t.setTenant i { t.tenant i with debugSeen := true } else t) s

/-- The conditions of R516 as they now stand take effect. -/
def State.syncDebug (s : State) : State :=
  let was := s.debugOpen
  let jtag := s.jtagOpen
  let isOpen := jtag || s.bit .SEC_DEBUG SEC_DEBUG_OPEN
  let t := s.setBit .SEC_STATUS SEC_STATUS_DEBUG_JTAG jtag
  if isOpen && !was then
    ((t.extendDebug (if jtag then 1 else 2)).setBit .SEC_STATUS SEC_STATUS_DEBUG_OPEN true).debugWasSeen
  else if !isOpen && was then
    ((t.extendDebug 3).setBit .SEC_STATUS SEC_STATUS_DEBUG_OPEN false).releaseStops
  else t

/-- A write of SEC_DEBUG. -/
def State.wrSecDebug (v live : Word) (s : State) : State := (s.plainWrite .SEC_DEBUG v live).syncDebug

/-- The JTAG instruction register takes an instruction. -/
def State.setIr (s : State) (ir : BitVec 8) : State :=
  ({ s with keeper := { s.keeper with jtagIr := ir } }).syncDebug

/-- TRST_N changes: low holds the TAP in reset, with IDCODE selected (20_module_connector.md R575, R578). -/
def State.setTrst (s : State) (high : Bool) : State :=
  let t : State := { s with boot := { s.boot with trstHigh := high } }
  if high || !s.boot.powered then t else t.setIr irIdcode

/-- A condition of R516 changes: `word` is what a write of SEC_DEBUG carries. The TAP takes an instruction while it has
power and TRST_N is high. -/
def State.debugWay (s : State) (way : DebugWay) (ir : BitVec 8) (word : Word) : State :=
  match way with
  | .sec => s.onWord .bar0 .SEC_DEBUG (State.wrSecDebug word wholeWrite)
  | .tap => if s.boot.powered && s.boot.trstHigh then s.setIr ir else s
  | .trst high => s.setTrst high

/-- DEBUG_OPEN: through JTAG, or by a write of SEC_DEBUG.OPEN. -/
def execDebugOpen (way : DebugWay) (ir : BitVec 8) (s : State) : Res := .next (s.debugWay way ir 1)

/-- DEBUG_CLOSE. -/
def execDebugClose (way : DebugWay) (ir : BitVec 8) (s : State) : Res := .next (s.debugWay way ir 0)

end Sys2Proof.Machine
end

