-- ==== Sys2Proof/Machine/Recovery.lean ====
section
/-! DEFINITION. Notices held for the fabric manager, quiet counters, shadowing, and rebuild from replicas
(18_faults_and_recovery.md R519 to R524, R534 to R542). -/

namespace Sys2Proof.Machine

/-! ### Notices (R520) -/

def Notice.due (m : Notice) (now : Nat) : Bool := decide (m.sentAt + ticksPerMs ≤ now)

/-- NOTICE_RESEND_TIMER: the held notices that were last sent 1 ms ago go again, in order. -/
def execNoticeResendTimer (s : State) : Res :=
  let due := s.host.notices.filter (fun m => m.due s.now)
  let t : State :=
    { s with
      host :=
        { s.host with
          notices := s.host.notices.map (fun m => if m.due s.now then { m with sentAt := s.now } else m) } }
  whenOk s.fmReachable s (due.foldl (fun u m => u.mgmt u.baseNode 0x18 (noticeBytes m)) t)

/-- The acknowledgement covers a notice: its number is at or before the one named, modulo 2^32. -/
def Notice.covered (m : Notice) (number : BitVec 32) : Bool := decide ((number - m.number).toNat < 2 ^ 31)

/-- NOTICE_ACK. -/
def execNoticeAck (src : BitVec 16) (number : BitVec 32) (s : State) : Res :=
  onFm s src
    { s with host := { s.host with notices := s.host.notices.filter (fun m => !m.covered number) } }

/-! ### Quiet counters (R524) -/

/-- Every counter of a row is cleared. -/
def State.clearRow (s : State) (r : Nat) : State :=
  (List.range 8).foldl (fun t k => t.setFld (.SWC_QUIET r k) SWC_QUIET_COUNT 0) s

/-- A write of SWC_QUIET_CLEAR. -/
def State.wrQuietClear (v live : Word) (s : State) : State :=
  ((List.range 9).filter (fun r => (v &&& live).getLsbD r)).foldl (fun t r => t.clearRow r) s

/-- QUIET_CLEAR: a write of SWC_QUIET_CLEAR. -/
def execQuietClear (who : Requester) (value : Word) (s : State) : Res :=
  .next (s.onWord who .SWC_QUIET_CLEAR (State.wrQuietClear value wholeWrite))

/-! ### Shadowing (R534 to R539) -/

/-- The stack takes recovery messages: BOUND, with RECOVERY_OK (R534, R541). -/
def State.recoveryOk (s : State) (n : Nat) : Bool :=
  decide (n < 8) && s.stackUp n && s.bound n && s.bit (.ABT_RECOVERY n) ABT_RECOVERY_RECOVERY_OK

/-- The peer's module is in the tenant's peer map. -/
def State.peerKnown (s : State) (n : Nat) (peer : BitVec 16) : Bool :=
  !jzb2 peer && (s.tenant (s.tenantOf n)).peers.contains (modulePos peer)

/-- The role is set; its steps count from here. -/
def State.setShadow (s : State) (m : ShadowSet) : State :=
  let r : Reg := .ABT_RECOVERY m.stack
  (((s.setFld r ABT_RECOVERY_ROLE m.role).setMatches m.stack 0).setFld r ABT_RECOVERY_STEP 0).modStack m.stack
    (fun k =>
      { k with
        shadow :=
          { peer := m.peer, job := m.job, stepAddr := m.stepAddr.toNat, stepBench := m.stepBench,
            stepCtx := m.stepCtx, k := m.k, digest := 0, late := [], own := [], theirs := [], swapAt := none } })

/-- The refusal: SHADOW_REPORT with result 5. -/
def State.refuseShadow (s : State) (n : Nat) : State :=
  if n < 8 then s.shadowReport n (s.fld (.ABT_RECOVERY n) ABT_RECOVERY_STEP) 5
  else s.mgmt s.baseNode 0x1F (le4 0 ++ le1 5 ++ le2 0)

/-- SHADOW_SET. A reserved role has no effect. -/
def execShadowSet (src : BitVec 16) (m : ShadowSet) (s : State) : Res :=
  onFm s src
    (if !s.recoveryOk m.stack || !s.peerKnown m.stack m.peer then s.refuseShadow m.stack
     else if 2 < m.role then s
     else s.setShadow m)

/-- SHADOW_DIGEST, from the peer that SHADOW_SET named alone (19_register_map.md R558). -/
def execShadowDigest (stack : Nat) (src : BitVec 16) (step : BitVec 32) (digest : Word) (s : State) : Res :=
  onStack stack (.next (
    if s.role stack = 0 ∨ src ≠ (s.stack stack).shadow.peer then s.quiet moduleRow qRegister
    else if s.role stack = roleShadow then
      (s.modStack stack (fun k =>
        { k with shadow := { k.shadow with theirs := k.shadow.theirs ++ [(step, digest)] } })).compareSteps stack
    else s))

/-- SHADOW_SWAP: the exchange of roles is armed. -/
def execShadowSwap (src : BitVec 16) (stack : Nat) (beat : BitVec 48) (s : State) : Res :=
  onStack stack (onFm s src
    (if s.role stack = 0 then s
     else s.modStack stack (fun k => { k with shadow := { k.shadow with swapAt := some beat } })))

/-- The roles are exchanged. -/
def State.swapShadow (s : State) (n : Nat) : State :=
  let role := if s.role n = roleTwin then roleShadow else roleTwin
  let t := ((s.setFld (.ABT_RECOVERY n) ABT_RECOVERY_ROLE role).setMatches n 0).modStack n (fun k =>
    { k with shadow := { k.shadow with own := [], theirs := [], swapAt := none } })
  t.shadowReport n (t.fld (.ABT_RECOVERY n) ABT_RECOVERY_STEP) 4

/-- SHADOW_SWAP_BEAT: the beat is reached. Neither MISMATCH nor a long LOST stops the exchange: it is not taken for one of
the events that 02_rack_beat.md R34 and R44 stop (DESIGN CHOICE, log entry 212). -/
def execShadowSwapBeat (stack : Nat) (s : State) : Res :=
  onStack stack (match (s.stack stack).shadow.swapAt with
    | none => .next s
    | some b => whenOk (s.reached b && s.role stack != 0) s (s.swapShadow stack))

/-! ### Rebuild (R541, R542) -/

/-- The lowest result that ends a request at once. -/
def State.rebuildResult (s : State) (m : RegionReq) : Nat :=
  if 1 < m.tier ∨ s.tierSize m.stack (m.tier == 1) < m.offset + m.length then 1
  else if 4 ≤ (s.stack m.stack).rebuilds.length then 4
  else if !s.recoveryOk m.stack then 5
  else 0

/-- A routed store of a rebuild. -/
def rebuildReq (m : RegionReq) (id at_ : Nat) (bs : List Byte) : Req :=
  { id := id, src := .rebuild m.request.toNat, acc := id, op := opStore, param := 0, xctx := 0, va := m.dstOffset + at_,
    len := bs.length, payload := bs, st := .held, node := m.dstNode, offset := m.dstOffset + at_, seq := 0,
    firstSent := 0, resends := 0, dest := 0, destOff := 0, span := 0, offers := [], bad := false, reply := [], poisoned := false }

/-- Copy piece by piece until a line is met that holds POISON; answers the bytes read. -/
def State.copyPieces (s : State) (m : RegionReq) : List (Nat × Nat) → State × List Byte × Bool
  | [] => (s, [], false)
  | (at_, len) :: t =>
    let a := s.loadTier m.stack (m.tier == 1) (m.offset + at_) len
    if a.poisoned then (a.state, [], true)
    else
      let i := a.state.fresh
      let u := i.2.modStack m.stack (fun k => { k with reqs := k.reqs ++ [rebuildReq m i.1 at_ a.bytes] })
      let r := State.copyPieces u m t
      (r.1, a.bytes ++ r.2.1, r.2.2)

/-- The digest of what was read; where POISON was met, of a part that the spec does not name: a free
value. -/
def State.readDigest (s : State) (bytes : List Byte) (poisoned : Bool) : Word × State :=
  if poisoned then (BitVec.ofNat 64 s.takeFree.1, s.takeFree.2) else (crc64 bytes, s)

def State.addRebuild (s : State) (m : RegionReq) (copy : Bool) (engine : Nat) (begun : Bool) (result : Nat)
    (digest : Word) : State :=
  s.modStack m.stack (fun k =>
    { k with rebuilds := k.rebuilds ++ [⟨m, copy, engine, begun, result, digest⟩] })

/-- The copy of a REBUILD begins on a DMA engine. -/
def State.beginRebuild (s : State) (m : RegionReq) (engine : Nat) : State :=
  let size := if jzb2 m.dstNode then 4096 else 8192
  let r := s.copyPieces m (pieces size m.dstOffset m.length)
  let d := r.1.readDigest r.2.1 r.2.2
  d.2.addRebuild m true (engine + 1) true (if r.2.2 then 2 else 0) d.1

/-- The region that a request reads lies in a bank under repair: the read waits (13_memory_tiers.md R422). -/
def State.regionBusy (s : State) (m : RegionReq) : Bool := s.tierBusy m.stack (m.tier == 1) m.offset m.length

/-- A REBUILD takes the lowest free engine; it waits where none is free, or for a row repair (07_rings_and_doorbells.md R588). -/
def State.startRebuild (s : State) (m : RegionReq) : State :=
  match s.freeEngine m.stack with
  | some i => if s.regionBusy m then s.addRebuild m true 0 false 0 0 else s.beginRebuild m i
  | none => s.addRebuild m true 0 false 0 0

/-- REBUILD. -/
def execRebuild (src : BitVec 16) (m : RegionReq) (s : State) : Res :=
  let r := s.rebuildResult m
  onFm s src (if r = 0 then s.startRebuild m else s.rebuildReply m.stack true m.request r (crc64 []))

/-- The request ends with its reply. -/
def State.endRebuild (s : State) (n : Nat) (b : Rebuild) : State :=
  (s.modStack n (fun k => { k with rebuilds := k.rebuilds.erase b })).rebuildReply n b.copy b.req.request b.result
    b.digest

/-- Every store of a rebuild has been answered. -/
def Stack.rebuildQuiet (k : Stack) (b : Rebuild) : Bool :=
  !k.reqs.any (fun r => decide (r.src = .rebuild b.req.request.toNat))

/-- A REBUILD that waits for an engine begins when one is free. -/
def State.resumeRebuild (s : State) (n : Nat) (b : Rebuild) : State :=
  match s.freeEngine n with
  | some i =>
    if s.regionBusy b.req then s
    else (s.modStack n (fun k => { k with rebuilds := k.rebuilds.erase b })).beginRebuild b.req i
  | none => s

/-- REBUILD_DONE. A copy that still waits for an engine has not ended: it begins when one is free (log entry 93). -/
def execRebuildDone (stack : Nat) (request : BitVec 32) (s : State) : Res :=
  onStack stack (match (s.stack stack).rebuilds.find? (fun b => b.copy && b.req.request == request) with
    | none => .next s
    | some b =>
      if !b.begun then .next (s.resumeRebuild stack b)
      else whenOk ((s.stack stack).rebuildQuiet b) s (s.endRebuild stack b))

/-- DIGEST_REQ: the memory engines read the region. -/
def execDigestReq (src : BitVec 16) (m : RegionReq) (s : State) : Res :=
  let r := s.rebuildResult m
  onFm s src (if r = 0 then s.addRebuild m false 0 true 0 0 else s.rebuildReply m.stack false m.request r (crc64 []))

/-- The region has been read. -/
def State.readRegion (s : State) (n : Nat) (b : Rebuild) : State :=
  let a := s.loadTier n (b.req.tier == 1) b.req.offset b.req.length
  let d := a.state.readDigest a.bytes a.poisoned
  (d.2.modStack n (fun k => { k with rebuilds := k.rebuilds.erase b })).rebuildReply n false b.req.request
    (if a.poisoned then 2 else 0) d.1

/-- DIGEST_DONE. -/
def execDigestDone (stack : Nat) (request : BitVec 32) (s : State) : Res :=
  onStack stack (match (s.stack stack).rebuilds.find? (fun b => !b.copy && b.req.request == request) with
    | none => .next s
    | some b => whenOk (!s.regionBusy b.req) s (s.readRegion stack b))

end Sys2Proof.Machine
end

