-- ==== Sys2Proof/Machine/RegRead.lean ====
section
/-! DEFINITION. What a register reads as. A stored field reads as it stands, a WO field and a reserved
field as zero, and a field that reports other state (a fill count, a number of entries, the state of a
context) is computed here from that state (00_scope.md R7, Conventions; the register tables). -/

namespace Sys2Proof.Machine

/-- Put computed fields into a word. -/
def putFields (w : Word) (l : List (Field × Nat)) : Word := l.foldl (fun a p => setF a p.1 p.2) w

/-- The state codes of Table 04-2. -/
def ctxCode : CtxSt → Nat
  | .idle => 0
  | .run => 1
  | .waitRemote => 2
  | .waitFault => 3
  | .waitFlag => 4
  | .waitBeat => 5
  | .waitLink => 6
  | .halted => 7
  | .hung => 8
  | .killed => 9
  | .stopped => 10

/-- BCH_CTX_STATUS (Table 04-13). -/
def State.ctxStatus (s : State) (c : CtxId) : Word :=
  let x := s.ctx c
  putFields 0
    [ (BCH_CTX_STATUS_CAUSE, x.cause.toNat),
      (BCH_CTX_STATUS_OUTSTANDING, (s.stack c.stack).outstanding c.bench c.ctx),
      (BCH_CTX_STATUS_PC, s.pcShown c),
      (BCH_CTX_STATUS_FLAGS, x.flags.toNat),
      (BCH_CTX_STATUS_STATE, ctxCode x.st) ]

/-- A mask of the numbers that satisfy a test. -/
def maskWhere (l : List Nat) (p : Nat → Bool) : Nat := sumNat ((l.filter p).map (fun i => 2 ^ i))

/-- RX_FILL of the four links and OPEN (Table 05-8). -/
def State.linkFields (s : State) (n b : Nat) : List (Field × Nat) :=
  let fill (k : Nat) : Nat := (Tab.get [] (s.bench n b).rx k).length
  [ (BCH_LINK_STATUS_RX_FILL_N, fill 0), (BCH_LINK_STATUS_RX_FILL_E, fill 1),
    (BCH_LINK_STATUS_RX_FILL_S, fill 2), (BCH_LINK_STATUS_RX_FILL_W, fill 3),
    (BCH_LINK_STATUS_OPEN, maskWhere [0, 1, 2, 3] (fun k => s.linkOpen n b k)) ]

/-- The lesser of two held messages by how far their beats lie ahead; a beat that has passed lies before
every beat to come (02_rack_beat.md R32). -/
def State.beatRank (s : State) (b : BitVec 48) : Nat := (s.beatsUntil b + 2 ^ 47) % two48

/-- The earliest held CAP_AT (Table 16-9). -/
def State.nextCap (s : State) : Option Held :=
  (s.power.held.filter (·.isCap)).foldl (fun best h =>
    match best with
    | none => some h
    | some g => if s.beatRank h.beat < s.beatRank g.beat then some h else some g) none

/-- The fields of HCORE_SEC_STATE that follow the stack's tenant (Table 17-13); zero on a FREE stack. -/
def State.tenantFields (s : State) (n : Nat) : List (Field × Nat) :=
  let t := s.tenantOf n
  (HCORE_SEC_STATE_DEBUG_OPEN, if s.debugOpen then 1 else 0) ::
    (if s.stackState n = 0 then []
     else
      [ (HCORE_SEC_STATE_GENERATION, s.generation t),
        (HCORE_SEC_STATE_DEBUG_SEEN, if (s.tenant t).debugSeen then 1 else 0),
        (HCORE_SEC_STATE_FORERUNNER, s.fld (.SEC_TENANT t) SEC_TENANT_FORERUNNER),
        (HCORE_SEC_STATE_SEALED_ONLY, s.fld (.SEC_TENANT t) SEC_TENANT_SEALED_ONLY) ])

/-- The fields of a register that report other state. -/
def State.computed (s : State) : Reg → List (Field × Nat)
  | .CAP_ID => [ (CAP_ID_REV_COMPUTE, s.boot.revCompute.toNat), (CAP_ID_REV_SWITCH, s.boot.revSwitch.toNat) ]
  | .CAP_DEFECT_COUNT =>
    if s.boot.merged then [(CAP_DEFECT_COUNT_COUNT, s.boot.defects.length)]
    else [(CAP_DEFECT_COUNT_NEW, 0), (CAP_DEFECT_COUNT_COUNT, 0)]
  | .CAP_DEFECT i =>
    [(CAP_DEFECT_ENTRY, if s.boot.merged then (nth 0 s.boot.defects i).toNat else 0)]
  | .HOSTIF_RING_CFG r =>
    [(HOSTIF_RING_CFG_STACKS, maskWhere stackNums (fun n => s.ringStack (.host r) n))]
  | .HOSTIF_RING_STATUS r =>
    [ (HOSTIF_RING_STATUS_OUTSTANDING, (s.ringDescs (.host r)).length),
      (HOSTIF_RING_STATUS_DRAINED, if s.ringDrained r then 1 else 0) ]
  | .HOSTIF_NOTICE_STATUS => [(HOSTIF_NOTICE_STATUS_HELD, s.host.notices.length)]
  | .BEAT_NOW => [(BEAT_NOW_NOW, s.beatNow.toNat)]
  | .PWR_PENDING =>
    match s.nextCap with
    | none => [(PWR_PENDING_NEXT_CAP, 0), (PWR_PENDING_NEXT_BEAT, 0)]
    | some h => [(PWR_PENDING_NEXT_CAP, h.value), (PWR_PENDING_NEXT_BEAT, h.beat.toNat)]
  | .SWC_CELL_STATUS =>
    [ (SWC_CELL_STATUS_SPAN_RESERVED, s.sw.spanReserved), (SWC_CELL_STATUS_FREE_SHARED, s.freeShared) ]
  | .SWC_AUDIT => [(SWC_AUDIT_QUARANTINED, (s.sw.strays.filter (·.quarantined)).length)]
  | .SWC_COMBINE_STATUS => [(SWC_COMBINE_STATUS_RECORDS, s.sw.merges.length)]
  | .SWC_TRESTLE_STATUS =>
    let own := s.sw.own.filter (·.committed)
    [ (SWC_TRESTLE_STATUS_ENTRIES, own.length),
      (SWC_TRESTLE_STATUS_COMBINERS, (own.filter (·.reduction)).length) ]
  | .SWC_FENCE_STATUS => [(SWC_FENCE_STATUS_ENTRIES, s.sw.fences.length)]
  | .PORT_SHARE p => [(PORT_SHARE_USED, s.shareUsed p)]
  | .ABT_CWIN_STATUS n => [(ABT_CWIN_STATUS_ENTRIES, (s.stack n).dir.length)]
  | .ABT_SPAN_STATUS n =>
    [ (ABT_SPAN_STATUS_OUT, ((s.stack n).spansOut.filter (fun x => decide (x.st ≠ .closed))).length),
      (ABT_SPAN_STATUS_IN, (s.stack n).spansIn.length),
      (ABT_SPAN_STATUS_INT_USED, s.shareUsed (intPort n)) ]
  | .ABT_COLL_STATUS n =>
    [ (ABT_COLL_STATUS_GROUPS, ((s.stack n).groups.filter (·.bound)).length),
      (ABT_COLL_STATUS_HOSTED,
        (s.sw.trestles.filter (fun t => t.owner == n && t.committed)).length) ]
  | .XLT_FQ_IDX n =>
    [(XLT_FQ_IDX_HELD, ((s.stack n).faults.filter (fun f => f.seq.isNone)).length)]
  | .XLT_STATUS n =>
    [ (XLT_STATUS_OPEN, (s.stack n).faults.length),
      (XLT_STATUS_SEG_FREE, segStore - s.segsHeld n),
      (XLT_STATUS_WALKERS_BUSY, (s.stack n).walkersBusy),
      (XLT_STATUS_SHOOTS, Nat.min 255 (s.stack n).shoots.length) ]
  | .BCH_ROW_MAP n y =>
    if s.boot.merged then
      [ (BCH_ROW_MAP_VACANT, maskWhere (s.vacantCols n y) (fun _ => true)),
        (BCH_ROW_MAP_SPARE_OK, if s.spareOk n y then 1 else 0) ]
    else []
  | .BCH_BENCH_CFG n b => [(BCH_BENCH_CFG_JOB, s.jobOf n b)]
  | .BCH_LINK_STATUS n b => s.linkFields n b
  | .HCORE_SEC_STATE n => s.tenantFields n
  | _ => []

/-- The bits of a register that hold something a read returns: WO bits read as zero. -/
def Reg.readMask (r : Reg) : Word := ~~~r.access.wo

/-- The word that a register holds, its computed fields filled in. -/
def State.regWord (s : State) : Reg → Word
  | .BCH_CTX_STATUS n b c => s.ctxStatus ⟨n, b, c⟩
  | r => putFields (s.reg r) (s.computed r) &&& r.readMask

/-- The directory and its registers are absent on JZK-4D and JZK-4L (R301). -/
def cwinReg : Reg → Bool
  | .ABT_CWIN_CFG _ | .ABT_CWIN_STATUS _ => true
  | _ => false

/-- BCH_CLOCK reads as zero to the stack's own host cores (R155). -/
def hiddenFrom (who : Requester) (r : Reg) : Bool :=
  match who, r with
  | .core _ _, .BCH_CLOCK _ => true
  | _, _ => false

/-- What a requester reads from a register: zero where its unit is absent or failed (R7, R463). -/
def State.readReg (s : State) (who : Requester) (r : Reg) : Word :=
  if !s.unitAnswers r.offset || (cwinReg r && !s.cwdPresent) || hiddenFrom who r then 0
  else s.regWord r

/-- Blocks whose registers BAR0 reads before READY (R455): CAP, and those of a present stack once
step 3 has ended. -/
def State.readable (s : State) (o : Nat) : Bool :=
  s.ready || decide (o < 0x100000)
    || (match stackOfOffset o with
        | some n => s.stackPresent n && decide (4 ≤ s.stepNo)
        | none => false)

end Sys2Proof.Machine
end

