-- ==== Sys2Proof/Machine/RegAccess.lean ====
section
/-! DEFINITION. Register accesses: sizes, halves and latches, unknown offsets, the MSI-X table, debug
access, the JTAG DEBUG chain, register writes of the fabric manager, and the physical map of the host
cores (00_scope.md R7, R11 to R14; 06_host_cores.md R171 to R175, R589; 15_startup_and_defects.md R455;
19_register_map.md R544 to R559). -/

namespace Sys2Proof.Machine

/-! ### The effect of a write on its register -/

/-- A write, while a debug access may be under way: SEC_DEBUG_ACCESS_CTL stores its RW fields, and a GO
finds BUSY set and is counted (R554). -/
def State.wrBase (s : State) (r : Reg) (v live : Word) : State :=
  match r with
  | .CAP_RECOVERY => s.wrRecovery v live
  | .HOSTIF_RING_CFG i => s.wrRingCfg i v live
  | .HOSTIF_RING_DESC i => s.wrRingArea r i v live
  | .HOSTIF_RING_CPL i => s.wrRingArea r i v live
  | .HOSTIF_RING_DB i => s.wrRingArea r i v live
  | .SEC_CMD => s.wrSecCmd v live
  | .SEC_DEBUG => s.wrSecDebug v live
  | .SEC_DEBUG_ACCESS_CTL =>
    let t := s.plainWrite r v live
    if writesOne v live SEC_DEBUG_ACCESS_CTL_GO then t.countAt r else t
  | .SWC_QUIET_CLEAR => s.wrQuietClear v live
  | .PORT_CTRL p => s.wrPortCtrl p v live
  | .ABT_CWIN_CFG n => s.wrCwinCfg n v live
  | .ABT_LINE_STATUS n => s.wrLineStatus n v live
  | .ABT_METER n => s.wrMeter n v live
  | .ABT_COLL_CFG n => s.wrCollCfg n v live
  | .MEM_CFG n => s.wrMemCfg n v live
  | .XLT_CFG n => s.wrXltCfg n v live
  | .XLT_FQ_RESOLVE n => s.wrFqResolve n v live
  | .XLT_CTX n c => s.wrXltCtx n c v live
  | .BCH_WDOG_CFG n => s.wrWdogCfg n v live
  | .BCH_RESEAT n => s.wrReseat n v live
  | .BCH_CTX_CTRL n b c => s.wrCtxCtrl ⟨n, b, c⟩ v live
  | .BCH_BENCH_CFG n b => s.wrBenchCfg n b v live
  | .HCORE_BOOT n => s.wrBoot n v live
  | .HCORE_CORE n c => s.wrCore n c v live
  | .HCORE_DRING_CFG n i => s.wrDringCfg n i v live
  | .HCORE_DRING_IDX n i => s.wrDringIdx n i v live
  | .HCORE_WEIGHTS_CTRL n => s.wrWeightsCtrl n v live
  | _ => s.plainWrite r v live

/-! ### Sizes, halves and latches (R11, R12, R14, R545, R547) -/

/-- An aligned access of 64 bits, or of 32 bits to either half (R11). -/
def accessOk (o bytes : Nat) : Bool :=
  (bytes == 8 && o % 8 == 0) || (bytes == 4 && o % 4 == 0)

/-- Count an access in the row of its offset (R12, R545). -/
def State.countOff (s : State) (o : Nat) : State := s.quiet (rowOfOffset o) qRegister

/-- The upper half with the latched lower half below it. -/
def joinHalves (hi lo : BitVec 32) : Word := hi ++ lo

/-! ### MSI-X (R553, under the PCI Express rules: log entry 11) -/

def msixTableAt : Nat := 0x108000
def msixPbaAt : Nat := 0x109000

/-- The access falls in the MSI-X table or its pending bits. -/
def inMsix (o : Nat) : Bool :=
  (decide (msixTableAt ≤ o) && decide (o < msixTableAt + 1024))
    || (decide (msixPbaAt ≤ o) && decide (o < msixPbaAt + 8))

/-- The 32 bits at an offset of the table or of the pending bits. -/
def State.msixDword (s : State) (o : Nat) : Nat :=
  if o < msixPbaAt then (s.msixWord ((o - msixTableAt) / 4)).toNat
  else bitsOf s.host.msixPending.toNat (8 * (o - msixPbaAt) + 31) (8 * (o - msixPbaAt))

/-- Write 32 bits of the table; the pending bits are read-only. A vector that is pending is sent when its
mask bit clears. -/
def State.msixSet (s : State) (o : Nat) (v : BitVec 32) : State :=
  if msixPbaAt ≤ o then s
  else
    let i := (o - msixTableAt) / 4
    let w := if i % 4 = 0 then v &&& 0xFFFFFFFC else if i % 4 = 3 then v &&& 1 else v
    let t := { s with host := { s.host with msixTable := Tab.put s.host.msixTable i w } }
    if i % 4 = 3 ∧ w = 0 ∧ s.host.msixPending.getLsbD (i / 4) = true then
      { t with host := { t.host with msixPending := t.host.msixPending &&& ~~~(1#64 <<< (i / 4)) } }.emit
        (.msix (i / 4))
    else t

/-! ### Reads and writes at an offset -/

/-- BAR0, and debug access, which acts as BAR0 does (R554). -/
def asBar (who : Requester) : Bool :=
  match who with
  | .bar0 | .debug => true
  | .core _ _ | .fm => false

/-- The bits [63:0] or one half of a word, as an access reads them. -/
def part (w : Word) (o bytes : Nat) : Word :=
  if bytes = 8 then w else BitVec.ofNat 64 (if o % 8 = 4 then bitsOf w.toNat 63 32 else bitsOf w.toNat 31 0)

/-- What a read returns, and the state after it. -/
def State.readAt (s : State) (who : Requester) (o bytes : Nat) : Word × State :=
  if !accessOk o bytes then (0, s.countOff o)
  else if asBar who && inMsix o then
    if s.ready then
      (BitVec.ofNat 64 (s.msixDword o + (if bytes = 8 then 2 ^ 32 * s.msixDword (o + 4) else 0)), s)
    else (0, s)
  else
    match regAt (o - o % 8) with
    | none => (0, s.countOff o)
    | some r => (if asBar who && !s.readable o then 0 else part (s.readReg who r) o bytes, s)

/-- A write at an offset, with the effect `eff` of a write on its register. -/
def State.writeAt (eff : State → Reg → Word → Word → State) (s : State) (who : Requester) (o bytes : Nat)
    (v : Word) : State :=
  if !accessOk o bytes then s.countOff o
  else if asBar who && inMsix o then
    if s.ready then
      let t := s.msixSet o (v.setWidth 32)
      if bytes = 8 then t.msixSet (o + 4) ((v >>> 32).setWidth 32) else t
    else s.countOff o
  else
    match regAt (o - o % 8) with
    | none => s.countOff o
    | some r =>
      if bytes = 8 then s.onWord who r (fun t => eff t r v wholeWrite)
      else if o % 8 = 0 then s.onWrite who r (fun t => t.setLatch who o (v.setWidth 32))
      else
        match s.latch? who o with
        | some lo =>
          (s.dropLatch who o).onWrite who r (fun t => eff t r (joinHalves (v.setWidth 32) lo) wholeWrite)
        | none => s.onWrite who r (fun t => eff t r (joinHalves (v.setWidth 32) 0) upperWrite)

/-! ### Writes of one cycle (R526, R546) -/

/-- The order of the requesters: host core, BAR0, fabric manager, debug. -/
def whoRank : Requester → Nat
  | .core _ _ => 0
  | .bar0 => 1
  | .fm => 2
  | .debug => 3

/-- What a write brings to its register, and the state after its latch: nothing for a lower half, and for a write that is
not taken. -/
def State.brings (s : State) (r : Reg) (who : Requester) (a : BarAccess) : State × Option (Word × Word) :=
  let taken (t : State) (v live : Word) : State × Option (Word × Word) :=
    (t.onWrite who r id, if t.permit who r = .ok then some (v, live) else none)
  if a.bytes = 8 then taken (s.dropLatch who a.offset) a.value wholeWrite
  else if a.offset % 8 = 0 then (s.onWrite who r (fun t => t.setLatch who a.offset (a.value.setWidth 32)), none)
  else
    match s.latch? who a.offset with
    | some lo => taken (s.dropLatch who a.offset) (joinHalves (a.value.setWidth 32) lo) wholeWrite
    | none => taken s (joinHalves (a.value.setWidth 32) 0) upperWrite

/-- One more write of the cycle: an RW field takes the later value, any other the OR. -/
def alsoWrite (a : Access) (old new : Word × Word) : Word × Word :=
  let rw := a.rw &&& new.2
  (((old.1 &&& ~~~rw) ||| (new.1 &&& new.2)), old.2 ||| new.2)

/-- The writes to one register in one cycle act as one. -/
def State.writeAll (s : State) (r : Reg) (l : List (Requester × BarAccess))
    (eff : State → Reg → Word → Word → State) : State :=
  let p := l.foldl (fun (p : State × Option (Word × Word)) w =>
    let b := p.1.brings r w.1 w.2
    (b.1, match p.2, b.2 with
      | none, x => x
      | x, none => x
      | some x, some y => some (alsoWrite r.access x y))) (s, none)
  match p.2 with
  | none => p.1
  | some w => eff p.1 r w.1 w.2

/-! ### Debug access (R554 to R556) -/

def barSize : Nat := 0x4000000

/-- The unit that a register belongs to is absent or has failed: a host core, a bench whose logical number is vacant, or
the directory (R555; DEDUCED, log entry 162). -/
def State.regGone (s : State) : Reg → Bool
  | .HCORE_CORE n c => s.unitFailed kindCore n c
  | .BCH_CTX_STATUS n b _ | .BCH_CTX_CTRL n b _ | .BCH_BENCH_CFG n b | .BCH_LINK_STATUS n b => s.vacant n b
  | r => cwinReg r && !s.cwdPresent

/-- The unit that an offset names is absent or has failed. -/
def State.unitGone (s : State) (o : Nat) : Bool :=
  !s.unitAnswers o || ((regAt (o - o % 8)).map s.regGone).getD false

/-- Space 0: a 64-bit access to BAR0. -/
def State.debugSpace0 (s : State) (write : Bool) (a : Nat) (data : Word) : State :=
  if a % 8 ≠ 0 ∨ barSize ≤ a ∨ s.unitGone a = true then s.debugEnd true write 0
  else if write then (s.setBit dbgCtl SEC_DEBUG_ACCESS_CTL_ERR false).writeAt State.wrBase .debug a 8 data
  else
    let r := s.readAt .debug a 8
    r.2.debugEnd false false r.1

/-- Space 2: a context is stopped, released, or asked about. -/
def State.debugSpace2 (s : State) (write : Bool) (n a : Nat) (data : Word) : State :=
  let c : CtxId := ⟨n, bitsOf a 15 0, bitsOf a 18 16⟩
  if 336 ≤ c.bench ∨ bitsOf a 47 19 ≠ 0 ∨ s.stackUp n = false ∨ s.vacant n c.bench = true then
    s.debugEnd true write 0
  else if write then
    if data = 1 ∨ data = 2 then
      (s.modCtx c (fun x => x.setDbg s.now (decide (data = 1)))).debugEnd false true 0
    else s.debugEnd true true 0
  else s.debugEnd false false (if (s.ctx c).dbgStop then 1 else 0)

/-- One debug access, as SEC_DEBUG_ACCESS_CTL and DATA give it. -/
def State.debugAccess (s : State) : State :=
  let write := s.bit dbgCtl SEC_DEBUG_ACCESS_CTL_WRITE
  let n := s.fld dbgCtl SEC_DEBUG_ACCESS_CTL_STACK
  let a := s.fld dbgCtl SEC_DEBUG_ACCESS_CTL_ADDR
  let data := s.reg .SEC_DEBUG_ACCESS_DATA
  match s.fld dbgCtl SEC_DEBUG_ACCESS_CTL_SPACE with
  | 0 => s.debugSpace0 write a data
  | 1 => s.debugSpace1 write n (s.bit dbgCtl SEC_DEBUG_ACCESS_CTL_TIER) a data
  | 2 => s.debugSpace2 write n a data
  | _ => s.debugEnd true write 0

/-- A write of SEC_DEBUG_ACCESS_CTL. GO while debug is closed, or while BUSY is set, is counted. -/
def State.wrDebugCtl (v live : Word) (s : State) : State :=
  let t := s.plainWrite dbgCtl v live
  if writesOne v live SEC_DEBUG_ACCESS_CTL_GO then
    if !t.debugOpen || t.bit dbgCtl SEC_DEBUG_ACCESS_CTL_BUSY then t.countAt dbgCtl else t.debugAccess
  else t

/-- The effect of a write on its register. -/
def State.wrReg (s : State) (r : Reg) (v live : Word) : State :=
  match r with
  | .SEC_DEBUG_ACCESS_CTL => s.wrDebugCtl v live
  | _ => s.wrBase r v live

/-! ### REGISTER_WRITE -/

/-- What a read puts out. The fabric manager and debug access read nothing this way (R554, R559). -/
def State.putRead (s : State) (who : Requester) (v : Word) : State :=
  match who with
  | .bar0 => s.emit (.readData v)
  | .core _ _ => s.emit (.coreData v)
  | .fm => s
  | .debug => s

/-- The requester's access is made at all: BAR0 answers (R455), the core runs and the offset lies in its
own stack's block (R171), debug is open. -/
def State.reaches (s : State) (who : Requester) (o : Nat) : Bool :=
  match who with
  | .bar0 => s.boot.bar0
  | .core n c => s.coreActive n c && decide (stackOfOffset o = some n)
  | .fm => true
  | .debug => s.debugOpen

/-- A read or a write of a register. -/
def State.barAccess (s : State) (who : Requester) (a : BarAccess) : State :=
  if !s.reaches who a.offset then s
  else if a.write then s.writeAt State.wrReg who a.offset a.bytes a.value
  else if who = .fm ∨ who = .debug then s
  else
    let r := s.readAt who a.offset a.bytes
    r.2.putRead who r.1

/-- Writes of several requesters in one cycle (R526, R546), in the order of their requesters: those of a whole half or word
of one register act as one, where they reach it; each other one, of a bad size or alignment (R12), to an offset that
names no register (R545) or to the MSI-X table (R553), is the access that it is alone. -/
def State.cycleWrites (s : State) (who : Requester) (a : BarAccess) (others : List (Requester × BarAccess)) : State :=
  let l := (sortBy (fun x y => decide (whoRank x.1 ≤ whoRank y.1)) ((who, a) :: others)).filter (fun x =>
    x.2.write && x.2.offset / 8 == a.offset / 8)
  match regAt (a.offset - a.offset % 8) with
  | none => l.foldl (fun t x => t.barAccess x.1 x.2) s
  | some r =>
    let whole (x : Requester × BarAccess) : Bool := accessOk x.2.offset x.2.bytes && !(asBar x.1 && inMsix x.2.offset)
    let t := (l.filter (fun x => !whole x)).foldl (fun t x => t.barAccess x.1 x.2) s
    t.writeAll r (l.filter (fun x => whole x && t.reaches x.1 x.2.offset)) State.wrReg

/-- REGISTER_WRITE. -/
def execRegisterWrite (who : Requester) (acc : RegAccess) (s : State) : Res :=
  match acc with
  | .one a => .next (s.barAccess who a)
  | .together a others => .next (s.cycleWrites who a others)

/-! ### The debug rows and JTAG (R554, R556, R557) -/

/-- A write of SEC_DEBUG_ACCESS_CTL over BAR0 whose GO and fields ask for one kind of debug access. -/
def onDebug (s : State) (ctl : Word) (asks : Bool) : Res :=
  whenOk (getF ctl SEC_DEBUG_ACCESS_CTL_GO == 1 && asks) s
    (s.barAccess .bar0 ⟨true, dbgCtl.offset, 8, ctl⟩)

def ctlSpace (ctl : Word) : Nat := getF ctl SEC_DEBUG_ACCESS_CTL_SPACE
def ctlWrites (ctl : Word) : Bool := getF ctl SEC_DEBUG_ACCESS_CTL_WRITE == 1

/-- DEBUG_REGISTER_ACCESS. -/
def execDebugRegisterAccess (ctl : Word) (s : State) : Res := onDebug s ctl (ctlSpace ctl == 0)

/-- DEBUG_TIER_ACCESS. -/
def execDebugTierAccess (ctl : Word) (s : State) : Res := onDebug s ctl (ctlSpace ctl == 1)

/-- DEBUG_CONTEXT_STOP. -/
def execDebugContextStop (ctl : Word) (s : State) : Res :=
  onDebug s ctl (ctlSpace ctl == 2 && ctlWrites ctl && s.reg .SEC_DEBUG_ACCESS_DATA == 1)

/-- DEBUG_CONTEXT_RELEASE. -/
def execDebugContextRelease (ctl : Word) (s : State) : Res :=
  onDebug s ctl (ctlSpace ctl == 2 && ctlWrites ctl && s.reg .SEC_DEBUG_ACCESS_DATA == 2)

/-- DEBUG_CONTEXT_READ. -/
def execDebugContextRead (ctl : Word) (s : State) : Res :=
  onDebug s ctl (ctlSpace ctl == 2 && !ctlWrites ctl)

/-- What the sideband pins show to the boundary register (20_module_connector.md R575). The levels of the I3C bus are the
tray controller's: free values, but for SDA while the boundary register drives it low (log entry 227). -/
def State.capturePins (s : State) : State :=
  let f := s.takeFree
  f.2.emit (.boundary s.boot.epoHigh s.boot.shedHigh (!s.alertPin) s.boot.tray s.boot.slot (f.1 % 2 == 1)
    (f.1 / 2 % 2 == 1 && !s.sdaLow))

/-- The DEBUG chain: what Capture-DR loaded goes out, and DATA and then CTL are written. -/
def State.debugChain (s : State) (ctl data : Word) : State :=
  let t := s.emit (.jtag (s.readReg .debug dbgCtl) (s.readReg .debug .SEC_DEBUG_ACCESS_DATA))
  let u := t.barAccess .debug ⟨true, Reg.offset .SEC_DEBUG_ACCESS_DATA, 8, data⟩
  u.barAccess .debug ⟨true, dbgCtl.offset, 8, ctl⟩

/-- JTAG_UPDATE_DR: the data register of the present instruction goes out as Capture-DR loaded it, and takes what has been
shifted in. An instruction that R516 does not name selects BYPASS, as IEEE 1149.1 has it (PRESUMED, log entry 227). -/
def execJtagUpdateDr (ctl data : Word) (s : State) : Res :=
  let shifted : State := { s.capturePins with keeper := { s.keeper with boundary := (ctl, data) } }
  whenOk (s.boot.powered && s.boot.trstHigh) s
    (if s.keeper.jtagIr = irDebug then s.debugChain ctl data
     else if s.keeper.jtagIr = irExtest ∨ s.keeper.jtagIr = irSample then shifted
     else if s.keeper.jtagIr = irIdcode then s.emit (.idcode Config.idcode)
     else s.emit .bypass)

/-! ### Register writes of the fabric manager (R558, R559) -/

/-- REG_WRITE is refused. -/
def State.fmRefused (s : State) (o : Nat) : Bool :=
  o % 8 != 0 || !inSwcOrPort o ||
    (match portOfOffset o with
     | some p => !s.portPresent p
     | none => false)

/-- REG_RESULT (Table 19-7). -/
def State.regResult (s : State) (tag offset : BitVec 32) (result : Nat) : State :=
  s.mgmt s.baseNode 0x26 (le4 tag.toNat ++ le4 offset.toNat ++ le1 result)

/-- REG_WRITE. -/
def execRegWrite (src : BitVec 16) (tag offset : BitVec 32) (value : Word) (s : State) : Res :=
  let o := offset.toNat
  onFm s src
    (if s.fmRefused o then (s.countOff o).regResult tag offset 1
     else (s.writeAt State.wrReg .fm o 8 value).regResult tag offset 0)

/-! ### The host link (R552) -/

/-- UCIE_MODULE_DROP. -/
def execUcieModuleDrop (module : Nat) (s : State) : Res :=
  let f : Field := ⟨HOSTIF_LINK_MODULES.lo + module, HOSTIF_LINK_MODULES.lo + module⟩
  if module < 4 then
    whenOk (s.bit .HOSTIF_LINK f) s ((s.setBit .HOSTIF_LINK f false).emit (.ucieDrop module))
  else noUnit

/-! ### The physical map of the host cores (06_host_cores.md Table 06-1, R172, R589) -/

def coreRegsAt : Nat := 0x10000000
def coreRegsSize : Nat := 0x400000
def coreBeatAt : Nat := 0x20000000
def coreNodeAt : Nat := 0x0010000000000000
def coreNodeSize : Nat := 0x030100000000

/-- What a physical address names. -/
inductive CoreWhere where
  | sram (a : Nat)
  | regs (o : Nat)
  | beat (a : Nat)
  | node (off : Nat)
  | nothing
  deriving DecidableEq, Repr

/-- Where an access of `len` bytes of a core falls (Table 06-1). -/
def coreWhere (a len : Nat) : CoreWhere :=
  if a + len ≤ sramSize then .sram a
  else if coreRegsAt ≤ a ∧ a + len ≤ coreRegsAt + coreRegsSize then .regs (a - coreRegsAt)
  else if coreBeatAt ≤ a ∧ a + len ≤ coreBeatAt + 8 then .beat (a - coreBeatAt)
  else if coreNodeAt ≤ a ∧ a + len ≤ coreNodeAt + coreNodeSize then .node (a - coreNodeAt)
  else .nothing

/-- An access to runtime SRAM. -/
def State.coreSram (s : State) (n : Nat) (op : CoreOp) (a bytes : Nat) (v cmp : Word) : State :=
  let old := Mem.readBytes (s.stack n).sram a bytes
  let put (bs : List Byte) (t : State) : State :=
    t.modStack n (fun k => { k with sram := Mem.writeBytes k.sram a bs })
  match op with
  | .load => s.emit (.coreData (coreWord old))
  | .store => put (leBytes bytes v.toNat) s
  | .amo sub =>
    put (leBytes bytes (amoNew sub (8 * bytes) (leNat old) (v.toNat % 2 ^ (8 * bytes))
      (cmp.toNat % 2 ^ (8 * bytes)))) (s.emit (.coreData (coreWord old)))

/-- An access to the register block of the core's own stack. -/
def State.coreRegs (s : State) (n c : Nat) (op : CoreOp) (o bytes : Nat) (v cmp : Word) : State :=
  let at_ := 0x1000000 + 0x400000 * n + o
  let who : Requester := .core n c
  match op with
  | .load => s.barAccess who ⟨false, at_, bytes, 0⟩
  | .store => s.barAccess who ⟨true, at_, bytes, v⟩
  | .amo sub =>
    let r := s.readAt who at_ bytes
    (s.barAccess who ⟨false, at_, bytes, 0⟩).barAccess who
      ⟨true, at_, bytes, BitVec.ofNat 64 (amoNew sub (8 * bytes) r.1.toNat (v.toNat % 2 ^ (8 * bytes))
        (cmp.toNat % 2 ^ (8 * bytes)))⟩

/-- An access of a core that executes instructions. -/
def State.coreDo (s : State) (n c : Nat) (op : CoreOp) (a bytes : Nat) (v cmp : Word) : State :=
  match coreWhere a bytes with
  | .sram x => s.coreSram n op x bytes v cmp
  | .regs o => s.coreRegs n c op o bytes v cmp
  | .beat x =>
    match op with
    | .load => s.emit (.coreData (coreWord (((le8 s.coreTime.toNat).drop x).take bytes)))
    | .store | .amo _ => s.coreViolation n op
  | .node off => s.coreNode n ⟨c, op, off, bytes, v, cmp⟩
  | .nothing => s.coreViolation n op

/-- CORE_ACCESS. -/
def execCoreAccess (stack core : Nat) (op : CoreOp) (addr bytes : Nat) (value compare : Word) (s : State) : Res :=
  if stack < 8 ∧ core < 8 then
    whenOk (s.coreActive stack core && decide (0 < bytes) && decide (bytes ≤ 8)) s
      (s.coreDo stack core op addr bytes value compare)
  else noUnit

end Sys2Proof.Machine
end

