-- ==== Sys2Proof/Machine/Dispatch.lean ====
section
/-! DEFINITION. One arm for each command of spec/opcode_table.json: its meaning. -/

namespace Sys2Proof.Machine

open Sys2Proof

/-- The effect of a command on everything but the queue. -/
def exec (i : Instr) (s : State) : Host.Outcome State Fault Refusal :=
  match i with
  | .registerWrite who acc => Sys2Proof.Machine.execRegisterWrite who acc s
  | .beatEdge dt high => Sys2Proof.Machine.execBeatEdge dt high s
  | .beatSet msg parityErr => Sys2Proof.Machine.execBeatSet msg parityErr s
  | .rackSet msg parityErr => Sys2Proof.Machine.execRackSet msg parityErr s
  | .lockedSet => Sys2Proof.Machine.execLockedSet s
  | .beatCheckSend port => Sys2Proof.Machine.execBeatCheckSend port s
  | .beatCheck port farBeat farPhase => Sys2Proof.Machine.execBeatCheck port farBeat farPhase s
  | .beatCheckLapse port => Sys2Proof.Machine.execBeatCheckLapse port s
  | .beatGapTimeout dt => Sys2Proof.Machine.execBeatGapTimeout dt s
  | .beatFreqWindow => Sys2Proof.Machine.execBeatFreqWindow s
  | .lostLimitExpire dt => Sys2Proof.Machine.execLostLimitExpire dt s
  | .beatReturnCompare => Sys2Proof.Machine.execBeatReturnCompare s
  | .cvt c f => Sys2Proof.Machine.execCvt c f s
  | .cvtb c f => Sys2Proof.Machine.execCvtb c f s
  | .cvtu c f => Sys2Proof.Machine.execCvtu c f s
  | .bundleIssue stack bench => Sys2Proof.Machine.execBundleIssue stack bench s
  | .nop c => Sys2Proof.Machine.execNop c s
  | .sli c f => Sys2Proof.Machine.execSli c f s
  | .slih c f => Sys2Proof.Machine.execSlih c f s
  | .sadd c f => Sys2Proof.Machine.execSadd c f s
  | .saddi c f => Sys2Proof.Machine.execSaddi c f s
  | .ssub c f => Sys2Proof.Machine.execSsub c f s
  | .smul c f => Sys2Proof.Machine.execSmul c f s
  | .sand c f => Sys2Proof.Machine.execSand c f s
  | .sor c f => Sys2Proof.Machine.execSor c f s
  | .sxor c f => Sys2Proof.Machine.execSxor c f s
  | .sshl c f => Sys2Proof.Machine.execSshl c f s
  | .sshr c f => Sys2Proof.Machine.execSshr c f s
  | .scmplt c f => Sys2Proof.Machine.execScmplt c f s
  | .jmp c f => Sys2Proof.Machine.execJmp c f s
  | .brz c f => Sys2Proof.Machine.execBrz c f s
  | .brnz c f => Sys2Proof.Machine.execBrnz c f s
  | .waitf c f => Sys2Proof.Machine.execWaitf c f s
  | .waitfRelease c => Sys2Proof.Machine.execWaitfRelease c s
  | .waitb c f => Sys2Proof.Machine.execWaitb c f s
  | .waitbRelease c => Sys2Proof.Machine.execWaitbRelease c s
  | .getf c f => Sys2Proof.Machine.execGetf c f s
  | .getid c f => Sys2Proof.Machine.execGetid c f s
  | .yield c f => Sys2Proof.Machine.execYield c f s
  | .halt c f => Sys2Proof.Machine.execHalt c f s
  | .haltComplete c => Sys2Proof.Machine.execHaltComplete c s
  | .vld c f => Sys2Proof.Machine.execVld c f s
  | .vst c f => Sys2Proof.Machine.execVst c f s
  | .sld c f => Sys2Proof.Machine.execSld c f s
  | .sst c f => Sys2Proof.Machine.execSst c f s
  | .fld c f => Sys2Proof.Machine.execFld c f s
  | .fst c f => Sys2Proof.Machine.execFst c f s
  | .fstk c f => Sys2Proof.Machine.execFstk c f s
  | .fatom c f => Sys2Proof.Machine.execFatom c f s
  | .facc c f => Sys2Proof.Machine.execFacc c f s
  | .ffence c f => Sys2Proof.Machine.execFfence c f s
  | .ffenceComplete c => Sys2Proof.Machine.execFfenceComplete c s
  | .lsend c f => Sys2Proof.Machine.execLsend c f s
  | .lrecv c f => Sys2Proof.Machine.execLrecv c f s
  | .lsendd c f => Sys2Proof.Machine.execLsendd c f s
  | .lrecvd c f => Sys2Proof.Machine.execLrecvd c f s
  | .granuleArrive stack bench link bad => Sys2Proof.Machine.execGranuleArrive stack bench link bad s
  | .creditReturn stack bench link => Sys2Proof.Machine.execCreditReturn stack bench link s
  | .vadd c f => Sys2Proof.Machine.execVadd c f s
  | .vsub c f => Sys2Proof.Machine.execVsub c f s
  | .vmul c f => Sys2Proof.Machine.execVmul c f s
  | .vfma c f => Sys2Proof.Machine.execVfma c f s
  | .vdiv c f => Sys2Proof.Machine.execVdiv c f s
  | .vsqrt c f => Sys2Proof.Machine.execVsqrt c f s
  | .vmin c f => Sys2Proof.Machine.execVmin c f s
  | .vmax c f => Sys2Proof.Machine.execVmax c f s
  | .vcmpeq c f => Sys2Proof.Machine.execVcmpeq c f s
  | .vcmplt c f => Sys2Proof.Machine.execVcmplt c f s
  | .vcmple c f => Sys2Proof.Machine.execVcmple c f s
  | .vsel c f => Sys2Proof.Machine.execVsel c f s
  | .vabs c f => Sys2Proof.Machine.execVabs c f s
  | .vneg c f => Sys2Proof.Machine.execVneg c f s
  | .vand c f => Sys2Proof.Machine.execVand c f s
  | .vor c f => Sys2Proof.Machine.execVor c f s
  | .vxor c f => Sys2Proof.Machine.execVxor c f s
  | .vshl c f => Sys2Proof.Machine.execVshl c f s
  | .vshr c f => Sys2Proof.Machine.execVshr c f s
  | .vmovs c f => Sys2Proof.Machine.execVmovs c f s
  | .vperm c f => Sys2Proof.Machine.execVperm c f s
  | .vbcast c f => Sys2Proof.Machine.execVbcast c f s
  | .vrsum c f => Sys2Proof.Machine.execVrsum c f s
  | .vrmax c f => Sys2Proof.Machine.execVrmax c f s
  | .vexp2 c f => Sys2Proof.Machine.execVexp2 c f s
  | .vlog2 c f => Sys2Proof.Machine.execVlog2 c f s
  | .vrcpa c f => Sys2Proof.Machine.execVrcpa c f s
  | .vrsqa c f => Sys2Proof.Machine.execVrsqa c f s
  | .vtanh c f => Sys2Proof.Machine.execVtanh c f s
  | .vsigm c f => Sys2Proof.Machine.execVsigm c f s
  | .vext c f => Sys2Proof.Machine.execVext c f s
  | .azero c f => Sys2Proof.Machine.execAzero c f s
  | .amma c f => Sys2Proof.Machine.execAmma c f s
  | .adrain c f => Sys2Proof.Machine.execAdrain c f s
  | .aload c f => Sys2Proof.Machine.execAload c f s
  | .ctxWatchdogExpire c => Sys2Proof.Machine.execCtxWatchdogExpire c s
  | .wdogIntervalWrite who stack value => Sys2Proof.Machine.execWdogIntervalWrite who stack value s
  | .resume who c => Sys2Proof.Machine.execResume who c s
  | .kill who c => Sys2Proof.Machine.execKill who c s
  | .killedDrained c => Sys2Proof.Machine.execKilledDrained c s
  | .fabricReplyToContext stack req => Sys2Proof.Machine.execFabricReplyToContext stack req s
  | .jobWrite who stack bench value => Sys2Proof.Machine.execJobWrite who stack bench value s
  | .clockEvaluation temps => Sys2Proof.Machine.execClockEvaluation temps s
  | .applyClockStep stack => Sys2Proof.Machine.execApplyClockStep stack s
  | .reseatGo who stack => Sys2Proof.Machine.execReseatGo who stack s
  | .reseatDone stack => Sys2Proof.Machine.execReseatDone stack s
  | .runtimeGo who stack value => Sys2Proof.Machine.execRuntimeGo who stack value s
  | .runtimeCopyDone stack => Sys2Proof.Machine.execRuntimeCopyDone stack s
  | .coreAccess stack core op addr bytes value compare => Sys2Proof.Machine.execCoreAccess stack core op addr bytes value compare s
  | .coreWdogWarn stack core => Sys2Proof.Machine.execCoreWdogWarn stack core s
  | .coreWdogHung stack core => Sys2Proof.Machine.execCoreWdogHung stack core s
  | .kick who stack core => Sys2Proof.Machine.execKick who stack core s
  | .restart who stack core => Sys2Proof.Machine.execRestart who stack core s
  | .dringCfgWrite who stack ring value => Sys2Proof.Machine.execDringCfgWrite who stack ring value s
  | .dringDoorbell who stack ring value => Sys2Proof.Machine.execDringDoorbell who stack ring value s
  | .ringEnable who ring value => Sys2Proof.Machine.execRingEnable who ring value s
  | .ringDisable who ring value => Sys2Proof.Machine.execRingDisable who ring value s
  | .doorbellSnoop ring written => Sys2Proof.Machine.execDoorbellSnoop ring written s
  | .doorbellReadDone ring cxlErr => Sys2Proof.Machine.execDoorbellReadDone ring cxlErr s
  | .doorbellPoll ring => Sys2Proof.Machine.execDoorbellPoll ring s
  | .descriptorFetch ring cxlErr => Sys2Proof.Machine.execDescriptorFetch ring cxlErr s
  | .descriptorStart desc => Sys2Proof.Machine.execDescriptorStart desc s
  | .copy desc => Sys2Proof.Machine.execCopy desc s
  | .fill desc => Sys2Proof.Machine.execFill desc s
  | .launch desc => Sys2Proof.Machine.execLaunch desc s
  | .launchComplete desc => Sys2Proof.Machine.execLaunchComplete desc s
  | .collective desc => Sys2Proof.Machine.execCollective desc s
  | .fence desc => Sys2Proof.Machine.execFence desc s
  | .keystone desc => Sys2Proof.Machine.execKeystone desc s
  | .waitBeat desc => Sys2Proof.Machine.execWaitBeat desc s
  | .waitBeatRelease desc => Sys2Proof.Machine.execWaitBeatRelease desc s
  | .atBeat desc => Sys2Proof.Machine.execAtBeat desc s
  | .atBeatRelease desc => Sys2Proof.Machine.execAtBeatRelease desc s
  | .spanOpen desc => Sys2Proof.Machine.execSpanOpen desc s
  | .spanClose desc => Sys2Proof.Machine.execSpanClose desc s
  | .snapshot desc => Sys2Proof.Machine.execSnapshot desc s
  | .snapshotStart desc => Sys2Proof.Machine.execSnapshotStart desc s
  | .attest desc => Sys2Proof.Machine.execAttest desc s
  | .invalidate desc => Sys2Proof.Machine.execInvalidate desc s
  | .nopDescriptor desc => Sys2Proof.Machine.execNopDescriptor desc s
  | .completionWrite desc cxlErr => Sys2Proof.Machine.execCompletionWrite desc cxlErr s
  | .walkStart stack req => Sys2Proof.Machine.execWalkStart stack req s
  | .walkComplete stack ctx page => Sys2Proof.Machine.execWalkComplete stack ctx page s
  | .heldFaultWrite stack => Sys2Proof.Machine.execHeldFaultWrite stack s
  | .faultRetry who stack seq => Sys2Proof.Machine.execFaultRetry who stack seq s
  | .faultFail who stack seq => Sys2Proof.Machine.execFaultFail who stack seq s
  | .fqCfgWrite who stack value => Sys2Proof.Machine.execFqCfgWrite who stack value s
  | .contextWrite who stack ctx value => Sys2Proof.Machine.execContextWrite who stack ctx value s
  | .shootdownDrainDone stack id => Sys2Proof.Machine.execShootdownDrainDone stack id s
  | .load stack pkt => Sys2Proof.Machine.execLoad stack pkt s
  | .store stack pkt => Sys2Proof.Machine.execStore stack pkt s
  | .routedKeystone stack pkt => Sys2Proof.Machine.execRoutedKeystone stack pkt s
  | .atomic stack pkt => Sys2Proof.Machine.execAtomic stack pkt s
  | .accum stack pkt => Sys2Proof.Machine.execAccum stack pkt s
  | .lineServe stack line => Sys2Proof.Machine.execLineServe stack line s
  | .ack stack pkt => Sys2Proof.Machine.execAck stack pkt s
  | .data stack pkt => Sys2Proof.Machine.execData stack pkt s
  | .atomicReply stack pkt => Sys2Proof.Machine.execAtomicReply stack pkt s
  | .keystoneRelease stack req => Sys2Proof.Machine.execKeystoneRelease stack req s
  | .resendTimer stack req => Sys2Proof.Machine.execResendTimer stack req s
  | .deadTimer stack req => Sys2Proof.Machine.execDeadTimer stack req s
  | .dead stack pkt => Sys2Proof.Machine.execDead stack pkt s
  | .cwinCfgWrite who stack value => Sys2Proof.Machine.execCwinCfgWrite who stack value s
  | .cwinDrainDone stack => Sys2Proof.Machine.execCwinDrainDone stack s
  | .invalAck stack pkt => Sys2Proof.Machine.execInvalAck stack pkt s
  | .invalResendTimer stack number => Sys2Proof.Machine.execInvalResendTimer stack number s
  | .resetMax who stack => Sys2Proof.Machine.execResetMax who stack s
  | .packetForward port => Sys2Proof.Machine.execPacketForward port s
  | .egressCharge port queue => Sys2Proof.Machine.execEgressCharge port queue s
  | .requestInject stack req => Sys2Proof.Machine.execRequestInject stack req s
  | .throttleAdjust stack => Sys2Proof.Machine.execThrottleAdjust stack s
  | .spanGrant src stack span label epoch => Sys2Proof.Machine.execSpanGrant src stack span label epoch s
  | .spanRefuse src stack span reason => Sys2Proof.Machine.execSpanRefuse src stack span reason s
  | .spanGrantTimeout stack span => Sys2Proof.Machine.execSpanGrantTimeout stack span s
  | .spanActivate stack span => Sys2Proof.Machine.execSpanActivate stack span s
  | .spanCloseBeat stack span => Sys2Proof.Machine.execSpanCloseBeat stack span s
  | .spanEntrySet src m => Sys2Proof.Machine.execSpanEntrySet src m s
  | .spanEntryClear src inPort label => Sys2Proof.Machine.execSpanEntryClear src inPort label s
  | .spanFrameForward inPort frame => Sys2Proof.Machine.execSpanFrameForward inPort frame s
  | .spanFrame stack frame poisoned => Sys2Proof.Machine.execSpanFrame stack frame poisoned s
  | .drainMarker stack marker => Sys2Proof.Machine.execDrainMarker stack marker s
  | .spanAckTimer stack src span => Sys2Proof.Machine.execSpanAckTimer stack src span s
  | .spanAck stack pkt => Sys2Proof.Machine.execSpanAck stack pkt s
  | .spanSyncTimer stack span => Sys2Proof.Machine.execSpanSyncTimer stack span s
  | .spanSync stack pkt => Sys2Proof.Machine.execSpanSync stack pkt s
  | .syncReply stack pkt => Sys2Proof.Machine.execSyncReply stack pkt s
  | .spanReroute src stack span label epoch planned => Sys2Proof.Machine.execSpanReroute src stack span label epoch planned s
  | .spanBroken stack pkt => Sys2Proof.Machine.execSpanBroken stack pkt s
  | .spanPauseTimeout stack span => Sys2Proof.Machine.execSpanPauseTimeout stack span s
  | .auditPassEnd lost doubled wrong unlisted => Sys2Proof.Machine.execAuditPassEnd lost doubled wrong unlisted s
  | .trestleEntrySet src at_ m => Sys2Proof.Machine.execTrestleEntrySet src at_ m s
  | .trestleEntryClear src at_ entry => Sys2Proof.Machine.execTrestleEntryClear src at_ entry s
  | .fenceSet src node => Sys2Proof.Machine.execFenceSet src node s
  | .fenceClear src node => Sys2Proof.Machine.execFenceClear src node s
  | .multicastFrame entry frame => Sys2Proof.Machine.execMulticastFrame entry frame s
  | .trestleInputFrame at_ entry num frame => Sys2Proof.Machine.execTrestleInputFrame at_ entry num frame s
  | .reductionEvaluate at_ entry => Sys2Proof.Machine.execReductionEvaluate at_ entry s
  | .groupGrant src stack group up down => Sys2Proof.Machine.execGroupGrant src stack group up down s
  | .groupRefuse src stack group reason => Sys2Proof.Machine.execGroupRefuse src stack group reason s
  | .groupRequestTimeout stack group => Sys2Proof.Machine.execGroupRequestTimeout stack group s
  | .groupClear src stack group => Sys2Proof.Machine.execGroupClear src stack group s
  | .headerResult stack frame => Sys2Proof.Machine.execHeaderResult stack frame s
  | .dataRoundStart stack group => Sys2Proof.Machine.execDataRoundStart stack group s
  | .chunkFrame stack frame => Sys2Proof.Machine.execChunkFrame stack frame s
  | .tallySend stack group => Sys2Proof.Machine.execTallySend stack group s
  | .tallyResult stack frame => Sys2Proof.Machine.execTallyResult stack frame s
  | .collectiveLimitExpire stack group => Sys2Proof.Machine.execCollectiveLimitExpire stack group s
  | .rowRepair row => Sys2Proof.Machine.execRowRepair row s
  | .rowRepairDone row lines bad => Sys2Proof.Machine.execRowRepairDone row lines bad s
  | .patrolScrub stack far line wrong => Sys2Proof.Machine.execPatrolScrub stack far line wrong s
  | .zeroScrubDone stack => Sys2Proof.Machine.execZeroScrubDone stack s
  | .flitReceive port flit => Sys2Proof.Machine.execFlitReceive port flit s
  | .replay port => Sys2Proof.Machine.execReplay port s
  | .keyChange port => Sys2Proof.Machine.execKeyChange port s
  | .keyChangeTimeout port => Sys2Proof.Machine.execKeyChangeTimeout port s
  | .errorRateWindow port => Sys2Proof.Machine.execErrorRateWindow port s
  | .portTrainStart port => Sys2Proof.Machine.execPortTrainStart port s
  | .cableBringupDone port cable => Sys2Proof.Machine.execCableBringupDone port cable s
  | .dcCheck port pairs crossed => Sys2Proof.Machine.execDcCheck port pairs crossed s
  | .crossRecheck port waited found => Sys2Proof.Machine.execCrossRecheck port waited found s
  | .equaliseDone port lanes => Sys2Proof.Machine.execEqualiseDone port lanes s
  | .paramsDone port farMin farMax farNode farPort farVariant authOk farKey => Sys2Proof.Machine.execParamsDone port farMin farMax farNode farPort farVariant authOk farKey s
  | .checkDone port latency => Sys2Proof.Machine.execCheckDone port latency s
  | .trainStateTimeout port => Sys2Proof.Machine.execTrainStateTimeout port s
  | .trainBackoffExpire port => Sys2Proof.Machine.execTrainBackoffExpire port s
  | .portDown port reason => Sys2Proof.Machine.execPortDown port reason s
  | .retrain who port value => Sys2Proof.Machine.execRetrain who port value s
  | .hold who port value => Sys2Proof.Machine.execHold who port value s
  | .cableFlagPoll port lossOfSignal moduleFault alarms => Sys2Proof.Machine.execCableFlagPoll port lossOfSignal moduleFault alarms s
  | .powerGood volts ms tray slot => Sys2Proof.Machine.execPowerGood volts ms tray slot s
  | .keeperBoot keysOk descriptorOk firmwareOk fwDigest => Sys2Proof.Machine.execKeeperBoot keysOk descriptorOk firmwareOk fwDigest s
  | .stacksOutOfReset => Sys2Proof.Machine.execStacksOutOfReset s
  | .knownAnswerTestsDone failed switchFailed => Sys2Proof.Machine.execKnownAnswerTestsDone failed switchFailed s
  | .defectMergeDone copyA copyB => Sys2Proof.Machine.execDefectMergeDone copyA copyB s
  | .tierTrainingDone results => Sys2Proof.Machine.execTierTrainingDone results s
  | .portTrainingStepEnd budget => Sys2Proof.Machine.execPortTrainingStepEnd budget s
  | .measurementsRecorded => Sys2Proof.Machine.execMeasurementsRecorded s
  | .capRecoveryGo who value => Sys2Proof.Machine.execCapRecoveryGo who value s
  | .recoveryImageCheck size signatureOk flashOk => Sys2Proof.Machine.execRecoveryImageCheck size signatureOk flashOk s
  | .unitFailure unit => Sys2Proof.Machine.execUnitFailure unit s
  | .defectEntryWritten => Sys2Proof.Machine.execDefectEntryWritten s
  | .switchFail => Sys2Proof.Machine.execSwitchFail s
  | .sagSet volts us => Sys2Proof.Machine.execSagSet volts us s
  | .sagClear volts us => Sys2Proof.Machine.execSagClear volts us s
  | .undervoltageReset volts us => Sys2Proof.Machine.execUndervoltageReset volts us s
  | .epo us => Sys2Proof.Machine.execEpo us s
  | .epoRelease => Sys2Proof.Machine.execEpoRelease s
  | .shedAssert us => Sys2Proof.Machine.execShedAssert us s
  | .shedRelease => Sys2Proof.Machine.execShedRelease s
  | .powerEvaluation powerMw demandMw ballast input temps stepMw => Sys2Proof.Machine.execPowerEvaluation powerMw demandMw ballast input temps stepMw s
  | .capAt msg parityErr => Sys2Proof.Machine.execCapAt msg parityErr s
  | .rampAt msg parityErr => Sys2Proof.Machine.execRampAt msg parityErr s
  | .lease msg parityErr => Sys2Proof.Machine.execLease msg parityErr s
  | .capTakesEffect order => Sys2Proof.Machine.execCapTakesEffect order s
  | .rampTakesEffect order => Sys2Proof.Machine.execRampTakesEffect order s
  | .leaseLapse => Sys2Proof.Machine.execLeaseLapse s
  | .thermalTrip celsius => Sys2Proof.Machine.execThermalTrip celsius s
  | .statusRead => Sys2Proof.Machine.execStatusRead s
  | .i3cCcc ccc => Sys2Proof.Machine.execI3cCcc ccc s
  | .bind value => Sys2Proof.Machine.execBind value s
  | .release value => Sys2Proof.Machine.execRelease value s
  | .releaseDone stack => Sys2Proof.Machine.execReleaseDone stack s
  | .certs value => Sys2Proof.Machine.execCerts value s
  | .weightsGo who stack value => Sys2Proof.Machine.execWeightsGo who stack value s
  | .weightsDigestDone stack => Sys2Proof.Machine.execWeightsDigestDone stack s
  | .throttleWindowEnd hottest => Sys2Proof.Machine.execThrottleWindowEnd hottest s
  | .debugOpen jtag ir => Sys2Proof.Machine.execDebugOpen jtag ir s
  | .debugClose jtag ir => Sys2Proof.Machine.execDebugClose jtag ir s
  | .debugRegisterAccess ctl => Sys2Proof.Machine.execDebugRegisterAccess ctl s
  | .debugTierAccess ctl => Sys2Proof.Machine.execDebugTierAccess ctl s
  | .debugContextStop ctl => Sys2Proof.Machine.execDebugContextStop ctl s
  | .debugContextRelease ctl => Sys2Proof.Machine.execDebugContextRelease ctl s
  | .debugContextRead ctl => Sys2Proof.Machine.execDebugContextRead ctl s
  | .jtagUpdateDr ctl data => Sys2Proof.Machine.execJtagUpdateDr ctl data s
  | .noticeResendTimer => Sys2Proof.Machine.execNoticeResendTimer s
  | .noticeAck src number => Sys2Proof.Machine.execNoticeAck src number s
  | .teardown src job stackMask => Sys2Proof.Machine.execTeardown src job stackMask s
  | .teardownComplete stack job => Sys2Proof.Machine.execTeardownComplete stack job s
  | .clearDead src node stackMask => Sys2Proof.Machine.execClearDead src node stackMask s
  | .shadowSet src m => Sys2Proof.Machine.execShadowSet src m s
  | .shadowDigest stack src step digest => Sys2Proof.Machine.execShadowDigest stack src step digest s
  | .shadowSwap src stack beat => Sys2Proof.Machine.execShadowSwap src stack beat s
  | .shadowSwapBeat stack => Sys2Proof.Machine.execShadowSwapBeat stack s
  | .rebuild src m => Sys2Proof.Machine.execRebuild src m s
  | .rebuildDone stack request => Sys2Proof.Machine.execRebuildDone stack request s
  | .digestReq src m => Sys2Proof.Machine.execDigestReq src m s
  | .digestDone stack request => Sys2Proof.Machine.execDigestDone stack request s
  | .quietClear who value => Sys2Proof.Machine.execQuietClear who value s
  | .regWrite src tag offset value => Sys2Proof.Machine.execRegWrite src tag offset value s
  | .ucieModuleDrop module => Sys2Proof.Machine.execUcieModuleDrop module s
  | .hartStart stack core args => Sys2Proof.Machine.execHartStart stack core args s
  | .flitSend port => Sys2Proof.Machine.execFlitSend port s
  | .spanFrameSend stack span => Sys2Proof.Machine.execSpanFrameSend stack span s
  | .chunkRefetch port label => Sys2Proof.Machine.execChunkRefetch port label s
  | .unknownSidebandMessage code msg parityErr => Sys2Proof.Machine.execUnknownSidebandMessage code msg parityErr s

end Sys2Proof.Machine
end

