-- ==== Sys2Proof/WellFormed.lean ====
section
/-! DEFINITION. When a command is well formed: every unit it names exists on some variant
(8 stacks, 36 external ports: 01_module_overview.md Table 01-1; 336 logical benches of 8 contexts:
04_benches.md R86), and every operand has a value that its row can
carry. An ill-formed command stands for no event of the hardware. -/

namespace Sys2Proof

def CtxId.wf (c : CtxId) : Bool :=
  decide (c.stack < 8) && decide (c.bench < 336) && decide (c.ctx < 8)

def Requester.wf : Requester → Bool
  | .core n c => decide (n < 8) && decide (c < 8)
  | .bar0 | .fm | .debug => true

/-- 64 host rings (07_rings_and_doorbells.md R192), 8 device-side rings to a stack (06_host_cores.md R181). -/
def RingId.wf : RingId → Bool
  | .host r => decide (r < 64)
  | .dev n r => decide (n < 8) && decide (r < 8)

/-- A routed packet carries at most 8,192 bytes (09_fabric_memory.md Table 09-3). -/
def Packet.wf (p : Packet) : Bool := decide (p.payload.length ≤ 8192)

/-- A span frame carries 8 to 8,192 bytes (10_spans_and_routing.md Table 10-4). -/
def Frame.wf (f : Frame) : Bool := decide (8 ≤ f.payload.length) && decide (f.payload.length ≤ 8192)

def itemWf : Packet ⊕ Frame → Bool
  | .inl p => p.wf
  | .inr f => f.wf

def Flit.wf (f : Flit) : Bool := f.items.all itemWf

/-- At most 8 transmit and 8 receive pairs (14_links_and_cables.md R439). -/
def pairsWf (l : List PairDc) : Bool := decide (l.length ≤ 16) && decide ((l.map (fun p => (p.tx, p.pair))).Nodup)

/-- Unit kinds and stacks (15_startup_and_defects.md Table 15-3). -/
def UnitId.wf (u : UnitId) : Bool := decide (u.stack < 8) && decide (u.index < 2 ^ 16)

def RowId.wf (r : RowId) : Bool := decide (r.stack < 8)

def TierResult.wf (r : TierResult) : Bool := decide (r.stack < 8) && r.badRows.all (·.wf)

/-- Operands of one byte or two (10_spans_and_routing.md Table 10-7). -/
def SpanEntrySet.wf (m : SpanEntrySet) : Bool :=
  decide (m.inPort < 2 ^ 8) && decide (m.outPort < 2 ^ 8) && decide (m.label < 2 ^ 16)
    && decide (m.nextLabel < 2 ^ 16) && decide (m.share < 2 ^ 8) && decide (m.cells < 2 ^ 16)

/-- Six items follow the fields (11_switch_die.md Table 11-4). -/
def TrestleSet.wf (m : TrestleSet) : Bool :=
  decide (m.entry < 2 ^ 16) && decide (m.port < 2 ^ 8) && decide (m.label < 2 ^ 16)
    && decide (m.items.length = 6)

def RegionReq.wf (m : RegionReq) : Bool :=
  decide (m.stack < 8) && decide (m.tier < 2) && decide (m.offset < 2 ^ 48) && decide (m.length < 2 ^ 48)
    && decide (m.dstOffset < 2 ^ 48)

def ShadowSet.wf (m : ShadowSet) : Bool := decide (m.stack < 8) && decide (m.role < 2 ^ 8)

/-- The check of a whole command. The writes of one cycle are to one register (19_register_map.md R546). -/
def Instr.wf : Instr → Bool
  | .registerWrite who acc => who.wf && match acc with
    | .one _ => true
    | .together a others => a.write && others.all (fun x => x.1.wf && x.2.write && x.2.offset / 8 == a.offset / 8)
  | .beatEdge _ _ => true
  | .beatSet msg _ => decide (msg.body.length ≤ 64)
  | .rackSet msg _ => decide (msg.body.length ≤ 64)
  | .lockedSet => true
  | .beatCheckSend port => decide (port < 36)
  | .beatCheck port _ farPhase => decide (port < 36) && decide (farPhase < 256)
  | .beatCheckLapse port => decide (port < 36)
  | .beatGapTimeout _ => true
  | .beatFreqWindow => true
  | .lostLimitExpire _ => true
  | .beatReturnCompare => true
  | .cvt c _ => c.wf
  | .cvtb c _ => c.wf
  | .cvtu c _ => c.wf
  | .bundleIssue stack bench => decide (stack < 8) && decide (bench < 336)
  | .nop c => c.wf
  | .sli c _ => c.wf
  | .slih c _ => c.wf
  | .sadd c _ => c.wf
  | .saddi c _ => c.wf
  | .ssub c _ => c.wf
  | .smul c _ => c.wf
  | .sand c _ => c.wf
  | .sor c _ => c.wf
  | .sxor c _ => c.wf
  | .sshl c _ => c.wf
  | .sshr c _ => c.wf
  | .scmplt c _ => c.wf
  | .jmp c _ => c.wf
  | .brz c _ => c.wf
  | .brnz c _ => c.wf
  | .waitf c _ => c.wf
  | .waitfRelease c => c.wf
  | .waitb c _ => c.wf
  | .waitbRelease c => c.wf
  | .getf c _ => c.wf
  | .getid c _ => c.wf
  | .yield c _ => c.wf
  | .halt c _ => c.wf
  | .haltComplete c => c.wf
  | .vld c _ => c.wf
  | .vst c _ => c.wf
  | .sld c _ => c.wf
  | .sst c _ => c.wf
  | .fld c _ => c.wf
  | .fst c _ => c.wf
  | .fstk c _ => c.wf
  | .fatom c _ => c.wf
  | .facc c _ => c.wf
  | .ffence c _ => c.wf
  | .ffenceComplete c => c.wf
  | .lsend c _ => c.wf
  | .lrecv c _ => c.wf
  | .lsendd c _ => c.wf
  | .lrecvd c _ => c.wf
  | .granuleArrive stack bench link _ => decide (stack < 8) && decide (bench < 336) && decide (link < 4)
  | .creditReturn stack bench link => decide (stack < 8) && decide (bench < 336) && decide (link < 4)
  | .vadd c _ => c.wf
  | .vsub c _ => c.wf
  | .vmul c _ => c.wf
  | .vfma c _ => c.wf
  | .vdiv c _ => c.wf
  | .vsqrt c _ => c.wf
  | .vmin c _ => c.wf
  | .vmax c _ => c.wf
  | .vcmpeq c _ => c.wf
  | .vcmplt c _ => c.wf
  | .vcmple c _ => c.wf
  | .vsel c _ => c.wf
  | .vabs c _ => c.wf
  | .vneg c _ => c.wf
  | .vand c _ => c.wf
  | .vor c _ => c.wf
  | .vxor c _ => c.wf
  | .vshl c _ => c.wf
  | .vshr c _ => c.wf
  | .vmovs c _ => c.wf
  | .vperm c _ => c.wf
  | .vbcast c _ => c.wf
  | .vrsum c _ => c.wf
  | .vrmax c _ => c.wf
  | .vexp2 c _ => c.wf
  | .vlog2 c _ => c.wf
  | .vrcpa c _ => c.wf
  | .vrsqa c _ => c.wf
  | .vtanh c _ => c.wf
  | .vsigm c _ => c.wf
  | .vext c _ => c.wf
  | .azero c _ => c.wf
  | .amma c _ => c.wf
  | .adrain c _ => c.wf
  | .aload c _ => c.wf
  | .ctxWatchdogExpire c => c.wf
  | .wdogIntervalWrite who stack _ => who.wf && decide (stack < 8)
  | .resume who c => who.wf && c.wf
  | .kill who c => who.wf && c.wf
  | .killedDrained c => c.wf
  | .fabricReplyToContext stack _ => decide (stack < 8)
  | .jobWrite who stack bench _ => who.wf && decide (stack < 8) && decide (bench < 336)
  | .clockEvaluation _ => true
  | .applyClockStep stack => decide (stack < 8)
  | .reseatGo who stack => who.wf && decide (stack < 8)
  | .reseatDone stack => decide (stack < 8)
  | .runtimeGo who stack _ => who.wf && decide (stack < 8)
  | .runtimeCopyDone stack => decide (stack < 8)
  | .coreAccess stack core _ _ _ _ _ => decide (stack < 8) && decide (core < 8)
  | .coreWdogWarn stack core => decide (stack < 8) && decide (core < 8)
  | .coreWdogHung stack core => decide (stack < 8) && decide (core < 8)
  | .kick who stack core => who.wf && decide (stack < 8) && decide (core < 8)
  | .restart who stack core => who.wf && decide (stack < 8) && decide (core < 8)
  | .dringCfgWrite who stack ring _ => who.wf && decide (stack < 8) && decide (ring < 8)
  | .dringDoorbell who stack ring _ => who.wf && decide (stack < 8) && decide (ring < 8)
  | .ringEnable who ring _ => who.wf && decide (ring < 64)
  | .ringDisable who ring _ => who.wf && decide (ring < 64)
  | .doorbellSnoop ring _ => decide (ring < 64)
  | .doorbellReadDone ring _ => decide (ring < 64)
  | .doorbellPoll ring => decide (ring < 64)
  | .descriptorFetch ring _ => ring.wf
  | .descriptorStart _ => true
  | .copy _ => true
  | .fill _ => true
  | .launch _ => true
  | .launchComplete _ => true
  | .collective _ => true
  | .fence _ => true
  | .keystone _ => true
  | .waitBeat _ => true
  | .waitBeatRelease _ => true
  | .atBeat _ => true
  | .atBeatRelease _ => true
  | .spanOpen _ => true
  | .spanClose _ => true
  | .snapshot _ => true
  | .snapshotStart _ => true
  | .attest _ => true
  | .invalidate _ => true
  | .nopDescriptor _ => true
  | .completionWrite _ _ => true
  | .walkStart stack _ => decide (stack < 8)
  | .walkComplete stack ctx _ => decide (stack < 8) && decide (ctx < 256)
  | .heldFaultWrite stack => decide (stack < 8)
  | .faultRetry who stack _ => who.wf && decide (stack < 8)
  | .faultFail who stack _ => who.wf && decide (stack < 8)
  | .fqCfgWrite who stack _ => who.wf && decide (stack < 8)
  | .contextWrite who stack ctx _ => who.wf && decide (stack < 8) && decide (ctx < 256)
  | .shootdownDrainDone stack _ => decide (stack < 8)
  | .load stack pkt => decide (stack < 8) && pkt.wf
  | .store stack pkt => decide (stack < 8) && pkt.wf
  | .routedKeystone stack pkt => decide (stack < 8) && pkt.wf
  | .atomic stack pkt => decide (stack < 8) && pkt.wf
  | .accum stack pkt => decide (stack < 8) && pkt.wf
  | .lineServe stack _ => decide (stack < 8)
  | .ack stack pkt => decide (stack < 8) && pkt.wf
  | .data stack pkt => decide (stack < 8) && pkt.wf
  | .atomicReply stack pkt => decide (stack < 8) && pkt.wf
  | .keystoneRelease stack _ => decide (stack < 8)
  | .resendTimer stack _ => decide (stack < 8)
  | .deadTimer stack _ => decide (stack < 8)
  | .dead stack pkt => decide (stack < 8) && pkt.wf
  | .cwinCfgWrite who stack _ => who.wf && decide (stack < 8)
  | .cwinDrainDone stack => decide (stack < 8)
  | .invalAck stack pkt => decide (stack < 8) && pkt.wf
  | .invalResendTimer stack _ => decide (stack < 8)
  | .resetMax who stack => who.wf && decide (stack < 8)
  | .packetForward port => decide (port < 82)
  | .egressCharge port queue => decide (port < 82) && decide (queue < 16)
  | .requestInject stack _ => decide (stack < 8)
  | .throttleAdjust stack => decide (stack < 8)
  | .spanGrant _ stack _ _ _ => decide (stack < 8)
  | .spanRefuse _ stack _ _ => decide (stack < 8)
  | .spanGrantTimeout stack _ => decide (stack < 8)
  | .spanActivate stack _ => decide (stack < 8)
  | .spanCloseBeat stack _ => decide (stack < 8)
  | .spanEntrySet _ m => m.wf
  | .spanEntryClear _ inPort _ => decide (inPort < 82)
  | .spanFrameForward inPort frame => decide (inPort < 82) && frame.wf
  | .spanFrame stack frame _ => decide (stack < 8) && frame.wf
  | .drainMarker stack marker => decide (stack < 8) && marker.frame.wf
  | .spanAckTimer stack _ _ => decide (stack < 8)
  | .spanAck stack pkt => decide (stack < 8) && pkt.wf
  | .spanSyncTimer stack _ => decide (stack < 8)
  | .spanSync stack pkt => decide (stack < 8) && pkt.wf
  | .syncReply stack pkt => decide (stack < 8) && pkt.wf
  | .spanReroute _ stack _ _ _ _ => decide (stack < 8)
  | .spanBroken stack pkt => decide (stack < 8) && pkt.wf
  | .spanPauseTimeout stack _ => decide (stack < 8)
  | .auditPassEnd lost doubled wrong unlisted =>
    lost.all (fun c => decide (c.1 < 393216) && decide (c.2 ≠ .free)) && doubled.all (fun c => decide (c.1 < 393216))
      && wrong.all (fun x => decide (x.2 < 1056)) && unlisted.all (fun c => decide (c < 393216))
  | .trestleEntrySet _ at_ m => decide (at_ < 9) && m.wf
  | .trestleEntryClear _ at_ _ => decide (at_ < 9)
  | .fenceSet _ _ => true
  | .fenceClear _ _ => true
  | .multicastFrame _ frame => frame.wf
  | .trestleInputFrame at_ _ num frame => decide (at_ < 9) && decide (num < 16) && frame.wf
  | .reductionEvaluate at_ _ => decide (at_ < 9)
  | .groupGrant _ stack _ _ _ => decide (stack < 8)
  | .groupRefuse _ stack _ _ => decide (stack < 8)
  | .groupRequestTimeout stack _ => decide (stack < 8)
  | .groupClear _ stack _ => decide (stack < 8)
  | .headerResult stack frame => decide (stack < 8) && frame.wf
  | .dataRoundStart stack _ => decide (stack < 8)
  | .chunkFrame stack frame => decide (stack < 8) && frame.wf
  | .tallySend stack _ => decide (stack < 8)
  | .tallyResult stack frame => decide (stack < 8) && frame.wf
  | .collectiveLimitExpire stack _ => decide (stack < 8)
  | .rowRepair row => row.wf
  | .rowRepairDone row _ _ => row.wf
  | .patrolScrub stack _ _ wrong => decide (stack < 8) && decide (wrong ≤ 72)
  | .zeroScrubDone stack => decide (stack < 8)
  | .flitReceive port flit => decide (port < 36) && flit.wf
  | .replay port => decide (port < 36)
  | .keyChange port => decide (port < 36)
  | .keyChangeTimeout port => decide (port < 36)
  | .errorRateWindow port => decide (port < 36)
  | .portTrainStart port => decide (port < 36)
  | .cableBringupDone port _ => decide (port < 36)
  | .dcCheck port pairs _ => decide (port < 36) && pairsWf pairs
  | .crossRecheck port _ found => decide (port < 36) && pairsWf found.pairs
  | .equaliseDone port lanes => decide (port < 36) && decide (lanes.length ≤ 8)
  | .paramsDone port _ _ _ _ _ _ _ => decide (port < 36)
  | .checkDone port _ => decide (port < 36)
  | .trainStateTimeout port => decide (port < 36)
  | .trainBackoffExpire port => decide (port < 36)
  | .portDown port _ => decide (port < 36)
  | .retrain who port _ => who.wf && decide (port < 36)
  | .hold who port _ => who.wf && decide (port < 36)
  | .cableFlagPoll port _ _ _ => decide (port < 36)
  | .powerGood _ _ _ _ => true
  | .keeperBoot _ _ _ _ => true
  | .stacksOutOfReset => true
  | .knownAnswerTestsDone failed _ => failed.all (·.wf)
  | .defectMergeDone _ _ => true
  | .tierTrainingDone results => results.all (·.wf)
  | .portTrainingStepEnd _ => true
  | .measurementsRecorded => true
  | .capRecoveryGo who _ => who.wf
  | .recoveryImageCheck _ _ _ => true
  | .unitFailure unit => unit.wf
  | .defectEntryWritten => true
  | .switchFail => true
  | .sagSet _ _ => true
  | .sagClear _ _ => true
  | .undervoltageReset _ _ => true
  | .epo _ => true
  | .epoRelease => true
  | .shedAssert _ => true
  | .shedRelease => true
  | .powerEvaluation _ _ b _ _ l => decide (l.length = 48) && decide ((b.map (fun x => (x.stack, x.bench))).Nodup)
      && b.all (fun x => decide (x.stack < 8) && decide (x.bench < 336))
  | .capAt msg _ => decide (msg.body.length ≤ 64)
  | .rampAt msg _ => decide (msg.body.length ≤ 64)
  | .lease msg _ => decide (msg.body.length ≤ 64)
  | .capTakesEffect _ => true
  | .rampTakesEffect _ => true
  | .leaseLapse => true
  | .thermalTrip _ => true
  | .statusRead => true
  | .i3cCcc _ => true
  | .bind _ => true
  | .release _ => true
  | .releaseDone stack => decide (stack < 8)
  | .certs _ => true
  | .weightsGo who stack _ => who.wf && decide (stack < 8)
  | .weightsDigestDone stack => decide (stack < 8)
  | .throttleWindowEnd _ => true
  | .debugOpen _ _ => true
  | .debugClose _ _ => true
  | .debugRegisterAccess _ => true
  | .debugTierAccess _ => true
  | .debugContextStop _ => true
  | .debugContextRelease _ => true
  | .debugContextRead _ => true
  | .jtagUpdateDr _ _ => true
  | .noticeResendTimer => true
  | .noticeAck _ _ => true
  | .teardown _ _ _ => true
  | .teardownComplete stack _ => decide (stack < 8)
  | .clearDead _ _ _ => true
  | .shadowSet _ m => m.wf
  | .shadowDigest stack _ _ _ => decide (stack < 8)
  | .shadowSwap _ stack _ => decide (stack < 8)
  | .shadowSwapBeat stack => decide (stack < 8)
  | .rebuild _ m => m.wf
  | .rebuildDone stack _ => decide (stack < 8)
  | .digestReq _ m => m.wf
  | .digestDone stack _ => decide (stack < 8)
  | .quietClear who _ => who.wf
  | .regWrite _ _ _ _ => true
  | .ucieModuleDrop module => decide (module < 4)
  | .hartStart stack core _ => decide (stack < 8) && decide (core < 8)
  | .flitSend port => decide (port < 36)
  | .spanFrameSend stack _ => decide (stack < 8)
  | .chunkRefetch port _ => decide (port < 36)
  | .unknownSidebandMessage _ msg _ => decide (msg.body.length ≤ 64)

end Sys2Proof
end

