-- ==== Sys2Proof/Safety.lean ====
section
/-! DEFINITION. What the claims say of a step: where a command completes, what it writes and what it
leaves as it was. -/

namespace Sys2Proof.Machine

/-- The command answers a next state, and that state has the property. -/
def Completes (i : Instr) (s : State) (P : State → Prop) : Prop := ∃ t, exec i s = .next t ∧ P t

/-- The command answers a next state in which nothing has changed. -/
def NoEffect (i : Instr) (s : State) : Prop := exec i s = .next s

/-! ### Frames of one bench context -/

/-- A context that exists and that runs. -/
def Runs (s : State) (c : CtxId) : Prop := c.wf = true ∧ s.running c = true

/-- Everything outside context `c` is as it was, except the requests that its stack's abutment holds. -/
def SameOutsideCtx (c : CtxId) (s t : State) : Prop :=
  { t with stackTab := s.stackTab } = s
    ∧ (∀ n, n ≠ c.stack → t.stack n = s.stack n)
    ∧ { t.stack c.stack with
          benches := (s.stack c.stack).benches, reqs := (s.stack c.stack).reqs } = s.stack c.stack
    ∧ (∀ b, b ≠ c.bench → t.bench c.stack b = s.bench c.stack b)
    ∧ { t.bench c.stack c.bench with ctxs := (s.bench c.stack c.bench).ctxs } = s.bench c.stack c.bench
    ∧ ∀ j, j ≠ c.ctx → t.ctx ⟨c.stack, c.bench, j⟩ = s.ctx ⟨c.stack, c.bench, j⟩

/-- The requests of the stack are as they were, but that an earlier access no longer writes register `key`
(04_benches.md R93). -/
def ReqsDropped (c : CtxId) (key : Nat) (s t : State) : Prop :=
  (t.stack c.stack).reqs = ((s.stack c.stack).dropDest c.bench c.ctx key).reqs

/-- The context is as it was, but for its scalar registers and the state that it shows. -/
def SameBesideScalars (x y : Ctx) : Prop :=
  { y with sregs := x.sregs, st := x.st, timerAcc := x.timerAcc, timerFrom := x.timerFrom } = x

/-- The context is as it was, but for its vector registers, its generator, its flags and the state that it
shows. -/
def SameBesideVectors (x y : Ctx) : Prop :=
  { y with
      vregs := x.vregs, rng := x.rng, flags := x.flags
      st := x.st, timerAcc := x.timerAcc, timerFrom := x.timerFrom } = x

/-- The context is as it was, but for its masks, its flags and the state that it shows. -/
def SameBesideMasks (x y : Ctx) : Prop :=
  { y with
      kregs := x.kregs, flags := x.flags, st := x.st, timerAcc := x.timerAcc, timerFrom := x.timerFrom } = x

/-- The context is as it was, but for its tile, its flags and the state that it shows. -/
def SameBesideTile (x y : Ctx) : Prop :=
  { y with
      tile := x.tile, tileInt := x.tileInt, flags := x.flags
      st := x.st, timerAcc := x.timerAcc, timerFrom := x.timerFrom } = x

/-- Scalar register `d` holds `v`, and s0 reads zero (04_benches.md R87); nothing else has changed. -/
def ScalarWritten (c : CtxId) (d : Nat) (v : Word) (s t : State) : Prop :=
  (∀ r, (t.ctx c).sreg r = if r = d ∧ d ≠ 0 then v else (s.ctx c).sreg r)
    ∧ SameBesideScalars (s.ctx c) (t.ctx c) ∧ SameOutsideCtx c s t ∧ ReqsDropped c d s t

/-- A 64-bit write finds the state without the lower half that its requester has latched for the register
(19_register_map.md R547). -/
def unlatched (s : State) (who : Requester) (r : Reg) : State := s.dropLatch who r.offset

/-- The lanes of vector register `d` are those of `g`, and every other register's lanes are as they were. -/
def LanesAre (d : Nat) (g : Nat → Lane) (x y : Ctx) : Prop :=
  ∀ v i, i < 64 → y.lane v i = if v = d then g i else x.lane v i

/-- Vector register `d` holds the lanes of `g`; nothing else has changed. -/
def VectorWritten (c : CtxId) (d : Nat) (g : Nat → Lane) (s t : State) : Prop :=
  LanesAre d g (s.ctx c) (t.ctx c)
    ∧ (t.ctx c).rng = (s.ctx c).rng ∧ (t.ctx c).flags = (s.ctx c).flags
    ∧ SameBesideVectors (s.ctx c) (t.ctx c) ∧ SameOutsideCtx c s t ∧ ReqsDropped c (32 + d) s t

/-- The lanes that mask k selects take `g`; the others keep what the register held (04_benches.md R111). -/
def masked (x : Ctx) (f : VForm) (g : Nat → Lane) (i : Nat) : Lane :=
  if (x.mask f.k.toNat).getLsbD i then g i else x.lane f.vd.toNat i

/-- A rounded result is written lane by lane under mask k: one draw of the generator where the rounding is
stochastic (03_number_formats.md R72), and in strict mode the flags of the selected lanes (R77). -/
def RoundedWritten (c : CtxId) (f : VForm) (g : Nat → Rounded) (s t : State) : Prop :=
  LanesAre f.vd.toNat (masked (s.ctx c) f (fun i => BitVec.ofNat 32 (g i).1)) (s.ctx c) (t.ctx c)
    ∧ (t.ctx c).rng = (if f.rnd = 2 then srNext (s.ctx c).rng else (s.ctx c).rng)
    ∧ (t.ctx c).flags = (if f.strict
        then (s.ctx c).flags ||| maskedFlags (s.ctx c) f ((List.range 64).map g)
        else (s.ctx c).flags)
    ∧ SameBesideVectors (s.ctx c) (t.ctx c) ∧ SameOutsideCtx c s t ∧ ReqsDropped c (32 + f.vd.toNat) s t

/-- The element code in lane `i` of a vector register. -/
def code (x : Ctx) (v : BitVec 6) (i : Nat) : Nat := (x.lane v.toNat i).toNat

/-- The random bits of lane `i`: zero where the rounding is not stochastic. -/
def laneDraw (x : Ctx) (f : VForm) (i : Nat) : Nat := if f.rnd = 2 then srBits x.rng i else 0

/-- Context `c` becomes `g` of what it was, but that the state it shows may follow what it now waits for
(04_benches.md Table 04-2); nothing else has changed. -/
def CtxBecomes (c : CtxId) (g : Ctx → Ctx) (s t : State) : Prop :=
  { t.ctx c with
      st := (s.ctx c).st, timerAcc := (s.ctx c).timerAcc, timerFrom := (s.ctx c).timerFrom } = g (s.ctx c)
    ∧ SameOutsideCtx c s t ∧ (t.stack c.stack).reqs = (s.stack c.stack).reqs

/-- What a context that runs or waits shows: the first thing that it waits for (04_benches.md Table 04-2). -/
def ShowsWait (t : State) (c : CtxId) (st : CtxSt) : Prop :=
  ∀ remote : CtxSt, remote = (if (t.stack c.stack).ctxFaulted c.bench c.ctx = true then .waitFault else .waitRemote) →
    st = match (t.ctx c).waits with
      | [] => if t.needsReply c = true then remote else .run
      | .flag _ _ :: _ => .waitFlag
      | .beat _ :: _ => .waitBeat
      | .fence :: _ => remote
      | .halt :: _ => remote
      | .send _ _ :: _ => .waitLink
      | .sendD _ _ _ :: _ => .waitLink
      | .recvV _ _ :: _ => .waitLink
      | .recvD _ _ _ :: _ => .waitLink

/-- Context `c` waits for one kind of thing no longer, and shows what else it waits for; a HUNG one returns to it. -/
def WaitEnds (c : CtxId) (p : Wait → Bool) (s t : State) : Prop :=
  (t.ctx c).waits = (s.ctx c).waits.filter (fun w => !p w)
    ∧ (alive (s.ctx c).st = true → ShowsWait t c (t.ctx c).st)
    ∧ ((s.ctx c).st = .hung → (t.ctx c).st = .hung ∧ ShowsWait t c (t.ctx c).hungFrom)

/-- Context `c` is the one whose turn a direction of a stage link is: its owner, or alone in its queue
(05_spatial_pipelines.md R142). -/
def HasTurn (c : CtxId) (owner : Nat) (queue : List Nat) : Prop :=
  owner = 0 ∧ queue = [c.ctx] ∨ owner = c.ctx + 1 ∧ queue = []

/-- Every other context is as it was. -/
def SameCtxs (c : CtxId) (s t : State) : Prop := ∀ d, d ≠ c → t.ctx d = s.ctx d

/-! ### Registers -/

/-- Every register outside the list is as it was, and so is everything that is no register. -/
def OnlyRegs (l : List Reg) (s t : State) : Prop :=
  (∀ q, q ∉ l → t.reg q = s.reg q) ∧ { t with regs := s.regs } = s

/-- Every register outside the list is as it was. -/
def RegsOutside (l : List Reg) (s t : State) : Prop := ∀ q, q ∉ l → t.reg q = s.reg q

/-- A register whose write has no effect but its own fields'. -/
def PlainReg (r : Reg) : Prop :=
  r ∈ [.HOSTIF_NOTIFY, .BEAT_STATUS, .PWR_EVENTS, .PWR_LIMITS, .CAP_UNITS, .SWC_CELL_CFG, .SWC_ROUTE_CFG, .SWC_TENANT_Q]
    ∨ (∃ k, k < 64 ∧ r ∈ [.SWC_RACK_ROUTE_GW k, .SWC_RACK_ROUTE_VIA k])
    ∨ (∃ p, p < 36 ∧ r ∈ [.PORT_SHARE p, .PORT_FWD p])
    ∨ ∃ n, n < 8 ∧ r ∈ [.MEM_STATUS n, .ABT_THROTTLE n, .HCORE_CFG n, .HCORE_EVT_IDX n]

/-- A write of `v` over the bits `live`: RW bits take it, W1C bits written 1 clear, the others stay, and so does
every other register. -/
def RegBits (r : Reg) (v live : Word) (s t : State) : Prop :=
  (∀ i, i < 64 → (t.reg r).getLsbD i =
    if live.getLsbD i = true ∧ r.access.rw.getLsbD i = true then v.getLsbD i
    else (s.reg r).getLsbD i && !(live.getLsbD i && r.access.w1c.getLsbD i && v.getLsbD i))
    ∧ RegsOutside [r] s t

/-- A write of `v` over the bits `live` that has no effect but its own bits'. -/
def RegWritten (r : Reg) (v live : Word) (s t : State) : Prop :=
  RegBits r v live s t ∧ { t with regs := s.regs, latches := s.latches } = s

/-! ### The drawer -/

/-- The 8-byte word of a context's drawer at address `a`. -/
def drawerWord (s : State) (c : CtxId) (a : Nat) : Word := leWord (s.ctxBytes c a 8)

/-- No word of the access holds an uncorrectable error. -/
def DrawerClean (s : State) (c : CtxId) (a len : Nat) : Prop := s.ctxBad c a len = false

/-- The access of `len` bytes at `a` lies in the drawer at a multiple of `align` (04_benches.md R95). -/
def InDrawer (a align len : Nat) : Prop := a + len ≤ 0x100000 ∧ 0 < len ∧ a % align = 0

/-- A store of context `c`: its drawer holds `bs` from address `a`, and a word that the store covers holds no
error (04_benches.md R587). Every other byte of every drawer, and everything else, is as it was, but
for the generator of the context and the state that it shows. -/
def DrawerWritten (c : CtxId) (a : Nat) (bs : List Byte) (s t : State) : Prop :=
  (∀ k, Mem.read (t.stack c.stack).drawer k =
      if 0x100000 * c.bench + a ≤ k ∧ k < 0x100000 * c.bench + a + bs.length
      then nth 0 bs (k - (0x100000 * c.bench + a)) else Mem.read (s.stack c.stack).drawer k)
    ∧ (∀ w, w ∈ (t.stack c.stack).drawerBad ↔ w ∈ (s.stack c.stack).drawerBad
        ∧ ¬(0x100000 * c.bench + a ≤ 8 * w ∧ 8 * w + 8 ≤ 0x100000 * c.bench + a + bs.length))
    ∧ (∀ w, w ∈ (t.stack c.stack).drawerSoft ↔ w ∈ (s.stack c.stack).drawerSoft
        ∧ ¬(0x100000 * c.bench + a ≤ 8 * w ∧ 8 * w + 8 ≤ 0x100000 * c.bench + a + bs.length))
    ∧ { t with stackTab := s.stackTab } = s
    ∧ (∀ m, m ≠ c.stack → t.stack m = s.stack m)
    ∧ { t.stack c.stack with
          drawer := (s.stack c.stack).drawer, drawerBad := (s.stack c.stack).drawerBad
          drawerSoft := (s.stack c.stack).drawerSoft
          benches := (s.stack c.stack).benches } = s.stack c.stack
    ∧ (∀ b, { t.bench c.stack b with ctxs := (s.bench c.stack b).ctxs } = s.bench c.stack b)
    ∧ (∀ d, d ≠ c → t.ctx d = s.ctx d)
    ∧ { t.ctx c with
          rng := (s.ctx c).rng, st := (s.ctx c).st
          timerAcc := (s.ctx c).timerAcc, timerFrom := (s.ctx c).timerFrom } = s.ctx c

/-! ### Descriptors -/

/-- Descriptor `h` becomes `e`; every other descriptor, and everything that is no descriptor, is as it was. -/
def DescBecomes (h : Nat) (e : Desc) (s t : State) : Prop :=
  t.desc? h = some e ∧ (∀ g, g ≠ h → t.desc? g = s.desc? g)
    ∧ { t with host := s.host } = s ∧ { t.host with descs := s.host.descs } = s.host

/-- An access of the whole segment goes in one request of at most `n` bytes, which crosses no multiple of `n`
(09_fabric_memory.md R272, R277). -/
def OnePiece (n : Nat) (x : Seg) : Prop := 0 < x.len ∧ x.va % n + x.len ≤ n

/-- A descriptor whose effects are acknowledged: its record is to be written. -/
def finishedDesc (d : Desc) : Desc := { d with st := .finished, phase := .idle, engine := 0, waits := [] }

/-- The stack holds one more access of descriptor `d`, after every earlier one: of `len` bytes at the start of
segment `x`, with the payload. -/
def DescAccessHeld (d : Desc) (op : BitVec 8) (x : Seg) (len : Nat) (payload : List Byte) (s t : State) : Prop :=
  ∃ r : Req, (t.stack d.stack).reqs = (s.stack d.stack).reqs ++ [r]
    ∧ r.src = d.src ∧ r.op = op ∧ r.node = x.node ∧ r.offset = x.offset ∧ r.len = len ∧ r.payload = payload
    ∧ r.st = .held

/-- Host memory holds `bs` from address `a`, and is as it was everywhere else. -/
def HostWritten (a : Nat) (bs : List Byte) (s t : State) : Prop :=
  ∀ k, Mem.read t.hostMem k =
    if a ≤ k ∧ k < a + bs.length then nth 0 bs (k - a) else Mem.read s.hostMem k

/-! ### Packets and the tiers -/

/-- One more packet has arrived at the switch from a port, after those that had, and it is as `q` says. -/
def PacketPut (port : Nat) (q : Packet → Prop) (s t : State) : Prop :=
  ∃ p, Tab.get [] t.sw.arrived port = Tab.get [] s.sw.arrived port ++ [p] ∧ q p

/-- A MANAGEMENT message of a type is put out and enters the switch at its own port, behind the packets that wait
there, as a packet of class M with its fields in a 64-byte payload (10_spans_and_routing.md R308, R309, R319). -/
def MgmtSent (src dst : BitVec 16) (type : BitVec 8) (fields : List Byte) (s t : State) : Prop :=
  .mgmt src dst type fields ∈ t.out
    ∧ PacketPut switchPort (fun q => q.src = src ∧ q.dst = dst ∧ q.cls = 2 ∧ q.op = 0x21 ∧ q.param = type
      ∧ q.payload = mgmtPayload type.toNat fields) s t

/-- Every other stack is as it was. -/
def SameStacks (n : Nat) (s t : State) : Prop := ∀ m, m ≠ n → t.stack m = s.stack m

/-- The memory of every stack is as it was. -/
def SameTiers (s t : State) : Prop :=
  ∀ m, (t.stack m).near = (s.stack m).near ∧ (t.stack m).far = (s.stack m).far
    ∧ (t.stack m).drawer = (s.stack m).drawer

/-- A byte of a tier as a read of its line gives it: zero in a BLANK line (13_memory_tiers.md R417). -/
def plainByte (k : Stack) (far : Bool) (a : Nat) : Byte :=
  if k.mark far (a / 128) = markBlank then 0 else Mem.read (k.tier far) a

/-- Consecutive bytes of a tier, as a read gives them. -/
def plainBytes (k : Stack) (far : Bool) (a len : Nat) : List Byte :=
  (List.range len).map (fun i => plainByte k far (a + i))

/-- A tier of stack `n` holds `bs` from offset `o`; every other byte of every tier and drawer is as it was. -/
def TierWritten (n : Nat) (far : Bool) (o : Nat) (bs : List Byte) (s t : State) : Prop :=
  (∀ k, plainByte (t.stack n) far k =
      if o ≤ k ∧ k < o + bs.length then nth 0 bs (k - o) else plainByte (s.stack n) far k)
    ∧ (t.stack n).tier (!far) = (s.stack n).tier (!far) ∧ (t.stack n).drawer = (s.stack n).drawer
    ∧ SameStacks n s t

/-- The packet has come whole, no other stands in an egress queue of the internal port of stack `n`, and no span frame
can be taken there: nothing has the turn to leave before it (10_spans_and_routing.md R321; 11_switch_die.md R353). -/
def PortFree (s : State) (n : Nat) (p : Packet) : Prop :=
  s.hasCome n p = true ∧ s.frameWaits n = false ∧ ∀ q, q < 9 → ∀ k ∈ s.sw.egressQ (64 + n) q, k = p

/-- A request has its turn at its target at once: the stack is bound and has not failed, nothing else leaves the port or
waits for the lines of the request, and no error is found in its cells (09_fabric_memory.md R292; 11_switch_die.md
R350; 17_security_and_tenancy.md R501). -/
def StandsAlone (s : State) (n : Nat) (p : Packet) : Prop :=
  n < 8 ∧ s.serves n = true ∧ PortFree s n p ∧ (s.forwarded p).poison = false ∧ s.sw.merges = []
    ∧ (s.stack n).lineHolds = [] ∧ ∀ line ∈ pktLines p, ∀ q ∈ s.lineWaiters n line, q = p

/-- A request stands alone at its target, passes the target's checks, has not been applied before (a load is served again,
R286), and reaches offset `o` of a tier whose lines hold no error and no POISON, outside every coherent window and every row repair
(09_fabric_memory.md R280, R286 to R288). -/
def Reaches (s : State) (n : Nat) (p : Packet) (far : Bool) (o : Nat) : Prop :=
  StandsAlone s n p ∧ s.targetOk n p = true ∧ jzb2 p.src = false
    ∧ s.whereIs n p.offset.toNat (pktLen p) = (if far then .far o else .near o)
    ∧ (s.stack n).nearErr = [] ∧ (s.stack n).farErr = []
    ∧ (∀ line ∈ linesOf o (pktLen p), (s.stack n).mark far line ≠ markPoison)
    ∧ (s.stack n).repairing = [] ∧ s.windowsOf n = []
    ∧ (p.op = 1 ∨ (s.stack n).applied? p = none)

/-- Some bytes of the drawers of stack `n` hold `bs`, from offset `a` of the drawer window; every other byte of every
drawer and tier is as it was. -/
def DrawersWritten (n a : Nat) (bs : List Byte) (s t : State) : Prop :=
  (∀ k, Mem.read (t.stack n).drawer k =
      if a ≤ k ∧ k < a + bs.length then nth 0 bs (k - a) else Mem.read (s.stack n).drawer k)
    ∧ (t.stack n).near = (s.stack n).near ∧ (t.stack n).far = (s.stack n).far ∧ SameStacks n s t

/-- A request stands alone at its target, passes the target's checks, has not been applied before, and reaches the
drawers of benches that are there, from offset `a` of the drawer window; none of their words holds an error
(04_benches.md R97, R100; 09_fabric_memory.md R287). -/
def ReachesDrawers (s : State) (n : Nat) (p : Packet) (a : Nat) : Prop :=
  StandsAlone s n p ∧ s.targetOk n p = true ∧ jzb2 p.src = false
    ∧ s.whereIs n p.offset.toNat (pktLen p) = .drawer a ∧ s.drawersNamed n a (pktLen p) = true
    ∧ (s.stack n).drawerBad = [] ∧ (s.stack n).drawerSoft = [] ∧ s.windowsOf n = []
    ∧ (p.op = 1 ∨ (s.stack n).applied? p = none)

/-- A request that reaches nothing which it may act on: no memory (09_fabric_memory.md R267), a bench that there is not or
that is vacant (04_benches.md R97, 05_spatial_pipelines.md R160), or the control page other than by a load. -/
def NamesNothing (s : State) (n : Nat) (p : Packet) : Prop :=
  s.whereIs n p.offset.toNat (pktLen p) = .nothing
    ∨ (∃ a, s.whereIs n p.offset.toNat (pktLen p) = .drawer a ∧ s.drawersNamed n a (pktLen p) = false
        ∧ (p.op = 4 → a % pktAtomicBytes p = 0))
    ∨ (∃ a, s.whereIs n p.offset.toNat (pktLen p) = .control a) ∧ p.op ≠ 1

/-- The answer of a request goes back to its source under its sequence number. -/
def Answers (n : Nat) (p : Packet) (op : BitVec 8) (bytes : List Byte) (s t : State) : Prop :=
  PacketPut (64 + n) (fun q => q.dst = p.src ∧ q.src = p.dst ∧ q.cls = 1 ∧ q.op = op ∧ q.seq = p.seq
    ∧ q.mark = p.mark ∧ q.poison = false ∧ q.payload = bytes) s t

/-- A notice of a cause, a stack and further bytes is held for the fabric manager. -/
def NoticeHeld (cause stack : Nat) (fields : List Byte) (t : State) : Prop :=
  ∃ m ∈ t.host.notices, m.cause.toNat = cause ∧ m.stack.toNat = stack ∧ m.fields = fields

/-! ### Power -/

/-- The power limit that R476 gives for a cap: the least of the figures in force, between FLOOR and the TDP
(16_power.md Table 16-2). `safe` puts the safe cap in force, `low` the shed level. -/
def limitOf (s : State) (cap : Nat) (safe low : Bool) : Nat :=
  max (s.fld .PWR_LIMITS PWR_LIMITS_FLOOR)
    (min (tdp s.variant) (min cap (min (if safe then s.fld .PWR_LIMITS PWR_LIMITS_SAFE_CAP else cap)
      (if low then s.fld .PWR_LIMITS PWR_LIMITS_SHED_LEVEL else cap))))

/-- The power stages are open: LAST_OFF says why, and every other register, every stack, every port and the switch
are as at reset. The defect list in flash and host memory stay (16_power.md R475; 15_startup_and_defects.md R464). -/
def PoweredOff (lastOff : Nat) (s t : State) : Prop :=
  t.boot.powered = false ∧ t.fld .PWR_EVENTS PWR_EVENTS_LAST_OFF = lastOff
    ∧ (∀ q, q ≠ .PWR_EVENTS → t.reg q = q.reset s.variant)
    ∧ t.stackTab = State.reset.stackTab ∧ t.ports = State.reset.ports ∧ t.sw = State.reset.sw
    ∧ t.power = State.reset.power ∧ t.keeper = State.reset.keeper
    ∧ t.boot.defects = s.boot.defects ∧ t.hostMem = s.hostMem

/-- The bus acknowledges a private write of a code and records its result (20_module_connector.md R571). -/
def I3cAnswered (code result : Nat) (t : State) : Prop :=
  .i3cAck ∈ t.out ∧ t.boot.i3cCode.toNat = code ∧ t.boot.i3cResult.toNat = result

/-! ### Ports -/

/-- A port enters a state now; the other ports, the stacks and the switch are as they were, but for the notice that
enters the switch (14_links_and_cables.md R443). -/
def PortEnters (p st : Nat) (s t : State) : Prop :=
  t.portState p = st ∧ (t.port p).since = s.now
    ∧ (∀ q, q ≠ p → t.port q = s.port q ∧ t.reg (.PORT_STATUS q) = s.reg (.PORT_STATUS q))
    ∧ { t.sw with arrived := s.sw.arrived } = s.sw ∧ t.stackTab = s.stackTab

/-- An attempt ends as a failure with a reason: the port waits, and the next wait is longer
(14_links_and_cables.md R442). -/
def AttemptFails (p reason : Nat) (s t : State) : Prop :=
  PortEnters p 7 s t ∧ t.portFld p PORT_STATUS_REASON = reason
    ∧ t.portFld p PORT_STATUS_ATTEMPTS = min 255 (s.portFld p PORT_STATUS_ATTEMPTS + 1)
    ∧ t.portFld p PORT_STATUS_WIDTH = 0 ∧ t.portFld p PORT_STATUS_JFP = 0
    ∧ (t.port p).backoff = (s.port p).backoff + 1

/-- No routed packet is queued on the port or bound for it, and no span uses it. -/
def PortIdle (p : Nat) (s : State) : Prop :=
  (∀ q, q < 9 → s.sw.egressQ p q = []) ∧ (∀ e ∈ s.sw.ingress, ∀ w ∈ e.2, w.egress ≠ p)
    ∧ ∀ e ∈ s.sw.spanTab, e.inPort ≠ p ∧ e.outPort ≠ p

/-- The port leaves UP with a reason: it is narrowed to nothing, and its replay buffer, its keys, what it was
sending and the frames queued on it are gone (14_links_and_cables.md R444). -/
def LeavesUp (p st reason : Nat) (s t : State) : Prop :=
  t.portState p = st ∧ t.portFld p PORT_STATUS_REASON = reason ∧ t.portFld p PORT_STATUS_WIDTH = 0
    ∧ t.portFld p PORT_STATUS_JFP = 0
    ∧ t.fld (.PORT_ERR p) PORT_ERR_RETRAINS = min 255 (s.fld (.PORT_ERR p) PORT_ERR_RETRAINS + 1)
    ∧ (t.port p).replay = [] ∧ (t.port p).txKey = [] ∧ (t.port p).rxKey = [] ∧ (t.port p).txItem = none
    ∧ t.sw.framesAt p = []

/-! ### The form of memory -/

/-- The memories of a stack are in their canonical form. -/
def Stack.memWf (k : Stack) : Bool := Mem.wf k.near && Mem.wf k.far && Mem.wf k.drawer && Mem.wf k.sram

/-- The host memory and the memories of every stack in a table are in their canonical form. -/
def memsWf (host : Mem) (stackTab : Tab Stack) : Prop :=
  Mem.wf host = true ∧ ∀ n, (Tab.get Stack.reset stackTab n).memWf = true

/-- Every memory of the machine is in its canonical form: addresses strictly rising, and no byte listed that an
unlisted address reads as. -/
def State.memWf (s : State) : Prop := memsWf s.hostMem s.stackTab

/-! ### Collectives -/

/-- A chunk frame of a round stands at the front of its label at a member's abutment; it passes its check, and it
is of the collective that its group runs (12_collectives.md R394, R400, R406). -/
def DownFrame (s : State) (n round : Nat) (f : Frame) (x : Group) (c : Coll) : Prop :=
  n < 8 ∧ s.downGroup n f = some x ∧ isChunk f = true ∧ chunkRound f = round
    ∧ s.sw.headFrame (64 + n) f = true ∧ chunkCrcOk f = true ∧ s.cellsBad (.inr f) = false ∧ f.tenant.toNat = s.tenantOf n
    ∧ s.coll? n x.id = some c ∧ chunkInst f = c.inst.toNat

/-- Descriptor `h` has ended with a status and a detail: its record is to be written. -/
def DescEnded (h : Nat) (status : BitVec 8) (detail : BitVec 32) (t : State) : Prop :=
  ∃ e, t.desc? h = some e ∧ e.st = .finished ∧ e.status = status ∧ e.detail = detail

/-- The answer `p` of the last outstanding load of a LAUNCH brings the rest of its image; `e` is its descriptor with the
whole image (04_benches.md R134). -/
def ImageCame (s : State) (n : Nat) (p : Packet) (d e : Desc) : Prop :=
  n < 8 ∧ d.stack = n ∧ s.desc? d.handle = some d ∧ d.opcode = 3 ∧ d.st = .running ∧ d.phase = .source ∧ d.status = 0
    ∧ p.op = 0x11 ∧ PortFree s n p ∧ (s.forwarded p).poison = false
    ∧ (∃ r, (s.stack n).matching p [1] = some r ∧ s.descReqs d = [r]
      ∧ e = { d with data := d.data ++ (p.payload ++ List.replicate r.len 0).take r.len })
    ∧ e.data.length = s.imageLen e

/-- A descriptor that runs, and of which nothing is at the abutment. -/
def DescHeld (s : State) (h : Nat) (d : Desc) : Prop :=
  s.desc? h = some d ∧ d.st = .running ∧ d.phase = .held ∧ s.descReqs d = []

/-- Nothing waits at a member's abutment, and the cells of its up label have room for so many cells more
(11_switch_die.md R349, R370). -/
def UpRoom (s : State) (n : Nat) (up : BitVec 16) (cells : Nat) : Prop :=
  (s.stack n).upWait = [] ∧ s.sw.entryRoom (64 + n)
    { label := up, kind := 0, ackreq := false, epoch := 0, tenant := 0
      payload := List.replicate (256 * cells - 8) 0 } = true

/-- A member's frames leave its abutment on its up label, in order. -/
def SentUp (n : Nat) (up : BitVec 16) (l : List Frame) (s t : State) : Prop :=
  t.sw.framesAt (164 + n) = s.sw.framesAt (164 + n) ++ l.map (fun f => { f with label := up })

/-! ### Fabric accesses of a context -/

/-- The look-aside buffer of the stack translates the whole access to one page, with the right that the
operation needs, to a node of the fabric; the stack takes no part in shadowing (09_fabric_memory.md R272, R287;
18_faults_and_recovery.md R535). -/
def Translated (s : State) (c : CtxId) (op : BitVec 8) (va : Word) (len : Nat) (e : TlbEntry) : Prop :=
  (s.stack c.stack).lookup (s.ctx c).xctx va.toNat = .hit e
    ∧ 0 < len ∧ len ≤ e.left va.toNat ∧ hasRight e.rights op = true
    ∧ e.node ≠ 0xFFFF ∧ jzb2 e.node = false ∧ s.role c.stack = 0

/-- What an access leaves as it was: the registers, the other stacks and contexts, every memory, and of its own
context all but the scalar and vector registers, the mark that its bundle leaves the bench, and the state that it
shows. -/
def AccessFrame (c : CtxId) (s t : State) : Prop :=
  t.regs = s.regs ∧ t.sw = s.sw ∧ t.hostMem = s.hostMem ∧ t.host = s.host ∧ SameStacks c.stack s t ∧ SameTiers s t
    ∧ SameCtxs c s t
    ∧ { t.ctx c with
          sregs := (s.ctx c).sregs, vregs := (s.ctx c).vregs, left := (s.ctx c).left, st := (s.ctx c).st
          timerAcc := (s.ctx c).timerAcc, timerFrom := (s.ctx c).timerFrom } = s.ctx c

/-- The access stands at the source abutment, translated, after every earlier one, with the spans that were active
when it issued (05_spatial_pipelines.md R147); an earlier access no longer writes register `dest` (04_benches.md
R93). -/
def AccessHeld (c : CtxId) (op param : BitVec 8) (va : Word) (len : Nat) (payload : List Byte) (e : TlbEntry)
    (dest : Nat) (s t : State) : Prop :=
  ∃ r : Req, (t.stack c.stack).reqs = ((s.stack c.stack).dropDest c.bench c.ctx dest).reqs ++ [r]
    ∧ r.src = .ctx c.bench c.ctx ∧ r.op = op ∧ r.param = param ∧ r.va = va.toNat ∧ r.len = len
    ∧ r.payload = payload ∧ r.st = .held ∧ r.node = e.node ∧ r.offset = e.base + (va.toNat - e.va)
    ∧ r.dest = dest ∧ r.span = 0 ∧ r.offers = (s.stack c.stack).offered c.bench ∧ r.bad = false
    ∧ AccessFrame c s t

/-- The word at an index of a translation table in the near tier. -/
def TableWord (s : State) (n table i : Nat) : Word := Mem.readWord (s.stack n).near (table + 8 * i)

/-- A walk is under way whose context is enabled, and the walk cache holds the table of a level for its page: a sound
table in the near tier (08_translation.md R243). -/
def WalkHeld (s : State) (n : Nat) (w : Walk) (p : WalkPtr) (level : Nat) : Prop :=
  (s.stack n).walks.find? (fun x => x.ctx == w.ctx && x.page == w.page) = some w ∧ w.page < 2 ^ 45
    ∧ s.bit (.XLT_CTX n w.ctx) XLT_CTX_ENABLE = true ∧ (s.stack n).walkCache = [p] ∧ p.ctx = w.ctx ∧ p.level = level
    ∧ p.va / (4096 * 512 ^ (level + 1)) = 4096 * w.page / (4096 * 512 ^ (level + 1))
    ∧ p.table + 4096 ≤ s.nearSize n ∧ p.table % 4096 = 0 ∧ (s.stack n).nearErr = [] ∧ (s.stack n).repairing = []
    ∧ (s.stack n).mark false ((p.table + 8 * (4096 * w.page / (4096 * 512 ^ level) % 512)) / 128) = markData

/-- A waiter whose translation has missed joins the open fault of its page, or the walk of its page, or stands behind
the other misses (08_translation.md R244, R245); `k` is the stack before, `l` after. -/
def MissWaits (w : Waiter) (ctx page : Nat) (k l : Stack) : Prop :=
  let here (x : Fault8) : Bool := x.ctx == ctx && x.page == page
  let walked (x : Walk) : Bool := x.ctx == ctx && x.page == page
  l.faults = (if k.faults.any here
      then k.faults.map (fun x => if here x then { x with waiters := x.waiters ++ [w] } else x) else k.faults)
    ∧ l.walks = (if k.faults.any here = false ∧ k.walks.any walked = true
      then k.walks.map (fun x => if walked x then { x with waiters := x.waiters ++ [w] } else x) else k.walks)
    ∧ l.misses = (if k.faults.any here = false ∧ k.walks.any walked = false then k.misses ++ [w] else k.misses)

end Sys2Proof.Machine
end

