-- ==== Sys2Proof/Certificates/Slice0/Obligations.lean ====
section
/-! DEFINITION. The statements for the provers: what the numbered rules of the spec say of the commands
and of the state. -/

open Sys2Proof Sys2Proof.Machine

/-! ### The whole block -/

/-- A step takes the command at the front of the queue and runs exec on it with the queue's rest.
A step on an empty queue lets one tick pass and changes nothing else (the model's choice, log entry 1). -/
def Obligations.StepRunsFrontCommand : Prop :=
  (∀ (s : State) (i : Instr) (rest : List Instr),
     step { s with pending := i :: rest } = exec i { s with pending := rest })
  ∧ (∀ s : State, s.pending = [] → step s = .next { s with now := s.now + 1 })

/-- Every command that is well formed answers a next state in every state: no ordinary data ends a run. No command is
refused, and the only fault is that of a unit that no module has. That a command whose condition fails answers a next
state, and that a number no variant has ends in the fault, are the model's choices (log entries 2 and 3). -/
def Obligations.WellFormedCommandsComplete : Prop :=
  (∀ (i : Instr) (s : State), i.wf = true → ∃ t, exec i s = .next t)
  ∧ (∀ (i : Instr) (s : State), (∀ r, exec i s ≠ .refused r) ∧ ∀ e, exec i s = .fault e → i.wf = false)

/-! ### Reset -/

/-- R549, R5, R6, R265, R378, R473, R510, R151: what a reset leaves. Every register that the spec gives a reset value
other than 0 reads it, the presence, power-limit and identity words and the free cells stand by variant, no other register
is listed, the clock steps are 64, the debug-state digest is zeros, and no command waits. That State.reset is a JZK-4X and
that CAP_ID shows revision 0 are the model's choices (log entries 197 and 173). -/
def Obligations.ResetLeavesResetValues : Prop :=
  (State.reset.pending = [] ∧ State.reset.regs = [] ∧ State.reset.keeper.digest = zeros 64
    ∧ State.reset.ready = false ∧ State.reset.stepNo = 1)
  ∧ State.reset.reg .CAP_START = 0x100
  ∧ (∀ n y r p k, State.reset.reg (.PWR_STEP n) = 0x4040 ∧ State.reset.reg (.BCH_CLOCK n) = 0x4040
    ∧ State.reset.reg (.BCH_WDOG_CFG n) = 0xA ∧ State.reset.reg (.BCH_ROW_MAP n y) = 0x1500
    ∧ State.reset.reg (.HCORE_CFG n) = 0xA0000 ∧ State.reset.reg (.MEM_CFG n) = 0x318
    ∧ State.reset.reg (.ABT_THROTTLE n) = 0x0000040002000001 ∧ State.reset.reg (.ABT_COLL_CFG n) = 0x64
    ∧ State.reset.reg (.HOSTIF_RING_STATUS r) = 1 ∧ State.reset.reg (.HOSTIF_RING_CFG r) = 0
    ∧ State.reset.reg (.PORT_CTRL p) = 0x0004000000000040 ∧ State.reset.reg (.PORT_SHARE p) = 0x0000003000040103
    ∧ State.reset.reg (.PORT_STATUS p) = 0 ∧ State.reset.reg (.SWC_QUIET r k) = 0)
  ∧ (∀ n, n < 8 → State.reset.readReg .bar0 (.XLT_STATUS n) = 0x0001000000000000)
  ∧ (∀ v : Variant, ({ State.reset with variant := v } : State).readReg .bar0 .SWC_CELL_STATUS
      = if v = .l then 0x5BE84 else 0x59964)
  ∧ State.reset.reg .SWC_CELL_CFG = 0x0002000000000005 ∧ State.reset.reg .SWC_ROUTE_CFG = 0xFFFF001000002000
  ∧ State.reset.reg .SWC_TENANT_Q = 0x11111111
  ∧ State.reset.reg .CAP_POSITION = 0 ∧ State.reset.reg .SEC_STATUS = 0 ∧ State.reset.reg .BEAT_STATUS = 0
  ∧ Reg.reset .x .CAP_UNITS = 0x0000003FFFFFFFFF ∧ Reg.reset .d .CAP_UNITS = 0x00000017FF5555FF
  ∧ Reg.reset .l .CAP_UNITS = 0x000000030000FF0F
  ∧ Reg.reset .x .PWR_LIMITS = 0x0960064002BC0064 ∧ Reg.reset .d .PWR_LIMITS = 0x089805DC028A0064
  ∧ Reg.reset .l .PWR_LIMITS = 0x04B00320015E0064
  ∧ (∀ v : Variant, Reg.reset v .CAP_ID = BitVec.ofNat 64 (0x0042420000000000 + variantCode v))
  ∧ State.reset.variant = .x ∧ State.reset.reg .CAP_ID = Reg.reset .x .CAP_ID
  ∧ State.reset.reg .CAP_UNITS = Reg.reset .x .CAP_UNITS ∧ State.reset.reg .PWR_LIMITS = Reg.reset .x .PWR_LIMITS
  ∧ (∀ p k, State.reset.reg (.PORT_RED p k) = if k = 1 then 0x0200040000400000
      else if k = 2 then 0x0080020000FF0000 else 0x0100000000000000)

/-- Every memory of the block is in its canonical form after a reset: addresses rise and no entry equals what an
unlisted address reads as (the model's form of memory, log entry 9). -/
def Obligations.ResetMemoriesCanonical : Prop := State.reset.memWf

/-- A step keeps every memory of the block in its canonical form: the host's, and the tiers, drawer and runtime
SRAM of each stack (the model's form of memory, log entry 9). -/
def Obligations.StepKeepsMemoriesCanonical : Prop :=
  ∀ s t : State, s.memWf → step s = .next t → t.memWf

/-! ### Scalar and control instructions of a bench -/

/-- R105, R103, R104: each scalar instruction of a running context completes: SLI, SLIH, SADD, SADDI, SSUB, SMUL,
SAND, SOR, SXOR, SSHL, SSHR, SCMPLT, GETF and GETID write the result of Table 04-8 from the registers as they
stood at issue; s0 keeps reading zero, and nothing else changes.
R103, R105: so does each control instruction: JMP, BRZ and BRNZ set the next bundle; NOP changes nothing; YIELD
marks the bundle as one that leaves the bench; HALT waits for what is outstanding. Of a context that does not run,
each leaves everything as it was (the model's choice, log entry 2). -/
def Obligations.ScalarAndControlInstructions : Prop :=
  (∀ (s : State) (c : CtxId) (f : SForm), Runs s c →
     ∀ a b d i : Word, a = (s.ctx c).sreg f.sa.toNat → b = (s.ctx c).sreg f.sb.toNat →
       d = (s.ctx c).sreg f.sd.toNat → i = f.imm.signExtend 64 →
     Completes (.sli c f) s (ScalarWritten c f.sd.toNat i s)
     ∧ Completes (.slih c f) s (ScalarWritten c f.sd.toNat (f.imm ++ d.extractLsb' 0 32) s)
     ∧ Completes (.sadd c f) s (ScalarWritten c f.sd.toNat (a + b) s)
     ∧ Completes (.saddi c f) s (ScalarWritten c f.sd.toNat (a + i) s)
     ∧ Completes (.ssub c f) s (ScalarWritten c f.sd.toNat (a - b) s)
     ∧ Completes (.smul c f) s (ScalarWritten c f.sd.toNat (a * b) s)
     ∧ Completes (.sand c f) s (ScalarWritten c f.sd.toNat (a &&& b) s)
     ∧ Completes (.sor c f) s (ScalarWritten c f.sd.toNat (a ||| b) s)
     ∧ Completes (.sxor c f) s (ScalarWritten c f.sd.toNat (a ^^^ b) s)
     ∧ Completes (.sshl c f) s (ScalarWritten c f.sd.toNat (a <<< ((b + i).toNat % 64)) s)
     ∧ Completes (.sshr c f) s (ScalarWritten c f.sd.toNat (a >>> ((b + i).toNat % 64)) s)
     ∧ Completes (.scmplt c f) s (ScalarWritten c f.sd.toNat (if a.toInt < b.toInt then 1 else 0) s)
     ∧ Completes (.getf c f) s (ScalarWritten c f.sd.toNat ((s.ctx c).flags.setWidth 64) s)
     ∧ Completes (.getid c f) s (ScalarWritten c f.sd.toNat
         ((s.node c.stack).setWidth 64 <<< 32 ||| BitVec.ofNat 64 c.stack <<< 24
           ||| BitVec.ofNat 64 c.ctx <<< 16 ||| BitVec.ofNat 64 c.bench) s))
  ∧ (∀ (s : State) (c : CtxId) (f : SForm), Runs s c →
       Completes (.nop c) s (CtxBecomes c (fun x => x) s)
       ∧ Completes (.jmp c f) s (CtxBecomes c (fun x => { x with pc := f.imm.toNat }) s)
       ∧ Completes (.brz c f) s (CtxBecomes c (fun x =>
           if x.sreg f.sa.toNat = 0 then { x with pc := f.imm.toNat } else x) s)
       ∧ Completes (.brnz c f) s (CtxBecomes c (fun x =>
           if x.sreg f.sa.toNat = 0 then x else { x with pc := f.imm.toNat }) s)
       ∧ Completes (.yield c f) s (CtxBecomes c (fun x => { x with left := true }) s)
       ∧ Completes (.halt c f) s (CtxBecomes c (fun x => { x with waits := x.waits ++ [.halt] }) s))
  ∧ (∀ (s : State) (c : CtxId) (f : SForm), c.wf = true → s.running c = false →
       ∀ i ∈ [Instr.sli c f, .slih c f, .sadd c f, .saddi c f, .ssub c f, .smul c f, .sand c f, .sor c f, .sxor c f,
         .sshl c f, .sshr c f, .scmplt c f, .getf c f, .getid c f, .nop c, .jmp c f, .brz c f, .brnz c f, .yield c f,
         .halt c f], NoEffect i s)

/-- R125, R126: WAITF retires when the word is at least sb and waits otherwise; WAITB retires when the beat
is no longer in the future and waits otherwise.
R126: where the beat is lost for more than 100 ms, or out of step, WAITB stops the context with CAUSE 6.
R125, R126, R105, R282: the releases. The word has reached sb, the beat has come, or everything that an FFENCE waits for
has been acknowledged: that wait ends, and the context shows what else it waits for. A HALT with nothing left to wait for
enters HALTED. That WAITB takes bits 47 to 0 of its register, and that the present beat has come, are the model's choices
(log entries 15 and 12). -/
def Obligations.WaitsBeginAndEnd : Prop :=
  (∀ (s : State) (c : CtxId) (f : SForm), Runs s c →
     (∀ a : Nat, a = ((s.ctx c).sreg f.sa.toNat + f.imm.signExtend 64).toNat → InDrawer a 8 8 →
       DrawerClean s c a 8 →
       Completes (.waitf c f) s (CtxBecomes c (fun x =>
         if (x.sreg f.sb.toNat).toNat ≤ (drawerWord s c a).toNat then { x with left := true }
         else { x with left := true, waits := x.waits ++ [.flag a (x.sreg f.sb.toNat)] }) (s.ctxCorrect c a 8)))
     ∧ (s.lostOver = false → s.mismatch = false → ∀ b : BitVec 48,
       b = ((s.ctx c).sreg f.sa.toNat).extractLsb' 0 48 →
       Completes (.waitb c f) s (CtxBecomes c (fun x =>
         if s.inFuture b = true then { x with left := true, waits := x.waits ++ [.beat b] }
         else { x with left := true }) s))
     ∧ (s.lostOver = true ∨ s.mismatch = true → Completes (.waitb c f) s (fun t =>
       (t.ctx c).st = .stopped ∧ (t.ctx c).cause = 6 ∧ SameCtxs c s t)))
  ∧ (∀ (s : State) (c : CtxId), c.wf = true →
       (∀ (a : Nat) (v : Word), (s.ctx c).flagWait = some (a, v) → DrawerClean s c a 8 →
         v.toNat ≤ (drawerWord s c a).toNat →
         Completes (.waitfRelease c) s (fun t => WaitEnds c isFlag s t ∧ SameOutsideCtx c (s.ctxCorrect c a 8) t))
       ∧ (∀ b : BitVec 48, (s.ctx c).beatWait = some b → s.lostOver = false → s.mismatch = false →
         s.reached b = true →
         Completes (.waitbRelease c) s (fun t => WaitEnds c isBeat s t ∧ SameOutsideCtx c s t))
       ∧ ((s.ctx c).waits = [.halt] → alive (s.ctx c).st = true →
         (∀ r ∈ (s.stack c.stack).reqs, r.src ≠ .ctx c.bench c.ctx) →
         (s.ctx c).arrDone ≤ (s.bench c.stack c.bench).cycle →
         Completes (.haltComplete c) s (fun t => (t.ctx c).st = .halted ∧ (t.ctx c).cause = 1
           ∧ (t.ctx c).waits = [] ∧ SameOutsideCtx c s t))
       ∧ (.fence ∈ (s.ctx c).waits →
         (∀ r ∈ (s.stack c.stack).reqs, r.src = .ctx c.bench c.ctx → r.st = .done) →
         Completes (.ffenceComplete c) s (fun t => WaitEnds c isFence s t ∧ SameOutsideCtx c s t)))

/-! ### Vector instructions -/

/-- R87: register s0 reads zero and takes no write, and mask k0 selects every lane and takes none.
R110, R111: the bitwise and shift instructions act on each 32-bit lane, whatever the format.
R110, R111, R590: the moves between registers and lanes carry elements: the low bits of a lane, of the
width of fmt, the upper bits clear. -/
def Obligations.VectorBitsAndMoves : Prop :=
  (∀ x : Ctx, x.sreg 0 = 0 ∧ x.mask 0 = BitVec.allOnes 64 ∧ (∀ v, x.setSreg 0 v = x) ∧ ∀ m, x.setMask 0 m = x)
  ∧ (∀ (s : State) (c : CtxId) (f : VForm), Runs s c →
     ∀ x y : Nat → Lane, x = (s.ctx c).lane f.vs.toNat → y = (s.ctx c).lane f.vt.toNat →
     (s.runsV 0x4E f = true → Completes (.vand c f) s
       (VectorWritten c f.vd.toNat (masked (s.ctx c) f (fun i => x i &&& y i)) s))
     ∧ (s.runsV 0x4F f = true → Completes (.vor c f) s
       (VectorWritten c f.vd.toNat (masked (s.ctx c) f (fun i => x i ||| y i)) s))
     ∧ (s.runsV 0x50 f = true → Completes (.vxor c f) s
       (VectorWritten c f.vd.toNat (masked (s.ctx c) f (fun i => x i ^^^ y i)) s))
     ∧ (s.runsV 0x51 f = true → Completes (.vshl c f) s
       (VectorWritten c f.vd.toNat (masked (s.ctx c) f (fun i => x i <<< f.imm.toNat)) s))
     ∧ (s.runsV 0x52 f = true → Completes (.vshr c f) s
       (VectorWritten c f.vd.toNat (masked (s.ctx c) f (fun i => x i >>> f.imm.toNat)) s)))
  ∧ (∀ (s : State) (c : CtxId) (f : VForm), Runs s c →
       ∀ (x y : Nat → Nat) (w : Nat), x = code (s.ctx c) f.vs → y = code (s.ctx c) f.vt →
         w = 2 ^ fmtWidth f.fmt.toNat →
       (s.runsV 0x4B f = true → Completes (.vsel c f) s (VectorWritten c f.vd.toNat (fun i =>
         BitVec.ofNat 32 ((if ((s.ctx c).mask f.k.toNat).getLsbD i then x i else y i) % w)) s))
       ∧ (s.runsV 0x53 f = true → Completes (.vmovs c f) s (VectorWritten c f.vd.toNat (masked (s.ctx c) f (fun _ =>
         BitVec.ofNat 32 (((s.ctx c).sreg (f.imm.toNat % 32)).toNat % w))) s))
       ∧ (s.runsV 0x54 f = true → Completes (.vperm c f) s (VectorWritten c f.vd.toNat (masked (s.ctx c) f (fun i =>
         BitVec.ofNat 32 (x (y i % 64) % w))) s))
       ∧ (s.runsV 0x55 f = true → Completes (.vbcast c f) s (VectorWritten c f.vd.toNat (masked (s.ctx c) f (fun _ =>
         BitVec.ofNat 32 (x (f.imm.toNat % 64) % w))) s))
       ∧ (s.runsV 0x61 f = true → Completes (.vext c f) s (ScalarWritten c (f.vd.toNat % 32)
         (BitVec.ofNat 64 (x (f.imm.toNat % 64) % w)) s)))

/-- R114, R584, R585, R81: the arithmetic instructions write, lane by lane, the operation's rounded result on the
decoded elements; with SR the lanes take the random bits of one draw. That every instruction with SR draws, that the
lanes outside the mask raise no flag, that a scaled code names its element format, that K8's NaN codes are quiet, and
what a division by zero gives in K8, are the model's choices (log entries 202, 206, 14, 200, 201). -/
def Obligations.VectorArithmeticRoundsEachLane : Prop :=
  ∀ (s : State) (c : CtxId) (f : VForm), Runs s c →
    ∀ (x y z r : Nat → Nat), x = code (s.ctx c) f.vs → y = code (s.ctx c) f.vt → z = code (s.ctx c) f.vu →
      r = laneDraw (s.ctx c) f →
    (s.runsV 0x40 f = true → Completes (.vadd c f) s (RoundedWritten c f (fun i =>
      lane2 .add (vFmt f.fmt) (vRnd f) f.ovf (r i) (x i) (y i)) s))
    ∧ (s.runsV 0x41 f = true → Completes (.vsub c f) s (RoundedWritten c f (fun i =>
      lane2 .sub (vFmt f.fmt) (vRnd f) f.ovf (r i) (x i) (y i)) s))
    ∧ (s.runsV 0x42 f = true → Completes (.vmul c f) s (RoundedWritten c f (fun i =>
      lane2 .mul (vFmt f.fmt) (vRnd f) f.ovf (r i) (x i) (y i)) s))
    ∧ (s.runsV 0x43 f = true → Completes (.vfma c f) s (RoundedWritten c f (fun i =>
      laneFma (vFmt f.fmt) (vRnd f) f.ovf (r i) (x i) (y i) (z i)) s))
    ∧ (s.runsV 0x44 f = true → Completes (.vdiv c f) s (RoundedWritten c f (fun i =>
      lane2 .div (vFmt f.fmt) (vRnd f) f.ovf (r i) (x i) (y i)) s))
    ∧ (s.runsV 0x45 f = true → Completes (.vsqrt c f) s (RoundedWritten c f (fun i =>
      laneSqrt (vFmt f.fmt) (vRnd f) (r i) (x i)) s))
    ∧ (s.runsV 0x46 f = true → Completes (.vmin c f) s (RoundedWritten c f (fun i =>
      lane2 .min (vFmt f.fmt) (vRnd f) f.ovf (r i) (x i) (y i)) s))
    ∧ (s.runsV 0x47 f = true → Completes (.vmax c f) s (RoundedWritten c f (fun i =>
      lane2 .max (vFmt f.fmt) (vRnd f) f.ovf (r i) (x i) (y i)) s))
    ∧ (s.runsV 0x58 f = true → Completes (.cvt c f) s (RoundedWritten c f (fun i =>
      toFmt (vFmt f.fmt2) (vRnd f) f.ovf true (r i) (decodeVal (vFmt f.fmt) (x i))) s))
    ∧ (s.runsV 0x5A f = true → Completes (.cvtu c f) s (RoundedWritten c f (fun i =>
      toFmt (vFmt f.fmt2) (vRnd f) f.ovf true (r i)
        (rescale (y (i / 32) % 256) (decodeVal (vFmt f.fmt) (x i)))) s))

/-- R115, R586, R590: the approximate instructions and VABS and VNEG write the lanes that mask k selects and raise no
flag. R62, R81, R85: CVTB writes the elements of two blocks of 32 lanes to vd and their two scale codes to lanes 0 and
1 of vx, whose other lanes are cleared, with one draw of the generator under SR and, in strict mode, the flags of its
lanes. Where vd and vx are one register it holds a free value (the model's choice, log entry 16). So are the draw
under SR whether or not a lane rounds, the flags of unselected lanes, the value of an approximate instruction within
its bound, and the scale code of a block that has no finite magnitude (log entries 202, 206, 7, 205). -/
def Obligations.VectorMapsAndBlockConversion : Prop :=
  (∀ (s : State) (c : CtxId) (f : VForm), Runs s c →
     ∀ (x r : Nat → Nat), x = code (s.ctx c) f.vs → r = laneDraw (s.ctx c) f →
     (s.runsV 0x4C f = true → Completes (.vabs c f) s (VectorWritten c f.vd.toNat (masked (s.ctx c) f (fun i =>
       BitVec.ofNat 32 (laneAbs (vFmt f.fmt) f.ovf (x i)))) s))
     ∧ (s.runsV 0x4D f = true → Completes (.vneg c f) s (VectorWritten c f.vd.toNat (masked (s.ctx c) f (fun i =>
       BitVec.ofNat 32 (laneNeg (vFmt f.fmt) f.ovf (x i)))) s))
     ∧ (∀ (op : Approx) (i : Instr), (op, i) ∈ [(.exp2, .vexp2 c f), (.log2, .vlog2 c f), (.rcpa, .vrcpa c f),
         (.rsqa, .vrsqa c f), (.tanh, .vtanh c f), (.sigm, .vsigm c f)] → s.runsV op.code f = true →
       Completes i s (fun t =>
         LanesAre f.vd.toNat (masked (s.ctx c) f (fun j =>
           BitVec.ofNat 32 (laneApprox op (vFmt f.fmt) (vRnd f) f.ovf (r j) (x j)))) (s.ctx c) (t.ctx c)
         ∧ (t.ctx c).rng = (if f.rnd = 2 then srNext (s.ctx c).rng else (s.ctx c).rng)
         ∧ (t.ctx c).flags = (s.ctx c).flags
         ∧ SameBesideVectors (s.ctx c) (t.ctx c) ∧ SameOutsideCtx c s t
         ∧ ReqsDropped c (32 + f.vd.toNat) s t)))
  ∧ (∀ (s : State) (c : CtxId) (f : VForm), Runs s c → s.runsV 0x59 f = true →
       ∀ (v : Nat → Val) (scale : Nat → Nat) (g : Nat → Rounded) (fl : BitVec 5),
       v = (fun i => decodeVal (vFmt f.fmt) (code (s.ctx c) f.vs i)) →
       scale = (fun b => blockScale (scaledFmt f.fmt2) f.ovf ((List.range 32).map (fun i => v (32 * b + i)))) →
       g = (fun i => toFmt (.float (scaledFmt f.fmt2)) (vRnd f) f.ovf true (laneDraw (s.ctx c) f i)
         (unscale (scale (i / 32)) (v i))) →
       fl = (List.range 64).foldl (fun a i => a ||| (g i).2) (flagIf (anySig ((List.range 64).map v)) fInvalid) →
       Completes (.cvtb c f) s (fun t =>
         (t.ctx c).rng = (if f.rnd = 2 then srNext (s.ctx c).rng else (s.ctx c).rng)
         ∧ (t.ctx c).flags = (if f.strict then (s.ctx c).flags ||| fl else (s.ctx c).flags)
         ∧ SameBesideVectors (s.ctx c) (t.ctx c)
         ∧ (f.vd ≠ f.vt →
           (∀ r i, i < 64 → (t.ctx c).lane r i =
             if r = f.vd.toNat then BitVec.ofNat 32 (g i).1
             else if r = f.vt.toNat then (if i < 2 then BitVec.ofNat 32 (scale i) else 0)
             else (s.ctx c).lane r i)
           ∧ SameOutsideCtx c s t
           ∧ (t.stack c.stack).reqs = (((s.stack c.stack).dropDest c.bench c.ctx (32 + f.vd.toNat)).dropDest
               c.bench c.ctx (32 + f.vt.toNat)).reqs)
         ∧ (f.vd = f.vt → LanesAre f.vd.toNat (nth 0 (freeLanes s.takeFree.1)) (s.ctx c) (t.ctx c)
           ∧ SameOutsideCtx c s.takeFree.2 t ∧ ReqsDropped c (32 + f.vd.toNat) s t)))

/-- R111, R112: a comparison writes mask vd: bit i is set where mask k selects lane i and the comparison holds there;
a comparison with a NaN is false. R113: a reduction writes lane 0 of vd and clears the other lanes. That lanes outside
the mask raise no flag, that every reduction with SR draws, and that a node which overflows binary32 is infinite, are
the model's choices (log entries 206, 202, 236). -/
def Obligations.ComparisonsAndReductions : Prop :=
  (∀ (s : State) (c : CtxId) (f : VForm), Runs s c →
     ∀ (op : Cmp) (i : Instr), (op, i) ∈ [(.eq, .vcmpeq c f), (.lt, .vcmplt c f), (.le, .vcmple c f)] →
       s.runsV 0x48 f = true →
     ∀ r : Nat → Bool × BitVec 5,
       r = (fun j => laneCmp op (vFmt f.fmt) (code (s.ctx c) f.vs j) (code (s.ctx c) f.vt j)) →
       Completes i s (fun t =>
         (∀ k j, j < 64 → ((t.ctx c).mask k).getLsbD j =
           if k = f.vd.toNat then ((s.ctx c).mask f.k.toNat).getLsbD j && (r j).1
           else ((s.ctx c).mask k).getLsbD j)
         ∧ (t.ctx c).flags = (if f.strict
             then (s.ctx c).flags ||| ((List.range 64).filter (fun j => ((s.ctx c).mask f.k.toNat).getLsbD j)).foldl
               (fun a j => a ||| (r j).2) 0
             else (s.ctx c).flags)
         ∧ SameBesideMasks (s.ctx c) (t.ctx c) ∧ SameOutsideCtx c s t
         ∧ (t.stack c.stack).reqs = (s.stack c.stack).reqs))
  ∧ (∀ (s : State) (c : CtxId) (f : VForm), Runs s c →
       (s.runsV 0x56 f = true → Completes (.vrsum c f) s (fun t =>
         LanesAre f.vd.toNat (fun i => if i = 0 then BitVec.ofNat 32 (laneSum (vFmt f.fmt) (vRnd f) f.ovf
             (laneDraw (s.ctx c) f 0) ((s.ctx c).mask f.k.toNat) ((List.range 64).map (code (s.ctx c) f.vs)))
           else 0) (s.ctx c) (t.ctx c)
         ∧ (t.ctx c).rng = (if f.rnd = 2 then srNext (s.ctx c).rng else (s.ctx c).rng)
         ∧ (t.ctx c).flags = (s.ctx c).flags
         ∧ SameBesideVectors (s.ctx c) (t.ctx c) ∧ SameOutsideCtx c s t ∧ ReqsDropped c (32 + f.vd.toNat) s t))
       ∧ (s.runsV 0x57 f = true → Completes (.vrmax c f) s (VectorWritten c f.vd.toNat (fun i =>
         if i = 0 then BitVec.ofNat 32 (laneMax (vFmt f.fmt) ((s.ctx c).mask f.k.toNat)
           ((List.range 64).map (code (s.ctx c) f.vs))) else 0) s)))

/-! ### Memory, fabric and array instructions -/

/-- R94, R95, R100, R106: loads and stores of the drawer at sa + imm28. A load writes its register, a store its
bytes, and each leaves everything else as it was. A load corrects the single-bit errors of the words that it reads,
and counts them; one that meets an uncorrectable word writes nothing and stops its context with CAUSE 4.
R95: an access that leaves the drawer, or that is not aligned, has no effect on it: it is counted in the
stack's DRAWER counter, and a load writes zero. -/
def Obligations.DrawerInstructions : Prop :=
  (∀ (s : State) (c : CtxId) (f : MForm) (a : Nat), Runs s c →
     a = ((s.ctx c).sreg f.sa.toNat + f.imm.signExtend 64).toNat →
     (mOk 0x22 f = true → InDrawer a 8 8 → DrawerClean s c a 8 →
       Completes (.sld c f) s (ScalarWritten c (f.v.toNat % 32) (drawerWord s c a) (s.ctxCorrect c a 8)))
     ∧ (mOk 0x23 f = true → InDrawer a 8 8 →
       Completes (.sst c f) s (DrawerWritten c a (leBytes 8 ((s.ctx c).sreg (f.v.toNat % 32)).toNat) s))
     ∧ (∀ w, w = fmtBytes f.sub → InDrawer a 64 (64 * w) →
       (mOk 0x20 f = true → DrawerClean s c a (64 * w) →
         Completes (.vld c f) s (VectorWritten c f.v.toNat (fun i =>
           BitVec.ofNat 32 (leNat (s.ctxBytes c (a + w * i) w))) (s.ctxCorrect c a (64 * w))))
       ∧ (mOk 0x21 f = true →
         Completes (.vst c f) s (DrawerWritten c a
           ((List.range 64).flatMap (fun i => leBytes w (code (s.ctx c) f.v i))) s)))
     ∧ (∀ i op len, (i, op, len) ∈ [(Instr.sld c f, 0x22, 8), (.vld c f, 0x20, 64 * fmtBytes f.sub)] →
       mOk op f = true → InDrawer a (min len 64) len → s.ctxBad c a len = true →
       Completes i s (fun t => (t.ctx c).st = .stopped ∧ (t.ctx c).cause = 4 ∧ (t.ctx c).sregs = (s.ctx c).sregs
         ∧ (t.ctx c).vregs = (s.ctx c).vregs ∧ SameCtxs c s t
         ∧ (t.stack c.stack).drawer = (s.stack c.stack).drawer))
     ∧ (∀ (len : Nat) (k : Stack), k = (s.ctxCorrect c a len).stack c.stack →
       (∀ w, w ∈ k.drawerSoft ↔ w ∈ (s.stack c.stack).drawerSoft
         ∧ ¬(0 < len ∧ 8 * w < 0x100000 * c.bench + a + len ∧ 0x100000 * c.bench + a < 8 * w + 8))
       ∧ k.drawerFixed + k.drawerSoft.length
           = (s.stack c.stack).drawerFixed + (s.stack c.stack).drawerSoft.length))
  ∧ (∀ (s : State) (c : CtxId) (f : MForm) (a : Nat), Runs s c →
       a = ((s.ctx c).sreg f.sa.toNat + f.imm.signExtend 64).toNat →
       ∀ i op align w, (i, op, align, w) ∈ [(Instr.sld c f, 0x22, 8, 8), (.sst c f, 0x23, 8, 8),
           (.vld c f, 0x20, 64, 64 * fmtBytes f.sub), (.vst c f, 0x21, 64, 64 * fmtBytes f.sub)] →
         mOk op f = true → 0 < w → (0x100000 < a + w ∨ a % align ≠ 0) →
         Completes i s (fun t =>
           t.reg (.SWC_QUIET c.stack 4) = (s.quiet c.stack 4).reg (.SWC_QUIET c.stack 4)
             ∧ (∀ q, q ≠ .SWC_QUIET c.stack 4 → t.reg q = s.reg q)
             ∧ (t.stack c.stack).drawer = (s.stack c.stack).drawer
             ∧ (t.stack c.stack).drawerBad = (s.stack c.stack).drawerBad
             ∧ (i = .sld c f → (t.ctx c).sreg (f.v.toNat % 32) = 0)
             ∧ (i = .vld c f → ∀ j, j < 64 → (t.ctx c).lane f.v.toNat j = 0)))

/-- R92, R107 to R109, R269 to R281: a fabric instruction whose access the stack translates hands one request to the
source abutment, with the operation, the address, the bytes and the register of Tables 04-8 and 09-3, and leaves
everything else as it was. One of no bytes makes no access; one that would be the 65th access waits. R244, R245: where
the look-aside buffer misses, the access waits for the open fault of its page, for the walk of its page, or else
behind the other misses of its stack for a walker. R239: an access without the right that it needs is counted; a load
is answered with zeros, and a keystone store is dropped. -/
def Obligations.FabricInstructionsHandAccessToAbutment : Prop :=
  ∀ (s : State) (c : CtxId) (f : MForm) (e : TlbEntry) (va : Word), Runs s c →
    va = (s.ctx c).sreg f.sa.toNat + f.imm.signExtend 64 →
    (∀ len, len = ((s.ctx c).sreg f.sb.toNat).toNat → len ≤ 256 → mOk 0x24 f = true → s.mayAccess c = true →
      Translated s c 1 va len e →
      Completes (.fld c f) s (fun t => AccessHeld c 1 (BitVec.ofNat 8 (len - 1)) va len [] e (32 + f.v.toNat) s t
        ∧ LanesAre f.v.toNat (fun _ => 0) (s.ctx c) (t.ctx c) ∧ (t.ctx c).sregs = (s.ctx c).sregs))
    ∧ (∀ len a, len = ((s.ctx c).sreg f.sc.toNat).toNat → a = ((s.ctx c).sreg f.sb.toNat).toNat → len ≤ 8192 →
      InDrawer a 64 len → DrawerClean s c a len → mOk 0x25 f = true → s.mayAccess c = true → Translated s c 2 va len e →
      Completes (.fst c f) s (fun t => AccessHeld c 2 0 va len (s.ctxBytes c a len) e 0 s t
        ∧ (t.ctx c).sregs = (s.ctx c).sregs ∧ (t.ctx c).vregs = (s.ctx c).vregs))
    ∧ (va.toNat % 8 = 0 → mOk 0x26 f = true → s.mayAccess c = true → Translated s c 3 va 8 e →
      Completes (.fstk c f) s (fun t =>
        AccessHeld c 3 0 va 8 (leBytes 8 ((s.ctx c).sreg f.sb.toNat).toNat) e 0 s t
        ∧ (t.ctx c).sregs = (s.ctx c).sregs ∧ (t.ctx c).vregs = (s.ctx c).vregs))
    ∧ (∀ size, size = atomicSize f.sub.toNat (f.opt.getLsbD 0) → va.toNat % size = 0 → f.sub ≠ 4 →
      mOk 0x27 f = true → s.mayAccess c = true → Translated s c 4 va size e →
      Completes (.fatom c f) s (fun t =>
        AccessHeld c 4 (BitVec.ofNat 8 (16 * f.sub.toNat + boolNat (f.opt.getLsbD 0))) va size
          (leBytes size ((s.ctx c).sreg f.sb.toNat).toNat) e (f.v.toNat % 32) s t
        ∧ (∀ d, (t.ctx c).sreg d = if d = f.v.toNat % 32 then 0 else (s.ctx c).sreg d)
        ∧ (t.ctx c).vregs = (s.ctx c).vregs))
    ∧ (∀ size, size = atomicSize 4 (f.opt.getLsbD 0) → va.toNat % size = 0 → f.sub = 4 →
      mOk 0x27 f = true → s.mayAccess c = true → Translated s c 4 va size e →
      Completes (.fatom c f) s (AccessHeld c 4 (BitVec.ofNat 8 (64 + boolNat (f.opt.getLsbD 0))) va size
        (leBytes size ((s.ctx c).sreg f.sb.toNat).toNat ++ zeros (8 - size)
          ++ leBytes size ((s.ctx c).sreg f.sc.toNat).toNat) e (f.v.toNat % 32) s))
    ∧ (∀ len a w, len = ((s.ctx c).sreg f.sc.toNat).toNat → a = ((s.ctx c).sreg f.sb.toNat).toNat →
      w = fmtBytes f.sub → len ≤ 8192 → InDrawer a 64 len → DrawerClean s c a len →
      va.toNat % w = 0 → len % w = 0 → mOk 0x28 f = true → mAbsent s.intPresent 0x28 f = false →
      s.mayAccess c = true → Translated s c 5 va len e →
      Completes (.facc c f) s (fun t =>
        AccessHeld c 5 (BitVec.ofNat 8 (64 * (f.opt.toNat % 4) + 4 * f.sub.toNat)) va len (s.ctxBytes c a len) e 0 s t
        ∧ (t.ctx c).sregs = (s.ctx c).sregs ∧ (t.ctx c).vregs = (s.ctx c).vregs))
    ∧ (mOk 0x29 f = true → Completes (.ffence c f) s (CtxBecomes c (fun x =>
        if (s.stack c.stack).settled c.bench c.ctx = true then { x with left := true }
        else { x with left := true, waits := x.waits ++ [.fence] }) s))
    ∧ (mOk 0x24 f = true → (s.ctx c).sreg f.sb.toNat = 0 → Completes (.fld c f) s (fun t =>
      LanesAre f.v.toNat (fun _ => 0) (s.ctx c) (t.ctx c) ∧ ReqsDropped c (32 + f.v.toNat) s t ∧ AccessFrame c s t))
    ∧ (mOk 0x25 f = true → (s.ctx c).sreg f.sc.toNat = 0 →
      Completes (.fst c f) s (CtxBecomes c (fun x => { x with left := true }) s))
    ∧ (mOk 0x28 f = true → mAbsent s.intPresent 0x28 f = false → (s.ctx c).sreg f.sc.toNat = 0 →
      Completes (.facc c f) s (CtxBecomes c (fun x => { x with left := true }) s))
    ∧ (∀ len k, len = ((s.ctx c).sreg f.sb.toNat).toNat → 0 < len → len ≤ 256 → mOk 0x24 f = true →
      s.mayAccess c = true → k = s.stack c.stack → k.lookup (s.ctx c).xctx va.toNat = .miss →
      Completes (.fld c f) s (fun t => ∃ r : Req,
        (t.stack c.stack).reqs = (k.dropDest c.bench c.ctx (32 + f.v.toNat)).reqs ++ [r]
          ∧ r.src = .ctx c.bench c.ctx ∧ r.op = 1 ∧ r.st = .walking ∧ r.va = va.toNat ∧ r.len = len
          ∧ r.dest = 32 + f.v.toNat ∧ LanesAre f.v.toNat (fun _ => 0) (s.ctx c) (t.ctx c) ∧ AccessFrame c s t
          ∧ MissWaits (.ctx c.bench c.ctx r.id) (s.ctx c).xctx (va.toNat / 4096) k (t.stack c.stack)))
    ∧ (∀ len, len = ((s.ctx c).sreg f.sb.toNat).toNat → 0 < len → len ≤ 256 → len ≤ e.left va.toNat →
      mOk 0x24 f = true → s.mayAccess c = true → s.role c.stack = 0 →
      (s.stack c.stack).lookup (s.ctx c).xctx va.toNat = .hit e → hasRight e.rights 1 = false →
      Completes (.fld c f) s (fun t => (∃ r : Req,
          (t.stack c.stack).reqs = ((s.stack c.stack).dropDest c.bench c.ctx (32 + f.v.toNat)).reqs ++ [r]
            ∧ r.src = .ctx c.bench c.ctx ∧ r.st = .done ∧ r.reply = zeros len ∧ r.dest = 32 + f.v.toNat
            ∧ r.poisoned = false)
        ∧ t.reg (.SWC_QUIET c.stack 1) = (s.quiet c.stack 1).reg (.SWC_QUIET c.stack 1)
        ∧ RegsOutside [.SWC_QUIET c.stack 1] s t ∧ SameStacks c.stack s t ∧ SameTiers s t ∧ SameCtxs c s t))
    ∧ (va.toNat % 8 = 0 → 8 ≤ e.left va.toNat → mOk 0x26 f = true → s.mayAccess c = true → s.role c.stack = 0 →
      (s.stack c.stack).lookup (s.ctx c).xctx va.toNat = .hit e → hasRight e.rights 3 = false →
      Completes (.fstk c f) s (fun t => (t.stack c.stack).reqs = (s.stack c.stack).reqs
        ∧ t.reg (.SWC_QUIET c.stack 1) = (s.quiet c.stack 1).reg (.SWC_QUIET c.stack 1)
        ∧ RegsOutside [.SWC_QUIET c.stack 1] s t ∧ SameStacks c.stack s t ∧ SameTiers s t ∧ SameCtxs c s t
        ∧ (t.ctx c).sregs = (s.ctx c).sregs ∧ (t.ctx c).vregs = (s.ctx c).vregs))
    ∧ (∀ i op, (i, op) ∈ [(Instr.fld c f, 0x24), (.fst c f, 0x25), (.fstk c f, 0x26), (.fatom c f, 0x27),
        (.facc c f, 0x28)] → s.inLimit c op f (s.ctx c) = false → NoEffect i s)

/-- R117 to R122, R591: the array instructions. AZERO clears the tile, ALOAD fills it from the drawer, AMMA adds to
each element the products of its row of A and its column of B, with the flags of strict mode, and ADRAIN stores the
tile. A K that breaks R117 has no effect and is counted. That the drawer operands are read at issue, and that an
ADRAIN with SR draws whatever its format, are the model's choices (log entries 24 and 202). -/
def Obligations.ArrayInstructionsActOnTile : Prop :=
  ∀ (s : State) (c : CtxId) (f : AForm), Runs s c →
    (s.runsA 0x80 f = true → Completes (.azero c f) s (CtxBecomes c (fun x => { x with tile := [] }) s))
    ∧ (∀ a, a = ((s.ctx c).sreg f.sa.toNat).toNat → InDrawer a 64 16384 → DrawerClean s c a 16384 →
      s.runsA 0x84 f = true →
      Completes (.aload c f) s (fun t =>
        (∀ i j, i < 64 → j < 64 → (t.ctx c).elem i j
            = BitVec.ofNat 32 (leNat (s.ctxBytes c (a + 4 * (64 * i + j)) 4)))
          ∧ (t.ctx c).tileInt = decide (f.fa = 7) ∧ SameBesideTile (s.ctx c) (t.ctx c)
          ∧ SameOutsideCtx c (s.ctxCorrect c a 16384) t))
    ∧ (∀ k m, k = ((s.ctx c).sreg f.sk.toNat).toNat → k % 64 = 0 → 64 ≤ k → k ≤ 4096 →
      ammaArea f (s.ctx c) k = some m → DrawerClean s c m.a m.aLen → DrawerClean s c m.b m.bLen →
      DrawerClean s c m.sa m.saLen → DrawerClean s c m.sb m.sbLen → s.runsA 0x81 f = true →
      ∀ g : Nat → Nat → Lane × BitVec 5, g = (fun i j => ammaElem f ((s.ctx c).elem i j)
            (column (operandRows f.fa (elements (fmtBytes f.fa) (s.ctxBytes c m.a m.aLen))
              (elements 1 (s.ctxBytes c m.sa m.saLen))) i)
            (column (operandRows f.fb (elements (fmtBytes f.fb) (s.ctxBytes c m.b m.bLen))
              (elements 1 (s.ctxBytes c m.sb m.sbLen))) j)) →
      Completes (.amma c f) s (fun t =>
        (∀ i j, i < 64 → j < 64 → (t.ctx c).elem i j = (g i j).1)
          ∧ (t.ctx c).tileInt = isIntFmt f.fa.toNat
          ∧ (t.ctx c).flags = (if f.strict
              then (s.ctx c).flags ||| (List.range 4096).foldl (fun a q => a ||| (g (q / 64) (q % 64)).2) 0
              else (s.ctx c).flags)
          ∧ SameBesideTile (s.ctx c) (t.ctx c) ∧ SameOutsideCtx c (s.ammaCorrect c m) t))
    ∧ (∀ k, k = ((s.ctx c).sreg f.sk.toNat).toNat → k % 64 ≠ 0 ∨ k < 64 ∨ 4096 < k → s.runsA 0x81 f = true →
      Completes (.amma c f) s (fun t => (t.ctx c).tile = (s.ctx c).tile ∧ SameBesideTile (s.ctx c) (t.ctx c)
        ∧ (t.ctx c).flags = (s.ctx c).flags
        ∧ t.reg (.SWC_QUIET c.stack 2) = (s.quiet c.stack 2).reg (.SWC_QUIET c.stack 2)
        ∧ RegsOutside [.SWC_QUIET c.stack 2] s t))
    ∧ (∀ a, a = ((s.ctx c).sreg f.sa.toNat).toNat → InDrawer a 64 (drainLen f) → s.runsA 0x83 f = true →
      Completes (.adrain c f) s (fun t => DrawerWritten c a (drainBytes f (s.ctx c) (s.ctx c)) s t
        ∧ (t.ctx c).rng = (if f.rnd = 2 then (s.ctx c).rng + 4096 * sm64 else (s.ctx c).rng)))

/-! ### Stage links -/

/-- R139 to R142, R145: on an open link with credit and with nobody before it, LSEND puts the register's 256
bytes under way and uses one credit; on a link that holds a granule, LRECV takes it and gives one credit back. LSENDD and
LRECVD move as many granules of the drawer as there are credits or granules, own the direction until they have moved all,
and wait for the rest. On a closed link each of the four is counted and transfers nothing.
A granule that arrives enters the receive buffer, and a credit that returns is the sender's again; the instruction that
waits for it goes on. A granule with an uncorrectable error stops the context that receives it with CAUSE 4.
That a length which is no multiple of 256 moves nothing and is counted, that a use of a closed link is counted whatever its
operands, and that the granule with the error leaves the buffer, are the model's choices (log entries 19, 237, 240). -/
def Obligations.StageLinksCarryGranules : Prop :=
  ∀ (s : State) (c : CtxId) (f : MForm) (link : Nat), link = f.sub.toNat → link < 4 →
    ∀ x : Bench, x = s.bench c.stack c.bench →
    (Runs s c → (s.ctx c).waits = [] → s.linkOpen c.stack c.bench link = true → Tab.get 0 x.used link < 6 →
      Tab.get 0 x.txOwner link = 0 → Tab.get [] x.txQueue link = [] → mOk 0x2A f = true →
      Completes (.lsend c f) s (fun t => ∀ y, y = t.bench c.stack c.bench →
        Tab.get [] y.flight link
            = Tab.get [] x.flight link ++ [(List.range 64).flatMap (fun i => leBytes 4 (code (s.ctx c) f.v i))]
          ∧ Tab.get 0 y.used link = Tab.get 0 x.used link + 1
          ∧ (t.ctx c).waits = [] ∧ SameCtxs c s t ∧ SameStacks c.stack s t ∧ SameTiers s t
          ∧ { t with stackTab := s.stackTab } = s))
    ∧ (Runs s c → s.linkOpen c.stack c.bench link = false → mOk 0x2A f = true →
      Completes (.lsend c f) s (fun t => (t.bench c.stack c.bench).flight = x.flight
        ∧ (t.ctx c).waits = (s.ctx c).waits ∧ SameCtxs c s t
        ∧ t.reg (.SWC_QUIET c.stack 5) = (s.quiet c.stack 5).reg (.SWC_QUIET c.stack 5)
        ∧ bitOf (t.fld (.BCH_LINK_STATUS c.stack c.bench) BCH_LINK_STATUS_CLOSED_USE) link = true))
    ∧ (∀ g rest, Runs s c → (s.ctx c).waits = [] → s.linkOpen c.stack c.bench link = true →
      Tab.get [] x.rx link = g :: rest → g ≠ [] → Tab.get 0 x.rxOwner link = 0 →
      Tab.get [] x.rxQueue link = [] → mOk 0x2B f = true →
      Completes (.lrecv c f) s (fun t =>
        Tab.get [] (t.bench c.stack c.bench).rx link = rest
          ∧ (∀ i, i < 64 → 256 ≤ g.length →
              (t.ctx c).lane f.v.toNat i = BitVec.ofNat 32 (leNat ((g.drop (4 * i)).take 4)))
          ∧ (∀ d, neighbour c.bench link = some d → Tab.get 0 (t.bench c.stack d).creditBack (opposite link)
              = Tab.get 0 (s.bench c.stack d).creditBack (opposite link) + 1)
          ∧ (t.ctx c).waits = [] ∧ SameCtxs c s t ∧ SameStacks c.stack s t ∧ SameTiers s t
          ∧ { t with stackTab := s.stackTab } = s))
    ∧ (Runs s c → s.linkOpen c.stack c.bench link = false → mOk 0x2B f = true →
      Completes (.lrecv c f) s (fun t => (∀ i, i < 64 → (t.ctx c).lane f.v.toNat i = 0)
        ∧ (t.ctx c).waits = (s.ctx c).waits ∧ SameCtxs c s t
        ∧ t.reg (.SWC_QUIET c.stack 5) = (s.quiet c.stack 5).reg (.SWC_QUIET c.stack 5)
        ∧ bitOf (t.fld (.BCH_LINK_STATUS c.stack c.bench) BCH_LINK_STATUS_CLOSED_USE) link = true))
    ∧ (∀ a len k, Runs s c → (s.ctx c).waits = [] → s.linkOpen c.stack c.bench link = true →
      len = ((s.ctx c).sreg f.sc.toNat).toNat → a = ((s.ctx c).sreg f.sb.toNat).toNat →
      InDrawer a 64 len → len % 256 = 0 → Tab.get 0 x.txOwner link = 0 → Tab.get [] x.txQueue link = [] →
      k = min (6 - Tab.get 0 x.used link) (len / 256) → DrawerClean s c a (256 * k) → mOk 0x2C f = true →
      Completes (.lsendd c f) s (fun t => ∀ y, y = t.bench c.stack c.bench →
        Tab.get [] y.flight link
            = Tab.get [] x.flight link ++ (List.range k).map (fun i => s.ctxBytes c (a + 256 * i) 256)
          ∧ Tab.get 0 y.used link = Tab.get 0 x.used link + k
          ∧ (t.ctx c).waits = (if 256 * k = len then [] else [.sendD link (a + 256 * k) (len - 256 * k)])
          ∧ Tab.get 0 y.txOwner link = (if 256 * k = len ∨ k = 0 then 0 else c.ctx + 1)
          ∧ Tab.get [] y.txQueue link = (if k = 0 then [c.ctx] else [])
          ∧ SameCtxs c s t ∧ SameTiers s t ∧ { t with stackTab := s.stackTab } = s))
    ∧ (∀ a len k, Runs s c → (s.ctx c).waits = [] → s.linkOpen c.stack c.bench link = true →
      len = ((s.ctx c).sreg f.sc.toNat).toNat → a = ((s.ctx c).sreg f.sb.toNat).toNat →
      InDrawer a 64 len → len % 256 = 0 → Tab.get 0 x.rxOwner link = 0 → Tab.get [] x.rxQueue link = [] →
      ∀ gs, gs = Tab.get [] x.rx link → gs.length ≤ 6 → (∀ g ∈ gs, g.length = 256) → k = min gs.length (len / 256) →
      mOk 0x2D f = true →
      Completes (.lrecvd c f) s (fun t => ∀ y, y = t.bench c.stack c.bench →
        (∀ j, Mem.read (t.stack c.stack).drawer j =
            if 0x100000 * c.bench + a ≤ j ∧ j < 0x100000 * c.bench + a + 256 * k
            then nth 0 (gs.take k).flatten (j - (0x100000 * c.bench + a)) else Mem.read (s.stack c.stack).drawer j)
          ∧ Tab.get [] y.rx link = gs.drop k
          ∧ (∀ d, neighbour c.bench link = some d → Tab.get 0 (t.bench c.stack d).creditBack (opposite link)
              = Tab.get 0 (s.bench c.stack d).creditBack (opposite link) + k)
          ∧ (t.ctx c).waits = (if 256 * k = len then [] else [.recvD link (a + 256 * k) (len - 256 * k)])
          ∧ Tab.get 0 y.rxOwner link = (if 256 * k = len ∨ k = 0 then 0 else c.ctx + 1)
          ∧ Tab.get [] y.rxQueue link = (if k = 0 then [c.ctx] else [])
          ∧ SameCtxs c s t ∧ SameStacks c.stack s t ∧ RegsOutside [] s t))
    ∧ (∀ i op len, (i, op) ∈ [(Instr.lsendd c f, 0x2C), (.lrecvd c f, 0x2D)] → Runs s c → mOk op f = true →
      len = ((s.ctx c).sreg f.sc.toNat).toNat →
      (s.linkOpen c.stack c.bench link = false → Completes i s (fun t =>
        (t.bench c.stack c.bench).flight = x.flight ∧ (t.bench c.stack c.bench).rx = x.rx
          ∧ (t.ctx c).waits = (s.ctx c).waits ∧ SameCtxs c s t ∧ SameTiers s t
          ∧ t.reg (.SWC_QUIET c.stack 5) = (s.quiet c.stack 5).reg (.SWC_QUIET c.stack 5)
          ∧ bitOf (t.fld (.BCH_LINK_STATUS c.stack c.bench) BCH_LINK_STATUS_CLOSED_USE) link = true))
      ∧ (len % 256 ≠ 0 → Completes i s (fun t =>
        (t.bench c.stack c.bench).flight = x.flight ∧ (t.bench c.stack c.bench).rx = x.rx
          ∧ (t.ctx c).waits = (s.ctx c).waits ∧ SameCtxs c s t ∧ SameTiers s t
          ∧ t.reg (.SWC_QUIET c.stack 2) = (s.quiet c.stack 2).reg (.SWC_QUIET c.stack 2))))
    ∧ (c.stack < 8 → c.bench < 336 → ∀ d g rest bad, neighbour c.bench link = some d →
      Tab.get [] (s.bench c.stack d).flight (opposite link) = g :: rest →
      Tab.get 0 x.rxOwner link = 0 → Tab.get [] x.rxQueue link = [] →
      Completes (.granuleArrive c.stack c.bench link bad) s (fun t =>
        Tab.get [] (t.bench c.stack c.bench).rx link = Tab.get [] x.rx link ++ [if bad then [] else g]
          ∧ Tab.get [] (t.bench c.stack d).flight (opposite link) = rest
          ∧ { t with stackTab := s.stackTab } = s))
    ∧ (c.stack < 8 → c.bench < 336 → 0 < Tab.get 0 x.creditBack link →
      Tab.get 0 x.txOwner link = 0 → Tab.get [] x.txQueue link = [] →
      Completes (.creditReturn c.stack c.bench link) s (fun t =>
        Tab.get 0 (t.bench c.stack c.bench).used link = Tab.get 0 x.used link - 1
          ∧ Tab.get 0 (t.bench c.stack c.bench).creditBack link = Tab.get 0 x.creditBack link - 1
          ∧ { t with stackTab := s.stackTab } = s))
    ∧ (c.wf = true → s.linkOpen c.stack c.bench link = true → ∀ d g rest, neighbour c.bench link = some d →
      Tab.get [] (s.bench c.stack d).flight (opposite link) = g :: rest → g.length = 256 →
      Tab.get [] x.rx link = [] → HasTurn c (Tab.get 0 x.rxOwner link) (Tab.get [] x.rxQueue link) →
      (∀ v, (s.ctx c).waits = [.recvV link v] → Completes (.granuleArrive c.stack c.bench link false) s (fun t =>
        (∀ i, i < 64 → (t.ctx c).lane v i = BitVec.ofNat 32 (leNat ((g.drop (4 * i)).take 4)))
          ∧ (t.ctx c).waits = [] ∧ Tab.get [] (t.bench c.stack c.bench).rx link = []
          ∧ Tab.get 0 (t.bench c.stack d).creditBack (opposite link)
              = Tab.get 0 (s.bench c.stack d).creditBack (opposite link) + 1
          ∧ SameCtxs c s t ∧ SameTiers s t ∧ { t with stackTab := s.stackTab } = s))
      ∧ (∀ a left, (s.ctx c).waits = [.recvD link a left] → InDrawer a 64 left → left % 256 = 0 →
        Completes (.granuleArrive c.stack c.bench link false) s (fun t =>
          (∀ j, Mem.read (t.stack c.stack).drawer j =
            if 0x100000 * c.bench + a ≤ j ∧ j < 0x100000 * c.bench + a + 256
            then nth 0 g (j - (0x100000 * c.bench + a)) else Mem.read (s.stack c.stack).drawer j)
          ∧ (t.ctx c).waits = (if left = 256 then [] else [.recvD link (a + 256) (left - 256)])
          ∧ Tab.get 0 (t.bench c.stack c.bench).rxOwner link = (if left = 256 then 0 else c.ctx + 1)
          ∧ Tab.get 0 (t.bench c.stack d).creditBack (opposite link)
              = Tab.get 0 (s.bench c.stack d).creditBack (opposite link) + 1
          ∧ SameCtxs c s t ∧ SameStacks c.stack s t ∧ RegsOutside [] s t))
      ∧ (∀ w, (s.ctx c).waits = [w] → recvWait link w = true → stoppable (s.ctx c).st = true →
        Completes (.granuleArrive c.stack c.bench link true) s (fun t =>
          (t.ctx c).st = .stopped ∧ (t.ctx c).cause = 4 ∧ (t.ctx c).waits = [] ∧ (t.ctx c).vregs = (s.ctx c).vregs
            ∧ Tab.get [] (t.bench c.stack c.bench).rx link = []
            ∧ Tab.get 0 (t.bench c.stack d).creditBack (opposite link)
                = Tab.get 0 (s.bench c.stack d).creditBack (opposite link) + 1
            ∧ SameCtxs c s t ∧ SameTiers s t)))
    ∧ (c.wf = true → s.linkOpen c.stack c.bench link = true → 0 < Tab.get 0 x.creditBack link →
      Tab.get 0 x.used link = 6 → HasTurn c (Tab.get 0 x.txOwner link) (Tab.get [] x.txQueue link) →
      ∀ (g : List Byte) (w : List Wait), (s.ctx c).waits = [.send link [g]] ∧ w = []
        ∨ (∃ a left, (s.ctx c).waits = [.sendD link a left] ∧ InDrawer a 64 left ∧ left % 256 = 0
          ∧ DrawerClean s c a 256 ∧ g = s.ctxBytes c a 256
          ∧ w = if left = 256 then [] else [.sendD link (a + 256) (left - 256)]) →
      Completes (.creditReturn c.stack c.bench link) s (fun t => ∀ y, y = t.bench c.stack c.bench →
        Tab.get [] y.flight link = Tab.get [] x.flight link ++ [g] ∧ Tab.get 0 y.used link = 6
          ∧ Tab.get 0 y.creditBack link = Tab.get 0 x.creditBack link - 1 ∧ (t.ctx c).waits = w
          ∧ SameCtxs c s t ∧ SameTiers s t ∧ { t with stackTab := s.stackTab } = s))

/-! ### The life of a context -/

/-- R90, R133: a bench issues one bundle a cycle. A cycle in which no context can issue only passes; a bundle of
four NOPs moves the program counter on and is the bench's last issue; a context that stands past its program is
stopped with CAUSE 7 instead.
R103, R93, R89, R123, R124: a bundle performs the operations of its four slots, whose sources are the registers as they
stood at issue, whatever the other slots write; its results are ready after the latency of their unit, and its vector
and array units are held for their occupancy. The bundle that stands for the others subtracts in slot 0, loads a
drawer word in slot 1, takes a bitwise AND in slot 2 and clears the tile in slot 3. -/
def Obligations.BundleIssueTakesOneBundle : Prop :=
  ∀ (s : State) (n b : Nat), n < 8 → b < 336 → ∀ x : Bench, x = s.bench n b →
    ((∀ i, i < 8 → s.running ⟨n, b, i⟩ = true → (x.ctx i).pc < x.bundles) → s.pick n b = none →
      exec (.bundleIssue n b) s = .next (s.modBench n b (fun y => { y with cycle := y.cycle + 1, issued := false })))
    ∧ (∀ i, (∀ j, j < 8 → s.running ⟨n, b, j⟩ = true → (x.ctx j).pc < x.bundles) → s.pick n b = some i →
      (∀ j, j < 4 → Tab.get 0 x.prog (4 * (x.ctx i).pc + j) = 0) → (x.ctx i).waits = [] →
      Completes (.bundleIssue n b) s (fun t => ∀ y, y = t.bench n b →
        (y.ctx i).pc = (x.ctx i).pc + 1 ∧ y.cycle = x.cycle + 1 ∧ y.issued = true ∧ y.last = i
          ∧ y.inRow = (if x.issued && x.last == i then x.inRow + 1 else 1)
          ∧ (y.ctx i).sregs = (x.ctx i).sregs ∧ (y.ctx i).vregs = (x.ctx i).vregs
          ∧ SameCtxs ⟨n, b, i⟩ s t ∧ { t with stackTab := s.stackTab } = s))
    ∧ (∀ (i : Nat) (w : Nat → Word) (f0 : SForm) (f1 : MForm) (f2 : VForm) (a : Nat),
      (∀ j, j < 8 → s.running ⟨n, b, j⟩ = true → (x.ctx j).pc < x.bundles) → s.pick n b = some i →
      (∀ j, j < 4 → w j = Tab.get 0 x.prog (4 * (x.ctx i).pc + j)) → (x.ctx i).waits = [] →
      opcodeOf (w 0) = 0x05 → opcodeOf (w 1) = 0x22 → opcodeOf (w 2) = 0x4E → opcodeOf (w 3) = 0x80 →
      f0 = sFormOf (w 0) → f1 = mFormOf (w 1) → f2 = vFormOf (w 2) → f0.sd ≠ 0 → f1.v.toNat % 32 ≠ 0 →
      f0.sd.toNat ≠ f1.v.toNat % 32 →
      a = ((x.ctx i).sreg f1.sa.toNat + f1.imm.signExtend 64).toNat → InDrawer a 8 8 → DrawerClean s ⟨n, b, i⟩ a 8 →
      Completes (.bundleIssue n b) s (fun t => ∀ y z, y = t.bench n b → z = y.ctx i →
        (∀ d, z.sreg d = if d = f0.sd.toNat then (x.ctx i).sreg f0.sa.toNat - (x.ctx i).sreg f0.sb.toNat
          else if d = f1.v.toNat % 32 then drawerWord s ⟨n, b, i⟩ a else (x.ctx i).sreg d)
        ∧ LanesAre f2.vd.toNat (masked (x.ctx i) f2 (fun l =>
            (x.ctx i).lane f2.vs.toNat l &&& (x.ctx i).lane f2.vt.toNat l)) (x.ctx i) z
        ∧ z.tile = [] ∧ z.kregs = (x.ctx i).kregs ∧ z.rng = (x.ctx i).rng ∧ z.flags = (x.ctx i).flags
        ∧ (∀ k, Tab.get 0 z.ready k = if k = f0.sd.toNat then x.cycle + 1
          else if k = f1.v.toNat % 32 then x.cycle + 3
          else if k = 32 + f2.vd.toNat then x.cycle + (if f2.strict then 16 else 4) else Tab.get 0 (x.ctx i).ready k)
        ∧ z.arrDone = max (x.ctx i).arrDone (x.cycle + 1) ∧ z.tileReady = max (x.ctx i).tileReady (x.cycle + 1)
        ∧ y.vecHeld = x.cycle + (if f2.strict then 4 else 1) ∧ y.arrHeld = x.cycle + 1
        ∧ z.pc = (x.ctx i).pc + 1 ∧ y.cycle = x.cycle + 1 ∧ y.issued = true ∧ y.last = i
        ∧ SameCtxs ⟨n, b, i⟩ s t ∧ { t with stackTab := s.stackTab } = s))
    ∧ (∀ i, i < 8 → s.running ⟨n, b, i⟩ = true → x.bundles ≤ (x.ctx i).pc →
      (∀ j, j < 8 → j ≠ i → s.running ⟨n, b, j⟩ = false) →
      Completes (.bundleIssue n b) s (fun t => (t.ctx ⟨n, b, i⟩).st = .stopped ∧ (t.ctx ⟨n, b, i⟩).cause = 7))

/-- R128: a context whose progress timer has reached the interval enters HUNG and remembers the state it left.
R129: RESUME returns a HUNG context to that state with its timer restarted, and does nothing to any other. Where a stop
has met the HUNG context, RESUME lets it take effect (the model's choice, log entry 226). -/
def Obligations.WatchdogHangsAndResumeReturns : Prop :=
  ∀ (s : State) (c : CtxId) (who : Requester), c.wf = true →
    (timerRuns (s.ctx c).st = true → (s.ctx c).dbgStop = false →
      ∀ ms, ms = min 100 (s.fld (.BCH_WDOG_CFG c.stack) BCH_WDOG_CFG_INTERVAL) → 0 < ms →
      ms * 75200000 ≤ (s.ctx c).timerAcc + (s.now - (s.ctx c).timerFrom) →
      Completes (.ctxWatchdogExpire c) s (fun t => (t.ctx c).st = .hung ∧ (t.ctx c).hungFrom = (s.ctx c).st
        ∧ (t.ctx c).pc = (s.ctx c).pc ∧ SameCtxs c s t))
    ∧ (s.permit who (.BCH_CTX_CTRL c.stack c.bench c.ctx) = .ok →
      ((s.ctx c).st = .hung → (s.ctx c).stopDue = 0 → (s.ctx c).hungFrom = s.shown c →
        Completes (.resume who c) s (fun t => (t.ctx c).st = (s.ctx c).hungFrom ∧ (t.ctx c).timerAcc = 0
          ∧ (t.ctx c).timerFrom = s.now
          ∧ SameOutsideCtx c (unlatched s who (.BCH_CTX_CTRL c.stack c.bench c.ctx)) t))
      ∧ ((s.ctx c).st = .hung → (s.ctx c).stopDue ≠ 0 → stoppable (s.ctx c).hungFrom = true →
        Completes (.resume who c) s (fun t => (t.ctx c).st = .stopped
          ∧ (t.ctx c).cause = BitVec.ofNat 4 (s.ctx c).stopDue ∧ (t.ctx c).stopDue = 0 ∧ (t.ctx c).waits = []
          ∧ SameCtxs c s t))
      ∧ ((s.ctx c).st ≠ .hung →
        exec (.resume who c) s = .next (unlatched s who (.BCH_CTX_CTRL c.stack c.bench c.ctx))))

/-- R130, R299, R556: KILL stops a context, drops what it waits for and releases a debug stop; the context is idle once
nothing of it is outstanding. KILL does nothing to a context in IDLE or HALTED, and only releases the stop of one in
KILLED. -/
def Obligations.KillStopsThenDrains : Prop :=
  ∀ (s : State) (c : CtxId) (who : Requester), c.wf = true →
    (s.permit who (.BCH_CTX_CTRL c.stack c.bench c.ctx) = .ok →
      (killable (s.ctx c).st = true → s.haltDone c = false →
        (∀ x, x = s.bench c.stack c.bench → x.txQueue = [] ∧ x.rxQueue = [] ∧ x.txOwner = [] ∧ x.rxOwner = []) →
        Completes (.kill who c) s (fun t => (t.ctx c).st = .killed ∧ (t.ctx c).waits = []
          ∧ (t.ctx c).cause = (if (s.ctx c).st = .stopped then (s.ctx c).cause
              else if (s.ctx c).st = .hung then 2 else 3)
          ∧ (t.ctx c).dbgStop = false ∧ SameCtxs c s t
          ∧ ((s.stack c.stack).shadow.late = [] →
            { t with stackTab := s.stackTab } = unlatched s who (.BCH_CTX_CTRL c.stack c.bench c.ctx))))
      ∧ ((s.ctx c).st = .killed → Completes (.kill who c) s (fun t =>
        t.ctx c = { s.ctx c with dbgStop := false }
          ∧ SameOutsideCtx c (unlatched s who (.BCH_CTX_CTRL c.stack c.bench c.ctx)) t))
      ∧ ((s.ctx c).st = .idle ∨ (s.ctx c).st = .halted →
        exec (.kill who c) s = .next (unlatched s who (.BCH_CTX_CTRL c.stack c.bench c.ctx))))
    ∧ ((s.ctx c).st = .killed →
      (∀ r ∈ (s.stack c.stack).reqs, r.src = .ctx c.bench c.ctx → r.st = .done) →
      Completes (.killedDrained c) s (fun t => (t.ctx c).st = .idle
        ∧ (∀ r ∈ (t.stack c.stack).reqs, r.src ≠ .ctx c.bench c.ctx) ∧ SameCtxs c s t))

/-- R100, R109: a reply that is whole and not poisoned writes its bytes to the register that the access named;
a poisoned one stops the context with CAUSE 5 and writes nothing.
R525: a HUNG context stays HUNG when a poisoned reply meets it; the stop waits for its RESUME (the model's choice, log
entry 226). -/
def Obligations.ReplyWritesItsRegister : Prop :=
  ∀ (s : State) (c : CtxId) (r : Req), c.wf = true →
    (s.stack c.stack).reqs.find? (fun q => q.id == r.id) = some r → r.src = .ctx c.bench c.ctx → r.st = .done →
    (∀ q ∈ (s.stack c.stack).reqs, q.src = r.src → q.acc = r.acc → q = r) →
    (r.poisoned = false → 0 < r.dest → r.dest < 32 → r.destOff = 0 →
      Completes (.fabricReplyToContext c.stack r.id) s (fun t =>
        (t.ctx c).sreg r.dest = leWord ((r.reply ++ List.replicate 256 0).take 8)
          ∧ (∀ d, d ≠ r.dest → (t.ctx c).sreg d = (s.ctx c).sreg d) ∧ (t.ctx c).vregs = (s.ctx c).vregs
          ∧ (∀ q, q ∈ (t.stack c.stack).reqs ↔ q ∈ (s.stack c.stack).reqs ∧ q ≠ r) ∧ SameCtxs c s t
          ∧ { t with stackTab := s.stackTab } = s))
    ∧ (r.poisoned = false → 32 ≤ r.dest → r.destOff = 0 → r.reply.length ≤ 256 →
      Completes (.fabricReplyToContext c.stack r.id) s (fun t =>
        LanesAre (r.dest - 32) (fun i => BitVec.ofNat 32 (leNat
            (((r.reply ++ List.replicate 256 0).drop (4 * i)).take 4))) (s.ctx c) (t.ctx c)
          ∧ (t.ctx c).sregs = (s.ctx c).sregs
          ∧ (∀ q, q ∈ (t.stack c.stack).reqs ↔ q ∈ (s.stack c.stack).reqs ∧ q ≠ r) ∧ SameCtxs c s t
          ∧ { t with stackTab := s.stackTab } = s))
    ∧ (r.poisoned = true → stoppable (s.ctx c).st = true →
      Completes (.fabricReplyToContext c.stack r.id) s (fun t =>
        (t.ctx c).st = .stopped ∧ (t.ctx c).cause = 5 ∧ (t.ctx c).sregs = (s.ctx c).sregs
          ∧ (t.ctx c).vregs = (s.ctx c).vregs ∧ SameCtxs c s t))
    ∧ (r.poisoned = true → (s.ctx c).st = .hung → (s.ctx c).stopDue = 0 →
      Completes (.fabricReplyToContext c.stack r.id) s (fun t =>
        (t.ctx c).st = .hung ∧ (t.ctx c).stopDue = 5 ∧ (t.ctx c).sregs = (s.ctx c).sregs
          ∧ (t.ctx c).vregs = (s.ctx c).vregs ∧ SameCtxs c s t))

/-- R128, R138, R143, R162: the writes of the watchdog interval and of a bench's job. The job is taken only while every
context of the bench is in IDLE or HALTED. It clears CLOSED_USE, empties the receive buffers at both ends of the bench's
links and restores every credit; a neighbour's instruction that waits on a link which it closes ends as one on a closed
link does (the model's choice, log entry 25). While a context of the bench is not in IDLE or HALTED, or while a re-seat
runs, the write is counted, on a vacant bench too, where it has no effect otherwise. -/
def Obligations.IntervalAndJobAreWritten : Prop :=
  ∀ (s : State) (who : Requester) (n b : Nat) (value : Word), n < 8 → b < 336 →
    (s.permit who (.BCH_WDOG_CFG n) = .ok → Completes (.wdogIntervalWrite who n value) s (fun t =>
      t.fld (.BCH_WDOG_CFG n) BCH_WDOG_CFG_INTERVAL = getF value BCH_WDOG_CFG_INTERVAL
        ∧ RegsOutside [.BCH_WDOG_CFG n, .HCORE_CFG n, .HCORE_EVT_IDX n] s t ∧ SameTiers s t ∧ SameStacks n s t))
    ∧ (s.permit who (.BCH_BENCH_CFG n b) = .ok → (s.reseatBusy n = true ∨ (s.bench n b).quietCtxs = false) →
        exec (.jobWrite who n b value) s = .next ((unlatched s who (.BCH_BENCH_CFG n b)).quiet n 0))
    ∧ (s.permit who (.BCH_BENCH_CFG n b) = .ok → s.reseatBusy n = false → (s.bench n b).quietCtxs = true →
      (s.vacant n b = true → exec (.jobWrite who n b value) s = .next (unlatched s who (.BCH_BENCH_CFG n b)))
      ∧ (s.vacant n b = false → Completes (.jobWrite who n b value) s (fun t =>
        t.fld (.BCH_BENCH_CFG n b) BCH_BENCH_CFG_JOB = getF value BCH_BENCH_CFG_JOB
          ∧ t.fld (.BCH_LINK_STATUS n b) BCH_LINK_STATUS_CLOSED_USE = 0
          ∧ (∀ l x, l < 4 → x = t.bench n b → Tab.get [] x.rx l = [] ∧ Tab.get [] x.flight l = []
            ∧ Tab.get 0 x.used l = 0 ∧ Tab.get 0 x.creditBack l = 0)
          ∧ (∀ l d x y, l < 4 → neighbour b l = some d → x = s.bench n d → y = t.bench n d →
            Tab.get [] y.rx (opposite l) = [] ∧ Tab.get 0 y.creditBack (opposite l) = 0
            ∧ (Tab.get 0 x.txOwner (opposite l) = 0 → Tab.get [] x.txQueue (opposite l) = [] →
              Tab.get [] y.flight (opposite l) = [] ∧ Tab.get 0 y.used (opposite l) = 0)
            ∧ (∀ c w, Tab.get 0 x.txOwner (opposite l) = 0 → Tab.get [] x.txQueue (opposite l) = [c] → c < 8 →
              (x.ctx c).waits = [w] → sendWait (opposite l) w = true → t.linkOpen n b l = false →
              (y.ctx c).waits = [] ∧ Tab.get [] y.flight (opposite l) = []
                ∧ bitOf (t.fld (.BCH_LINK_STATUS n d) BCH_LINK_STATUS_CLOSED_USE) (opposite l) = true))
          ∧ ((∀ l d x, l < 4 → neighbour b l = some d → x = s.bench n d →
              x.txOwner = [] ∧ x.txQueue = [] ∧ x.rxOwner = [] ∧ x.rxQueue = []) →
            RegsOutside [.BCH_BENCH_CFG n b, .BCH_LINK_STATUS n b] s t))))

/-! ### Clocks, re-seat and host cores -/

/-- R152 to R154: an evaluation on a beat that is a multiple of 64 shows each present stack's requested step and
temperature, and leaves to be applied the step that the loop of R152 gives it, over the pairs that R153 holds by their
temperatures: the requested step, lowered as far as its neighbours' steps ask for. Applying it shows the step and
which of the two rules has lowered it; without an evaluated step nothing happens. R161, R162: a re-seat starts only
while every bench of the stack has job 0 and no context runs, for the rows that have a vacant column and a usable
spare; otherwise GO is ignored and counted. It ends with DONE set, BUSY clear and the rows shown, and each of its rows
bypasses that column. That the requested step is the lesser of CAP_STEP and THERMAL_STEP, the order of the pairs, and
that nothing happens where nothing was evaluated, are the model's choices (log entries 43, 239, 2). -/
def Obligations.ClocksAndReseat : Prop :=
  (∀ (s : State) (temps : List Nat), s.at64 = true →
     ∀ (held : List (Nat × Nat)) (paces : Tab Pace), held = holdPairs temps s.livePairs s.power.tempHeld →
       paces = paceLoop s.livePairs held paceFuel (s.presentStacks.map (fun n => (n, ⟨s.requestedStep n, false, false⟩))) →
     ∃ t, exec (.clockEvaluation temps) s = .next t
       ∧ (∀ n, s.stackPresent n = true →
         t.fld (.BCH_CLOCK n) BCH_CLOCK_REQUESTED
             = s.requestedStep n % 2 ^ (BCH_CLOCK_REQUESTED.hi + 1 - BCH_CLOCK_REQUESTED.lo)
           ∧ t.fld (.BCH_CLOCK n) BCH_CLOCK_TJ = nth 0 temps n % 2 ^ (BCH_CLOCK_TJ.hi + 1 - BCH_CLOCK_TJ.lo)
           ∧ t.fld (.BCH_CLOCK n) BCH_CLOCK_APPLIED = s.fld (.BCH_CLOCK n) BCH_CLOCK_APPLIED
           ∧ (t.stack n).nextStep = some (Tab.get noPace paces n).k
           ∧ (t.stack n).nextNeighbour = ((Tab.get noPace paces n).byClock, (Tab.get noPace paces n).byTemp)
           ∧ (t.stack n).benches = (s.stack n).benches)
       ∧ t.power.tempHeld = held ∧ (∀ q, (∀ m, q ≠ .BCH_CLOCK m) → t.reg q = s.reg q) ∧ SameTiers s t)
  ∧ (∀ (s : State) (n : Nat), n < 8 →
     (∀ k, (s.stack n).nextStep = some k → ∃ t, exec (.applyClockStep n) s = .next t
       ∧ t.fld (.BCH_CLOCK n) BCH_CLOCK_APPLIED = k % 2 ^ (BCH_CLOCK_APPLIED.hi + 1 - BCH_CLOCK_APPLIED.lo)
       ∧ t.bit (.BCH_CLOCK n) BCH_CLOCK_NEIGHBOUR_CLOCK = (s.stack n).nextNeighbour.1
       ∧ t.bit (.BCH_CLOCK n) BCH_CLOCK_NEIGHBOUR_TEMP = (s.stack n).nextNeighbour.2
       ∧ (t.stack n).nextStep = none
       ∧ RegsOutside [.BCH_CLOCK n, .HCORE_CFG n, .HCORE_EVT_IDX n] s t ∧ SameStacks n s t ∧ SameTiers s t)
     ∧ ((s.stack n).nextStep = none → exec (.applyClockStep n) s = .next s))
  ∧ (∀ (s : State) (who : Requester) (n : Nat), n < 8 →
       (s.permit who (.BCH_RESEAT n) = .ok →
         (s.reseatBusy n = false → s.stackIdle n = true → ∃ t, exec (.reseatGo who n) s = .next t
           ∧ t.bit (.BCH_RESEAT n) BCH_RESEAT_BUSY = true
           ∧ (t.stack n).reseat = (List.range 16).filterMap (fun y =>
               match s.vacantCols n y with
               | x :: _ => if s.spareOk n y then some (y, x) else none
               | [] => none)
           ∧ (t.stack n).benches = (s.stack n).benches ∧ RegsOutside [.BCH_RESEAT n] s t)
         ∧ (s.reseatBusy n = true ∨ s.stackIdle n = false →
           exec (.reseatGo who n) s = .next ((unlatched s who (.BCH_RESEAT n)).quiet n 0)))
       ∧ (s.reseatBusy n = true → ∃ t, exec (.reseatDone n) s = .next t
         ∧ t.bit (.BCH_RESEAT n) BCH_RESEAT_BUSY = false ∧ t.bit (.BCH_RESEAT n) BCH_RESEAT_DONE = true
         ∧ (t.stack n).reseat = []
         ∧ (∀ y x, (s.stack n).reseat = [(y, x)] → y < 16 → x < 21 →
           t.fld (.BCH_RESEAT n) BCH_RESEAT_ROWS = 2 ^ y
             ∧ t.fld (.BCH_ROW_MAP n y) BCH_ROW_MAP_BYPASS = x
             ∧ (∀ z, z ≠ y → t.reg (.BCH_ROW_MAP n z) = s.reg (.BCH_ROW_MAP n z))
             ∧ (∀ j k, x ≤ j → j < 21 → k < 0x100000 →
               Mem.read (t.stack n).drawer (0x100000 * (21 * y + j) + k) = 0
                 ∧ (t.bench n (21 * y + j)).bundles = 0))))

/-- R166 to R168: GO starts the copy of a runtime image that fits; when it has been copied core 0, or the core that
takes its place, runs in supervisor mode; the runtime starts further cores there. It stops a core, which goes back to
machine mode, suspends one until it is resumed, asks for a core's state, and moves between supervisor and user mode
(PRESUMED, the RISC-V Supervisor Binary Interface: log entry 180). R186 to R188: a core that is not kicked for one
interval is warned and for two is hung; KICK restarts its timer and returns it to RUN, and RESTART starts it again and
counts. A GO that comes while a copy runs starts it again, and the suspend call is what puts a core in WFI: the
model's choices (log entries 42 and 172). -/
def Obligations.HostCoresRunAndAreWatched : Prop :=
  (∀ (s : State) (who : Requester) (n core : Nat) (value addr a1 : Word), n < 8 → core < 8 →
     (s.permit who (.HCORE_BOOT n) = .ok → getF value HCORE_BOOT_GO = 1 → s.bound n = true →
       s.bit (.HCORE_BOOT n) HCORE_BOOT_RUNNING = false →
       ∀ pages addr, pages = getF value HCORE_BOOT_SIZE → addr = getF value HCORE_BOOT_ADDR →
       0 < pages → pages ≤ 1024 → 4096 * (addr + pages) ≤ s.nearSize n →
       Completes (.runtimeGo who n value) s (fun t => (t.stack n).booting = some (4096 * addr, pages)
         ∧ RegsOutside [.HCORE_BOOT n] s t))
     ∧ (∀ addr pages, s.stackUp n = true → (s.stack n).booting = some (addr, pages) → s.tierBusy n false addr (4096 * pages) = false →
       (s.loadTier n false addr (4096 * pages)).poisoned = false → s.firstCore n = some core →
       Completes (.runtimeCopyDone n) s (fun t => (t.stack n).booting = none
         ∧ t.bit (.HCORE_BOOT n) HCORE_BOOT_RUNNING = true ∧ t.coreSt n core = 1
         ∧ (∀ bs, bs = (s.loadTier n false addr (4096 * pages)).bytes → ∀ k, k < 4096 * pages →
             Mem.read (t.stack n).sram k = nth 0 bs k)
         ∧ Tab.get CoreStart.reset (t.stack n).coreArgs core = ⟨n, 0x800000, 0, 0, .supervisor⟩))
     ∧ (s.stackUp n = true → s.bit (.HCORE_BOOT n) HCORE_BOOT_RUNNING = true → s.coreSt n core = 0 →
       s.unitFailed kindCore n core = false →
       Completes (.hartStart n core (.start addr a1)) s (fun t => t.coreSt n core = 1
         ∧ Tab.get CoreStart.reset (t.stack n).coreArgs core = ⟨core, a1.toNat, 0, addr.toNat, .supervisor⟩
         ∧ Tab.get 0 (t.stack n).kicked core = s.now
         ∧ RegsOutside [.HCORE_CORE n core] s t))
     ∧ (s.stackUp n = true → (s.coreSt n core = 1 ∨ s.coreSt n core = 3) →
       Completes (.hartStart n core .stop) s (fun t => t.coreSt n core = 0
         ∧ (Tab.get CoreStart.reset (t.stack n).coreArgs core).mode = .machine ∧ SameTiers s t)
       ∧ Completes (.hartStart n core .suspend) s (fun t => t.coreSt n core = 2 ∧ t.stackTab = s.stackTab
         ∧ RegsOutside [.HCORE_CORE n core] s t)
       ∧ ∀ user, Completes (.hartStart n core (.mode user)) s (fun t =>
         (Tab.get CoreStart.reset (t.stack n).coreArgs core).mode = (if user then .user else .supervisor)
           ∧ (∀ d, d ≠ core → Tab.get CoreStart.reset (t.stack n).coreArgs d
               = Tab.get CoreStart.reset (s.stack n).coreArgs d) ∧ t.regs = s.regs))
     ∧ (s.stackUp n = true → s.coreSt n core = 2 →
       Completes (.hartStart n core .resume) s (fun t => t.coreSt n core = 1 ∧ t.stackTab = s.stackTab
         ∧ RegsOutside [.HCORE_CORE n core] s t))
     ∧ (s.stackUp n = true → s.bit (.HCORE_BOOT n) HCORE_BOOT_RUNNING = true →
       Completes (.hartStart n core .status) s (fun t => { t with out := s.out } = s
         ∧ t.out = .coreData (if s.coreSt n core = 1 ∨ s.coreSt n core = 3 then 0
             else if s.coreSt n core = 2 then 4 else 1) :: s.out)))
  ∧ (∀ (s : State) (who : Requester) (n core : Nat), n < 8 → core < 8 →
       (s.stackUp n = true → (s.coreSt n core = 1 ∨ s.coreSt n core = 2) → s.coreTimer n core 1 = true →
         Completes (.coreWdogWarn n core) s (fun t => t.coreSt n core = 3
           ∧ RegsOutside [.HCORE_CORE n core, .HCORE_CFG n, .HCORE_EVT_IDX n] s t))
       ∧ (s.stackUp n = true → s.coreSt n core = 3 → s.coreTimer n core 2 = true →
         Completes (.coreWdogHung n core) s (fun t => t.coreSt n core = 4
           ∧ t.bit .HOSTIF_NOTIFY HOSTIF_NOTIFY_CORE_HUNG = true))
       ∧ (s.permit who (.HCORE_CORE n core) = .ok →
         Completes (.kick who n core) s (fun t => Tab.get 0 (t.stack n).kicked core = s.now
           ∧ t.coreSt n core = (if s.coreSt n core = 3 then 1 else s.coreSt n core)
           ∧ RegsOutside [.HCORE_CORE n core] s t)
         ∧ (s.coreSt n core ≠ 0 → s.unitFailed kindCore n core = false →
           Completes (.restart who n core) s (fun t => t.coreSt n core = 1
             ∧ Tab.get CoreStart.reset (t.stack n).coreArgs core = ⟨n, 0x800000, 1, 0, .supervisor⟩
             ∧ t.fld (.HCORE_CORE n core) HCORE_CORE_RESETS
                 = min (2 ^ (HCORE_CORE_RESETS.hi + 1 - HCORE_CORE_RESETS.lo) - 1)
                     (s.fld (.HCORE_CORE n core) HCORE_CORE_RESETS + 1)
             ∧ RegsOutside [.HCORE_CORE n core] s t))))

/-- R184, R191, R181: a device-side ring takes the sizes of R184 alone and starts with both indices 0; its
doorbell moves TAIL and nothing else. -/
def Obligations.DeviceRingsAreSetUpAndPosted : Prop :=
  ∀ (s : State) (who : Requester) (n r : Nat) (value : Word), n < 8 → r < 8 →
    (s.permit who (.HCORE_DRING_CFG n r) = .ok → ∀ size, size = getF value HCORE_DRING_CFG_SIZE →
      (size = 0 → Completes (.dringCfgWrite who n r value) s (fun t =>
        t.dringSize n r = 0 ∧ OnlyRegs [.HCORE_DRING_CFG n r] (unlatched s who (.HCORE_DRING_CFG n r)) t))
      ∧ (size ∈ [16, 32, 64, 128, 256, 512, 1024, 2048, 4096] → Completes (.dringCfgWrite who n r value) s (fun t =>
        t.dringSize n r = size ∧ t.reg (.HCORE_DRING_IDX n r) = 0
          ∧ OnlyRegs [.HCORE_DRING_CFG n r, .HCORE_DRING_IDX n r] (unlatched s who (.HCORE_DRING_CFG n r)) t))
      ∧ (size ≠ 0 → size ∉ [16, 32, 64, 128, 256, 512, 1024, 2048, 4096] →
        Completes (.dringCfgWrite who n r value) s (fun t =>
          t.dringSize n r = 0 ∧ t.reg (.HCORE_DRING_IDX n r) = 0
            ∧ t.reg (.SWC_QUIET n 0) = (s.quiet n 0).reg (.SWC_QUIET n 0)
            ∧ OnlyRegs [.HCORE_DRING_CFG n r, .HCORE_DRING_IDX n r, .SWC_QUIET n 0]
              (unlatched s who (.HCORE_DRING_CFG n r)) t)))
    ∧ (s.permit who (.HCORE_DRING_IDX n r) = .ok → Completes (.dringDoorbell who n r value) s (fun t =>
        t.fld (.HCORE_DRING_IDX n r) HCORE_DRING_IDX_TAIL = getF value HCORE_DRING_IDX_TAIL
          ∧ t.fld (.HCORE_DRING_IDX n r) HCORE_DRING_IDX_HEAD = s.fld (.HCORE_DRING_IDX n r) HCORE_DRING_IDX_HEAD
          ∧ OnlyRegs [.HCORE_DRING_IDX n r] (unlatched s who (.HCORE_DRING_IDX n r)) t))

/-! ### Rings and descriptors -/

/-- R199, R200, R204, R205, R501: a ring that fits is enabled with its counts at 0; a sealed one fits where every stack that
its STACKS names and that is BOUND belongs to its TENANT, since the bits of the others read 0. A write of a ring that is enabled, or that has not drained, is counted, but for the
one that disables it, which leaves every other field. A disabled ring keeps the
size of its outstanding descriptors and loses its error; the doorbell line is read again when the host writes to it and
at a poll, and its read takes P and U. -/
def Obligations.RingsAreEnabledAndPolled : Prop :=
  ∀ (s : State) (who : Requester) (r : Nat) (value : Word), r < 64 →
    (s.permit who (.HOSTIF_RING_CFG r) = .ok → s.ringDrained r = true →
      ∀ size ver, size = getF value HOSTIF_RING_CFG_SIZE → ver = getF value HOSTIF_RING_CFG_VER_REQ →
      (∃ i, i < 13 ∧ size = 16 * 2 ^ i) →
      (getF value HOSTIF_RING_CFG_SEALED = 0 → 2 ≤ ver) →
      (getF value HOSTIF_RING_CFG_SEALED = 1 → 4 ≤ ver ∧ ∀ n, n < 8 →
        bitOf (getF value HOSTIF_RING_CFG_STACKS) n = true → s.stackUp n = true → s.bound n = true →
        s.tenantOf n = getF value HOSTIF_RING_CFG_TENANT) →
      Completes (.ringEnable who r value) s (fun t =>
        t.fld (.HOSTIF_RING_CFG r) HOSTIF_RING_CFG_SIZE = size
          ∧ t.fld (.HOSTIF_RING_CFG r) HOSTIF_RING_CFG_VER = min ver 4
          ∧ (∀ f ∈ [HOSTIF_RING_CFG_SEALED, HOSTIF_RING_CFG_TENANT, HOSTIF_RING_CFG_CTX, HOSTIF_RING_CFG_STACKS,
              HOSTIF_RING_CFG_VER_REQ, HOSTIF_RING_CFG_MSIX], t.fld (.HOSTIF_RING_CFG r) f = getF value f)
          ∧ t.reg (.HOSTIF_RING_IDX r) = 0 ∧ t.reg (.HOSTIF_RING_CIDX r) = 0
          ∧ t.ring r = { size := size, lineHeld := false, reading := true }
          ∧ RegsOutside [.HOSTIF_RING_CFG r, .HOSTIF_RING_IDX r, .HOSTIF_RING_CIDX r] s t
          ∧ t.host.descs = s.host.descs))
    ∧ (s.permit who (.HOSTIF_RING_CFG r) = .ok → s.ringOn r = true → getF value HOSTIF_RING_CFG_SIZE = 0 →
      Completes (.ringDisable who r value) s (fun t =>
        t.fld (.HOSTIF_RING_CFG r) HOSTIF_RING_CFG_SIZE = 0 ∧ t.ringOn r = false
          ∧ (∀ f ∈ [HOSTIF_RING_CFG_SEALED, HOSTIF_RING_CFG_TENANT, HOSTIF_RING_CFG_CTX, HOSTIF_RING_CFG_STACKS,
              HOSTIF_RING_CFG_VER_REQ, HOSTIF_RING_CFG_MSIX],
              t.fld (.HOSTIF_RING_CFG r) f = s.fld (.HOSTIF_RING_CFG r) f)
          ∧ t.bit (.HOSTIF_RING_STATUS r) HOSTIF_RING_STATUS_ERROR = false
          ∧ t.ring r = { size := (s.ring r).size, lineHeld := false, reading := false }
          ∧ RegsOutside [.HOSTIF_RING_CFG r, .HOSTIF_RING_STATUS r] s t
          ∧ t.host.descs = s.host.descs))
    ∧ (s.ringOn r = true ∨ s.ringDrained r = false → ∀ counted : State → Prop,
      counted = (fun t => t.reg (.SWC_QUIET 8 0) = (s.quiet 8 0).reg (.SWC_QUIET 8 0)
        ∧ RegsOutside [.SWC_QUIET 8 0] s t ∧ t.host = s.host) →
      (s.permit who (.HOSTIF_RING_CFG r) = .ok → (s.ringOn r = true → getF value HOSTIF_RING_CFG_SIZE ≠ 0) →
        Completes (.ringEnable who r value) s counted ∧ Completes (.ringDisable who r value) s counted)
      ∧ (∀ q ∈ [Reg.HOSTIF_RING_DESC r, .HOSTIF_RING_CPL r, .HOSTIF_RING_DB r], s.permit who q = .ok →
        s.reaches who q.offset = true → Completes (.registerWrite who (.one ⟨true, q.offset, 8, value⟩)) s counted))
    ∧ (∀ cells : List Host.Cell, s.ringOn r = true → (s.ring r).lineHeld = true →
      Completes (.doorbellSnoop r cells) s (fun t =>
        t.ring r = { size := (s.ring r).size, lineHeld := false, reading := true }
          ∧ (∀ a, (∀ c ∈ cells, c.1 ≠ a) → Mem.read t.hostMem a = Mem.read s.hostMem a)
          ∧ (∀ pre a b post, cells = pre ++ (a, b) :: post → (∀ c ∈ post, c.1 ≠ a) → Mem.read t.hostMem a = b)
          ∧ OnlyRegs [] s { t with hostMem := s.hostMem, host := s.host }))
    ∧ (s.ringOn r = true → (s.ring r).reading = true →
      ∀ p u, p = leNat (s.hostRead (s.dbAddr r) 4) → u = leNat (s.hostRead (s.dbAddr r + 8) 4) →
      Completes (.doorbellReadDone r false) s (fun t =>
        t.fld (.HOSTIF_RING_IDX r) HOSTIF_RING_IDX_POSTED = p
          ∧ t.fld (.HOSTIF_RING_IDX r) HOSTIF_RING_IDX_HEAD = s.fld (.HOSTIF_RING_IDX r) HOSTIF_RING_IDX_HEAD
          ∧ t.fld (.HOSTIF_RING_CIDX r) HOSTIF_RING_CIDX_CONSUMED = u
          ∧ t.ring r = { size := (s.ring r).size, lineHeld := true, reading := false }
          ∧ t.bit (.HOSTIF_RING_STATUS r) HOSTIF_RING_STATUS_ERROR
              = (s.bit (.HOSTIF_RING_STATUS r) HOSTIF_RING_STATUS_ERROR
                || decide ((s.ring r).size < sub32 p (s.fld (.HOSTIF_RING_IDX r) HOSTIF_RING_IDX_HEAD))
                || decide ((s.ring r).size < sub32 (s.fld (.HOSTIF_RING_CIDX r) HOSTIF_RING_CIDX_COMPLETED) u))
          ∧ RegsOutside [.HOSTIF_RING_IDX r, .HOSTIF_RING_CIDX r, .HOSTIF_RING_STATUS r] s t))
    ∧ (s.ringOn r = true → Completes (.doorbellPoll r) s (fun t =>
        t.ring r = { s.ring r with reading := true } ∧ OnlyRegs [] s { t with host := s.host }))

/-- R185, R195, R202, R207, R208, R588: at the ring's turn a fetch takes the descriptor at HEAD, moves HEAD on and, on
a host ring, advances SEQ. A fetched descriptor whose turn it is starts, on the lowest free DMA engine where it needs
one, and waits where none is free; one that failed at its fetch is finished. R201, R225: the completion record of a
settled descriptor is written at COMPLETED, which moves on, and the descriptor is gone. R197: a ring whose completions
then stand more than SIZE past the host's consumption stops with code 2. That a descriptor which failed its checks
ends when its turn to start has come, and that a start without a free engine changes nothing, are the model's choices
(log entries 37 and 2). -/
def Obligations.DescriptorsAreFetchedAndCompleted : Prop :=
  (∀ (s : State) (n r h : Nat) (bs : List Byte),
     (r < 64 → s.hostMayFetch r = true → s.ringTurn (.host r) = true → h = s.fld (.HOSTIF_RING_IDX r) HOSTIF_RING_IDX_HEAD →
       bs = s.hostRead (4096 * s.fld (.HOSTIF_RING_DESC r) HOSTIF_RING_DESC_ADDR
         + 64 * (h % max 1 (s.ring r).size)) 64 →
       Completes (.descriptorFetch (.host r) false) s (fun t =>
         t.fld (.HOSTIF_RING_IDX r) HOSTIF_RING_IDX_HEAD = (h + 1) % 2 ^ 32
           ∧ t.reg (.HOSTIF_RING_SEQ r) = s.reg (.HOSTIF_RING_SEQ r) + 1
           ∧ ∃ d ∈ t.host.descs, d.handle = s.host.nextHandle ∧ d.ring = .host r ∧ d.index = h
               ∧ d.words = wordsOf bs ∧ d.order = s.host.nextOrder))
     ∧ (n < 8 → r < 8 → s.devMayFetch n r = true → s.ringTurn (.dev n r) = true → h = s.fld (.HCORE_DRING_IDX n r) HCORE_DRING_IDX_HEAD →
       bs = Mem.readBytes (s.stack n).sram (4096 * s.fld (.HCORE_DRING_CFG n r) HCORE_DRING_CFG_DESC_BASE
         + 64 * (h % max 1 (s.dringSize n r))) 64 →
       Completes (.descriptorFetch (.dev n r) false) s (fun t =>
         t.fld (.HCORE_DRING_IDX n r) HCORE_DRING_IDX_HEAD
             = (h + 1) % 2 ^ (HCORE_DRING_IDX_HEAD.hi + 1 - HCORE_DRING_IDX_HEAD.lo)
           ∧ ∃ d ∈ t.host.descs, d.handle = s.host.nextHandle ∧ d.ring = .dev n r ∧ d.index = h
               ∧ d.words = wordsOf bs))
     ∧ (∀ d, s.desc? h = some d → d.st = .fetched → s.turnOk d = true →
       (s.endsAtTurn d = true → Completes (.descriptorStart h) s (DescBecomes h (finishedDesc d) s))
       ∧ (s.endsAtTurn d = false → d.needsEngine = false →
         Completes (.descriptorStart h) s (DescBecomes h { d with st := .started, startNo := s.nextStart } s))
       ∧ (∀ i, s.endsAtTurn d = false → d.needsEngine = true → i < 16 → s.unitFailed kindDma d.stack i = false →
         (∀ e ∈ s.host.descs, e.stack = d.stack → e.engine ≠ i + 1) →
         (∀ b ∈ (s.stack d.stack).rebuilds, b.engine ≠ i + 1) →
         (∀ j, j < i → s.unitFailed kindDma d.stack j = true) →
         Completes (.descriptorStart h) s
           (DescBecomes h { d with st := .started, startNo := s.nextStart, engine := i + 1 } s))
       ∧ (s.endsAtTurn d = false → d.needsEngine = true → s.freeEngine d.stack = none →
         NoEffect (.descriptorStart h) s)))
  ∧ (∀ (s : State) (h r n : Nat) (d : Desc), s.desc? h = some d → s.settledDesc d = true →
       (∀ e ∈ s.host.descs, e.st ≠ .waitSegs) →
       (∀ c, d.ring = .host r → c = s.fld (.HOSTIF_RING_CIDX r) HOSTIF_RING_CIDX_COMPLETED →
         Completes (.completionWrite h false) s (fun t => t.desc? h = none
           ∧ HostWritten (4096 * s.fld (.HOSTIF_RING_CPL r) HOSTIF_RING_CPL_ADDR + 16 * (c % max 1 (s.ring r).size))
               (recordBytes d (s.fld (.HOSTIF_RING_IDX r) HOSTIF_RING_IDX_HEAD) (phaseOf c (s.ring r).size)) s t
           ∧ t.fld (.HOSTIF_RING_CIDX r) HOSTIF_RING_CIDX_COMPLETED = (c + 1) % 2 ^ 32
           ∧ RegsOutside [.HOSTIF_RING_CIDX r, .HOSTIF_RING_STATUS r] s t
           ∧ (∀ ahead, ahead = sub32 (c + 1) (s.fld (.HOSTIF_RING_CIDX r) HOSTIF_RING_CIDX_CONSUMED) →
             (ahead ≤ (s.ring r).size → t.reg (.HOSTIF_RING_STATUS r) = s.reg (.HOSTIF_RING_STATUS r))
             ∧ ((s.ring r).size < ahead → t.bit (.HOSTIF_RING_STATUS r) HOSTIF_RING_STATUS_ERROR = true
               ∧ (s.bit (.HOSTIF_RING_STATUS r) HOSTIF_RING_STATUS_ERROR = false →
                 t.fld (.HOSTIF_RING_STATUS r) HOSTIF_RING_STATUS_ERROR_CODE = 2)))))
       ∧ (∀ c, d.ring = .dev n r → 0 < s.dringSize n r →
         c = s.fld (.HCORE_DRING_IDX n r) HCORE_DRING_IDX_CPL_HEAD →
         s.bit (.HCORE_DRING_CFG n r) HCORE_DRING_CFG_IRQ = false →
         Completes (.completionWrite h false) s (fun t => t.desc? h = none
           ∧ (∀ k a bs, a = 4096 * s.fld (.HCORE_DRING_CFG n r) HCORE_DRING_CFG_CPL_BASE + 16 * (c % s.dringSize n r) →
               bs = recordBytes d (s.fld (.HCORE_DRING_IDX n r) HCORE_DRING_IDX_HEAD) (phaseOf c (s.dringSize n r)) →
               Mem.read (t.stack n).sram k = if a ≤ k ∧ k < a + bs.length then nth 0 bs (k - a)
                 else Mem.read (s.stack n).sram k)
           ∧ RegsOutside [.HCORE_DRING_IDX n r] s t)))

/-- R209, R218, R220, R223: a started descriptor acts. NOP and a FENCE of job 0 are finished; a FENCE of another job
waits for the accesses it covers; those that name a beat are armed; a KEYSTONE and an AT_BEAT put one store at the
abutment; a FILL and a COPY of host memory write it, and a COPY and a SNAPSHOT from the fabric read their source.
Which accesses a FENCE covers, where an engine cuts its requests, and that host memory is written within the command,
are the model's choices (log entries 48, 38, 191). -/
def Obligations.TransferDescriptorsAct : Prop :=
  ∀ (s : State) (h : Nat) (d : Desc), s.desc? h = some d →
    (d.st = .started →
      (d.opcode = 0x0E → Completes (.nopDescriptor h) s (DescBecomes h (finishedDesc d) s))
      ∧ (d.opcode = 0x05 → d.bits 1 63 48 = 0 → Completes (.fence h) s (DescBecomes h (finishedDesc d) s))
      ∧ (d.opcode = 0x05 → d.bits 1 63 48 ≠ 0 → Completes (.fence h) s (DescBecomes h
          { d with st := .running, phase := .held, waits := s.fenceCovers d.stack (d.bits 1 63 48) } s))
      ∧ (d.opcode = 0x07 → Completes (.waitBeat h) s (DescBecomes h { d with st := .armed } s))
      ∧ (d.opcode = 0x08 → Completes (.atBeat h) s (DescBecomes h { d with st := .armed } s))
      ∧ (d.opcode = 0x0B → Completes (.snapshot h) s (DescBecomes h { d with st := .armed } s))
      ∧ (∀ x, d.opcode = 0x06 → d.segsOf 1 = [x] → x.len = 8 → OnePiece (storePiece x) x → x.rights.getLsbD 1 = true → x.node ≠ 0xFFFF →
        Completes (.keystone h) s (fun t => DescAccessHeld d 3 x 8 (leBytes 8 (d.word 2).toNat) s t
          ∧ t.desc? h = some { d with st := .running, phase := .flag }))
      ∧ (d.opcode = 0x02 → d.flag 3 62 = true → Completes (.fill h) s (fun t =>
        HostWritten (d.word 1).toNat (fillBytes (d.word 2) (d.bits 3 39 0)) s t
          ∧ t.desc? h = some (finishedDesc d) ∧ (∀ g, g ≠ h → t.desc? g = s.desc? g)
          ∧ { t with host := s.host, hostMem := s.hostMem } = s))
      ∧ (∀ x, d.opcode = 0x02 → d.flag 3 62 = false → d.segsOf 1 = [x] → x.len = d.bits 3 39 0 →
        OnePiece (storePiece x) x → x.rights.getLsbD 1 = true → x.node ≠ 0xFFFF →
        Completes (.fill h) s (fun t => DescAccessHeld d 2 x x.len (fillBytes (d.word 2) x.len) s t
          ∧ t.desc? h = some { d with st := .running, phase := .dest }))
      ∧ (d.opcode = 0x01 → d.flag 3 63 = true → d.flag 3 62 = true → d.flag 3 61 = false →
        0 < d.bits 3 39 0 → d.copyOverlaps = false → Completes (.copy h) s (fun t =>
          HostWritten (d.word 2).toNat (s.hostRead (d.word 1).toNat (d.bits 3 39 0)) s t
            ∧ (∃ e, t.desc? h = some e ∧ e.st = .finished ∧ e.status = d.status)
            ∧ (∀ g, g ≠ h → t.desc? g = s.desc? g) ∧ { t with host := s.host, hostMem := s.hostMem } = s))
      ∧ (∀ x, d.opcode = 0x01 → d.flag 3 63 = false → d.segsOf 1 = [x] → x.len = d.bits 3 39 0 →
        OnePiece 256 x → x.rights.getLsbD 0 = true → x.node ≠ 0xFFFF →
        Completes (.copy h) s (fun t => DescAccessHeld d 1 x x.len [] s t
          ∧ t.desc? h = some { d with st := .running, phase := .source })))
    ∧ (s.fires d = true →
      (d.opcode = 0x07 → Completes (.waitBeatRelease h) s (DescBecomes h (finishedDesc d) s))
      ∧ (∀ x, d.opcode = 0x08 → d.segsOf 2 = [x] → x.len = 8 → OnePiece (storePiece x) x → x.rights.getLsbD 1 = true → x.node ≠ 0xFFFF →
        Completes (.atBeatRelease h) s (fun t =>
          DescAccessHeld d (if d.flag 1 63 then 3 else 2) x 8 (leBytes 8 (d.word 3).toNat) s t
            ∧ t.desc? h = some { d with st := .running, phase := .flag }))
      ∧ (∀ x, d.opcode = 0x0B → d.segsOf 2 = [x] → x.len = d.bits 4 39 0 → OnePiece 256 x →
        x.rights.getLsbD 0 = true → x.node ≠ 0xFFFF →
        Completes (.snapshotStart h) s (fun t => DescAccessHeld d 1 x x.len [] s t
          ∧ t.desc? h = some { d with st := .running, phase := .source })))

/-- R10, R134, R135, R160: a LAUNCH reads its image; where the module has every unit a program can need, one whose named
benches do not pass fails with BAD_DESC and detail 8 at once. The answer that brings the last of the image ends it with
ABSENT before any other status where its program needs an absent unit, then with BAD_DESC and detail 8 where its program,
its header or its benches are wrong, then with FAULT and the lowest vacant bench that it names. Otherwise the program is
loaded and each context of the mask starts at its entry, its registers zero and its generator seeded, and ballast stops on
its benches (R481). A LAUNCH completes when each context has ended, with the worst of their ends. That the image is read
whole before its checks, and in which order they come, is log entry 36, and that CAUSE stays as it was at the start log
entry 176: the model's choices. -/
def Obligations.LaunchStartsAndCompletes : Prop :=
  ∀ (s : State) (h : Nat) (d : Desc), s.desc? h = some d → d.opcode = 0x03 →
    (∀ x, d.st = .started → s.mayLack = true ∨ s.benchesBad d = false → d.segsOf 1 = [x] → OnePiece 256 x →
      x.rights.getLsbD 0 = true → x.node ≠ 0xFFFF →
      Completes (.launch h) s (fun t => DescAccessHeld d 1 x x.len [] s t
        ∧ t.desc? h = some { d with data := [], st := .running, phase := .source }))
    ∧ (d.st = .started → d.phase ≠ .ending → d.status = 0 → s.mayLack = false → s.benchesBad d = true →
      s.descReqs d = [] →
      Completes (.launch h) s (fun t => ∃ e, t.desc? h = some e ∧ e.st = .finished ∧ e.status = 0x08
        ∧ e.detail = 8 ∧ (t.stack d.stack).benches = (s.stack d.stack).benches))
    ∧ (∀ (n : Nat) (p : Packet) (e : Desc), d.handle = h → ImageCame s n p d e →
      (s.programFlaw e = .absent → Completes (.data n p) s (DescEnded h 0x01 0))
      ∧ (s.programFlaw e = .badDesc ∨ s.programFlaw e = .none ∧ (e.headerBad = true ∨ s.benchesBad e = true) →
        Completes (.data n p) s (DescEnded h 0x08 8))
      ∧ (∀ b, s.programFlaw e = .none → e.headerBad = false → s.benchesBad e = false → s.vacantNamed e = some b →
        Completes (.data n p) s (DescEnded h 0x02 (BitVec.ofNat 32 b)))
      ∧ (s.programFlaw e = .none → e.headerBad = false → s.benchesBad e = false → s.vacantNamed e = none →
        Completes (.data n p) s (fun t => t.desc? h = some { e with phase := .held, engine := 0 }
          ∧ ∀ b ∈ e.named, b ∉ (t.stack n).ballast
            ∧ (t.bench n b).bundles = e.imageCount
            ∧ (∀ i, i < e.program.length → Tab.get 0 (t.bench n b).prog i = nth 0 e.program i)
            ∧ (∀ j, j < 8 → j ∉ e.starts → t.ctx ⟨n, b, j⟩ = s.ctx ⟨n, b, j⟩)
            ∧ ∀ c ∈ e.starts, ∀ x, x = t.ctx ⟨n, b, c⟩ →
              x.st = .run ∧ x.pc = e.entry c ∧ x.flags = 0
                ∧ x.rng = e.word 3 + BitVec.ofNat 64 ((8 * b + c) * 2 ^ 32)
                ∧ (∀ r, x.sreg r = 0) ∧ (∀ v i, x.lane v i = 0) ∧ x.waits = [] ∧ x.launch = h
                ∧ x.xctx = e.xctx ∧ x.cause = (s.ctx ⟨n, b, c⟩).cause)))
    ∧ (d.st = .running → d.phase = .held → d.status = 0 →
      (∀ p ∈ s.launched d, p.2.st = .idle ∨ p.2.st = .halted) →
      Completes (.launchComplete h) s (fun t => ∃ e, t.desc? h = some e ∧ e.st = .finished
        ∧ ((∃ p ∈ s.launched d, p.2.outcome = 3) → e.status = 0x04 ∧ e.detail = BitVec.ofNat 32 d.job)
        ∧ ((∀ p ∈ s.launched d, p.2.outcome ≠ 3) → (∃ p ∈ s.launched d, p.2.outcome = 2) → e.status = 0x02)
        ∧ ((∀ p ∈ s.launched d, p.2.outcome < 2) → (∃ p ∈ s.launched d, p.2.outcome = 1) →
            e.status = 0x09 ∧ e.detail = 5)
        ∧ ((∀ p ∈ s.launched d, p.2.outcome = 0) → e.status = 0)))

/-- R250, R253, R316, R317, R385, R388, R512: the descriptors that hold until something else ends. A SPAN_OPEN asks
the fabric manager and a SPAN_CLOSE waits for its beat; a COLLECTIVE of a bound group takes the next instance and
starts its header round, and one of an unbound group asks for it; an INVALIDATE drops what the look-aside buffer holds
of its range and waits; an ATTEST writes its report. That the instance is the count after its increment, and that the
report count includes the report itself, are the model's choices (log entries 85 and 147). -/
def Obligations.HeldDescriptorsBegin : Prop :=
  ∀ (s : State) (h : Nat) (d : Desc), s.desc? h = some d → d.st = .started →
    (d.opcode = 0x09 → s.span? d.stack d.spanId = none → (s.stack d.stack).spansOut.length < 1024 →
      BitVec.ofNat 16 (d.bits 1 63 48) ≠ s.node d.stack → s.fmNode ≠ 0xFFFF →
      Completes (.spanOpen h) s (fun t =>
        (t.stack d.stack).spansOut = (s.stack d.stack).spansOut ++ [s.newSpan d]
          ∧ t.desc? h = some { d with st := .running, phase := .held }
          ∧ MgmtSent (s.node d.stack) s.fmNode 0x01
              (le2 d.spanId.toNat ++ le2 (s.node d.stack).toNat ++ le1 (s.tenantOf d.stack) ++ le1 0
                ++ le2 (d.bits 1 63 48) ++ le8 (d.bits 1 47 0) ++ le8 (d.bits 2 39 0) ++ le1 (d.bits 3 54 48)
                ++ le1 0 ++ le4 (d.bits 5 18 0) ++ le6 (d.bits 3 47 0)) s t
          ∧ SameStacks d.stack s t ∧ { t.sw with arrived := s.sw.arrived } = s.sw
          ∧ OnlyRegs [] s
              { t with host := s.host, stackTab := s.stackTab, out := s.out, sw := s.sw, free := s.free }))
    ∧ (d.opcode = 0x0A → s.span? d.stack d.closes ≠ none →
      Completes (.spanClose h) s (DescBecomes h { d with st := .armed } s))
    ∧ (∀ g, d.opcode = 0x04 → s.collAhead d = false → s.group? d.stack d.group = some g → g.bound = true →
      g.broken = false → g.members = d.members → g.rank = d.rank → UpRoom s d.stack g.up 1 →
      Completes (.collective h) s (fun t =>
        (∃ c, t.coll? d.stack d.group = some c ∧ c.phase = 1 ∧ c.desc = h ∧ c.started = s.now
          ∧ c.inst = BitVec.ofNat 8 ((g.count + 1) % 256) ∧ c.arrival = s.beatNow)
          ∧ t.group? d.stack d.group = some { g with count := (g.count + 1) % 256, refetched := [] }
          ∧ SentUp d.stack g.up [laneFrame g.id ((g.count + 1) % 256) roundHeader 0 2 (s.memberTenant d.stack)
              (headerLanes d s.beatNow)] s t
          ∧ t.fld (.ABT_ARRIVAL d.stack) ABT_ARRIVAL_ARRIVAL = s.beatNow.toNat
          ∧ t.desc? h = some { d with st := .running, phase := .held }
          ∧ RegsOutside [.ABT_ARRIVAL d.stack] s t))
    ∧ (d.opcode = 0x04 → s.collAhead d = false → s.group? d.stack d.group = none →
      s.boundGroups d.stack < 64 → s.fmNode ≠ 0xFFFF →
      Completes (.collective h) s (fun t =>
        (∃ g, t.group? d.stack d.group = some g ∧ g.bound = false ∧ g.members = d.members ∧ g.rank = d.rank
          ∧ g.since = s.now)
          ∧ (∃ c, t.coll? d.stack d.group = some c ∧ c.phase = 0 ∧ c.desc = h)
          ∧ MgmtSent (s.node d.stack) s.fmNode 0x11 (le2 d.group.toNat ++ le1 (s.tenantOf d.stack) ++ le1 0
              ++ le2 (s.node d.stack).toNat ++ le2 d.members ++ le2 d.rank) s t
          ∧ t.desc? h = some { d with st := .running, phase := .held }))
    ∧ (d.opcode = 0x0D → d.bits 2 39 0 = 0 → Completes (.invalidate h) s (DescBecomes h (finishedDesc d) s))
    ∧ (d.opcode = 0x0D → 0 < d.bits 2 39 0 → d.flag 2 62 = false →
      (∀ e ∈ s.host.descs, e.segsHit d.stack d.xctx (d.word 1).toNat (d.bits 2 39 0) = false ∧ e.st ≠ .waitSegs) →
      Completes (.invalidate h) s (fun t =>
        (∀ e, e ∈ (t.stack d.stack).tlb ↔
          e ∈ (s.stack d.stack).tlb ∧ e.hits d.xctx (d.word 1).toNat (d.bits 2 39 0) = false)
          ∧ (∃ id, t.desc? h = some { d with st := .running, phase := .held, waits := d.waits ++ [id] }
              ∧ ∃ sh ∈ (t.stack d.stack).shoots, sh.id = id ∧ sh.asker = some h)))
    ∧ (∀ body : List Byte, d.opcode = 0x0C →
      body = ({ s with keeper := { s.keeper with reports := s.keeper.reports + 1 } } : State).report 1
        (s.ringTenant d.ring) ([1, 2, 3, 4].flatMap (fun i => leBytes 8 (d.word i).toNat)) [] [] →
      Completes (.attest h) s (fun t => HostWritten (d.word 5).toNat body s t ∧ body.length = 1040
        ∧ t.keeper.reports = s.keeper.reports + 1 ∧ t.desc? h = some (finishedDesc d)))

/-! ### Translation -/

/-- R236, R241, R243, R244, R250, R260, R262, R265, R266: the miss that has waited longest takes a free walker; a walk
starts at the lowest table that the walk cache holds, follows a pointer to the next table and holds it too, and one
that finds a leaf entry of 4 KiB, 2 MiB or 1 GiB fills the look-aside buffer, so that its waiter stands translated.
R245, R257, R258: a walk that finds no entry opens a fault for all its waiters: it is written to the fault queue, and
a context that waits for nothing else shows WAIT_FAULT. The fault held longest is written when the queue takes it;
RETRY walks again and FAIL kills a context that waits; the queue is enabled empty; and a context that is disabled is
drained before BUSY clears. That a walk starts at the lowest table cached, and reads its tables when it ends, is the
model's choice (log entry 20). -/
def Obligations.TranslationFollowsTables : Prop :=
  ∀ (s : State) (who : Requester) (n : Nat), n < 8 → ∀ k : Stack, k = s.stack n →
    (∀ (r : Req) (b c : Nat) (rest : List Waiter), k.misses = .ctx b c r.id :: rest →
      (∀ w ∈ rest, w.isReq r.id = false) → k.walkersBusy < s.walkers n →
      k.reqs.find? (fun q => q.id == r.id) = some r → k.faultOf r.xctx (r.va / 4096) = none →
      (∀ w ∈ k.walks, ¬(w.ctx = r.xctx ∧ w.page = r.va / 4096)) →
      Completes (.walkStart n r.id) s (fun t => (t.stack n).misses = rest
        ∧ ∃ w, (t.stack n).walks = k.walks ++ [w] ∧ w.ctx = r.xctx ∧ w.page = r.va / 4096
            ∧ w.waiters = [waiterOf r]))
    ∧ (∀ (w : Walk) (r : Req) (p : WalkPtr) (e : Word) (b c level size : Nat),
      WalkHeld s n w p level → w.waiters = [.ctx b c r.id] → level ≤ 2 → size = 4096 * 512 ^ level →
      k.tlb = [] → s.role n = 0 → (∀ d ∈ s.host.descs, d.st ≠ .waitSegs) →
      e = TableWord s n p.table (4096 * w.page / size % 512) →
      e.getLsbD 0 = true → e.getLsbD 1 = true → bitsOf e.toNat 11 10 = 0 → e.getLsbD 5 = false →
      bitsOf e.toNat 9 6 = 0 → 4096 * bitsOf e.toNat 47 12 % size = 0 →
      bitsOf e.toNat 63 48 ≠ 0xFFFF → bitsOf e.toNat 63 63 = 0 →
      k.reqs.find? (fun q => q.id == r.id && decide (q.st = .walking)) = some r → r.src = .ctx b c →
      r.xctx = w.ctx → r.va / 4096 = w.page → 0 < r.len → r.va % size + r.len ≤ size → r.bad = false →
      hasRight (BitVec.ofNat 3 (bitsOf e.toNat 4 2)) r.op = true →
      Completes (.walkComplete n w.ctx w.page) s (fun t =>
        (∃ x ∈ (t.stack n).tlb, x.ctx = w.ctx ∧ x.va = size * (r.va / size) ∧ x.size = size
          ∧ x.node.toNat = bitsOf e.toNat 63 48 ∧ x.base = 4096 * bitsOf e.toNat 47 12)
          ∧ (∀ x ∈ (t.stack n).walks, x ∈ k.walks ∧ x ≠ w)
          ∧ ∃ q ∈ (t.stack n).reqs, q.id = r.id ∧ q.st = .held ∧ q.node.toNat = bitsOf e.toNat 63 48
              ∧ q.offset = 4096 * bitsOf e.toNat 47 12 + r.va % size))
    ∧ (∀ (w : Walk) (p : WalkPtr) (e1 e0 : Word) (next : Nat), WalkHeld s n w p 1 → w.waiters = [] →
      (∀ d ∈ s.host.descs, d.st ≠ .waitSegs) →
      e1 = TableWord s n p.table (w.page / 512 % 512) → e1.getLsbD 0 = true → bitsOf e1.toNat 11 1 = 0 →
      bitsOf e1.toNat 63 48 = 0 → next = 4096 * bitsOf e1.toNat 47 12 → next + 4096 ≤ s.nearSize n →
      k.mark false ((next + 8 * (w.page % 512)) / 128) = markData → e0 = TableWord s n next (w.page % 512) →
      e0.getLsbD 0 = true → e0.getLsbD 1 = true → bitsOf e0.toNat 11 10 = 0 → e0.getLsbD 5 = false →
      bitsOf e0.toNat 9 6 = 0 →
      Completes (.walkComplete n w.ctx w.page) s (fun t =>
        (∃ x ∈ (t.stack n).tlb, x.ctx = w.ctx ∧ x.va = 4096 * w.page ∧ x.size = 4096
          ∧ x.node.toNat = bitsOf e0.toNat 63 48 ∧ x.base = 4096 * bitsOf e0.toNat 47 12)
          ∧ (t.stack n).walkCache = [⟨w.ctx, 0, 4096 * w.page, next⟩, p] ∧ RegsOutside [] s t))
    ∧ (∀ (w : Walk) (p : WalkPtr) (e : Word) (head : Nat) (f : Fault8), WalkHeld s n w p 0 →
      (∀ x ∈ w.waiters, ∃ b c q, x = .ctx b c q ∧ (s.ctx ⟨n, b, c⟩).st ≠ .killed) →
      (∀ d ∈ s.host.descs, d.st ≠ .waitSegs) → k.faults = [] → s.fqOpen n = true →
      head = s.fld (.XLT_FQ_IDX n) XLT_FQ_IDX_HEAD → head ≠ s.fld (.XLT_FQ_IDX n) XLT_FQ_IDX_TAIL →
      e = TableWord s n p.table (w.page % 512) → e.getLsbD 0 = false →
      f = { ctx := w.ctx, page := w.page, cause := 1, level := 0, access := w.access, entry := e, beat := s.beatNow,
            waiters := w.waiters, seq := none } →
      Completes (.walkComplete n w.ctx w.page) s (fun t =>
        (t.stack n).faults = [{ f with seq := some (BitVec.ofNat 16 head) }]
          ∧ t.fld (.XLT_FQ_IDX n) XLT_FQ_IDX_HEAD = (head + 1) % 2 ^ 16
          ∧ (∀ a bs i, a = 0x10000 * s.fld (.XLT_CFG n) XLT_CFG_FQ_BASE + 64 * (head % 4096) →
              bs = faultEntry s f head →
              Mem.read (t.stack n).sram i = if a ≤ i ∧ i < a + bs.length then nth 0 bs (i - a)
                else Mem.read k.sram i)
          ∧ (t.stack n).reqs = k.reqs ∧ (t.stack n).tlb = k.tlb
          ∧ (∀ b c q, .ctx b c q ∈ w.waiters → (s.ctx ⟨n, b, c⟩).waits = [.fence] →
              (s.ctx ⟨n, b, c⟩).st = .waitRemote → (t.ctx ⟨n, b, c⟩).st = .waitFault)
          ∧ (k.shadow.late = [] → RegsOutside [.XLT_FQ_IDX n] s t)))
    ∧ (∀ (f : Fault8) (head : Nat), k.faults.find? (fun g => g.seq.isNone) = some f → s.fqOpen n = true →
      head = s.fld (.XLT_FQ_IDX n) XLT_FQ_IDX_HEAD → head ≠ s.fld (.XLT_FQ_IDX n) XLT_FQ_IDX_TAIL →
      (∀ d ∈ s.host.descs, d.st ≠ .waitSegs) →
      Completes (.heldFaultWrite n) s (fun t =>
        t.fld (.XLT_FQ_IDX n) XLT_FQ_IDX_HEAD = (head + 1) % 2 ^ 16
          ∧ (∀ a bs i, a = 0x10000 * s.fld (.XLT_CFG n) XLT_CFG_FQ_BASE + 64 * (head % 4096) →
              bs = faultEntry s f head →
              Mem.read (t.stack n).sram i = if a ≤ i ∧ i < a + bs.length then nth 0 bs (i - a)
                else Mem.read k.sram i)
          ∧ { f with seq := some (BitVec.ofNat 16 head) } ∈ (t.stack n).faults ∧ f ∉ (t.stack n).faults
          ∧ RegsOutside [.XLT_FQ_IDX n] s t))
    ∧ (∀ (f : Fault8) (r : Req) (b c : Nat) (seq : BitVec 16), s.permit who (.XLT_FQ_RESOLVE n) = .ok →
      k.faults = [f] → f.seq = some seq → f.waiters = [.ctx b c r.id] →
      (k.reqs.find? (fun q => q.id == r.id && decide (q.st = .walking)) = some r → r.src = .ctx b c →
        k.lookup r.xctx r.va = .miss → (∀ w ∈ k.walks, ¬(w.ctx = r.xctx ∧ w.page = r.va / 4096)) →
        Completes (.faultRetry who n seq) s (fun t => (t.stack n).faults = []
          ∧ (t.stack n).misses = k.misses ++ [.ctx b c r.id]
          ∧ (k.shadow.late = [] →
            OnlyRegs [] (unlatched s who (.XLT_FQ_RESOLVE n)) { t with stackTab := s.stackTab })))
      ∧ (killable (s.ctx ⟨n, b, c⟩).st = true → s.haltDone ⟨n, b, c⟩ = false →
        (∀ x, x = s.bench n b → x.txQueue = [] ∧ x.rxQueue = [] ∧ x.txOwner = [] ∧ x.rxOwner = []) →
        Completes (.faultFail who n seq) s (fun t => (t.stack n).faults = []
          ∧ (t.ctx ⟨n, b, c⟩).st = .killed ∧ SameCtxs ⟨n, b, c⟩ s t)))
    ∧ (∀ value : Word, s.permit who (.XLT_CFG n) = .ok → s.bit (.XLT_CFG n) XLT_CFG_FQ_ON = false →
      getF value XLT_CFG_FQ_ON = 1 → getF value XLT_CFG_FQ_BASE ≤ 124 →
      Completes (.fqCfgWrite who n value) s (fun t => t.bit (.XLT_CFG n) XLT_CFG_FQ_ON = true
        ∧ t.fld (.XLT_CFG n) XLT_CFG_FQ_BASE = getF value XLT_CFG_FQ_BASE
        ∧ t.fld (.XLT_FQ_IDX n) XLT_FQ_IDX_HEAD = 0 ∧ t.fld (.XLT_FQ_IDX n) XLT_FQ_IDX_TAIL = 0
        ∧ OnlyRegs [.XLT_CFG n, .XLT_FQ_IDX n] (unlatched s who (.XLT_CFG n)) t))
    ∧ (∀ (c : Nat) (value : Word), c < 256 → s.permit who (.XLT_CTX n c) = .ok →
      s.bit (.XLT_CTX n c) XLT_CTX_BUSY = false →
      (s.bit (.XLT_CTX n c) XLT_CTX_ENABLE = false →
        Completes (.contextWrite who n c value) s (fun t =>
          t.fld (.XLT_CTX n c) XLT_CTX_ENABLE = getF value XLT_CTX_ENABLE
            ∧ t.fld (.XLT_CTX n c) XLT_CTX_ROOT = getF value XLT_CTX_ROOT
            ∧ OnlyRegs [.XLT_CTX n c] (unlatched s who (.XLT_CTX n c)) t))
      ∧ (s.bit (.XLT_CTX n c) XLT_CTX_ENABLE = true → getF value XLT_CTX_ENABLE = 0 → s.host.descs = [] →
        Completes (.contextWrite who n c value) s (fun t =>
          t.bit (.XLT_CTX n c) XLT_CTX_BUSY = true ∧ t.bit (.XLT_CTX n c) XLT_CTX_ENABLE = false
            ∧ (∀ e ∈ (t.stack n).tlb, e.hits c 0 (2 ^ 57) = false ∧ e ∈ k.tlb)
            ∧ ∃ sh, (t.stack n).shoots = k.shoots ++ [sh] ∧ sh.ctx = c ∧ sh.asker = none)))
    ∧ (∀ (id : Nat) (sh : Shoot), k.shoots.find? (fun x => x.id == id) = some sh →
      s.shootDrained n sh = true → sh.asker = none →
      Completes (.shootdownDrainDone n id) s (fun t => t.bit (.XLT_CTX n sh.ctx) XLT_CTX_BUSY = false
        ∧ (∀ x ∈ (t.stack n).shoots, x.id ≠ id) ∧ RegsOutside [.XLT_CTX n sh.ctx] s t))

/-! ### The fabric at its target and its source -/

/-- R269, R273, R275, R280, R281, R292: a load returns the bytes at its offset and changes none; a store and a keystone
write theirs and are acknowledged; an atomic writes its new value and returns the old one; a store-accumulate
writes its sums; and the turn of a line serves one of its waiting requests. R97, R100: so it is with a request to the
drawer window, whose bytes are those of the drawers. That the turns of a line go round by node, the first come of each
first, is log entry 224: the model's choice. -/
def Obligations.TargetAppliesRequests : Prop :=
  (∀ (s : State) (n : Nat) (p : Packet) (a : Nat), ReachesDrawers s n p a →
    ∀ m : Nat → List Byte, m = Mem.readBytes (s.stack n).drawer a →
    (p.op = 1 → Completes (.load n p) s (fun t => Answers n p 0x11 (m (p.param.toNat + 1)) s t ∧ SameTiers s t))
    ∧ (∀ c : Instr, p.op = 2 ∧ c = .store n p ∨ p.op = 3 ∧ c = .routedKeystone n p →
      Completes c s (fun t => DrawersWritten n a p.payload s t ∧ Answers n p 0x10 [] s t))
    ∧ (∀ sub w old opnd cmp new : Nat, p.op = 4 → sub = bitsOf p.param.toNat 7 4 → w = pktAtomicBytes p → a % w = 0 →
      old = leNat (m w) → opnd = leNat (p.payload.take w) →
      cmp = leNat ((p.payload.drop 8).take w) → new = atomicNew sub (8 * w) old opnd cmp →
      Completes (.atomic n p) s (fun t => DrawersWritten n a (leBytes w new) s t ∧ Answers n p 0x12 (m w) s t))
    ∧ (∀ fmt w, p.op = 5 → fmt = bitsOf p.param.toNat 5 2 → w = max 1 (fmtWidth fmt / 8) → a % w = 0 →
      p.payload.length % w = 0 →
      Completes (.accum n p) s (fun t =>
        DrawersWritten n a (accumBytes fmt (bitsOf p.param.toNat 7 6) (m p.payload.length) p.payload) s t
          ∧ Answers n p 0x10 [] s t)))
  ∧ ∀ (s : State) (n : Nat) (p : Packet) (far : Bool) (o : Nat), Reaches s n p far o →
    ∀ m : Nat → List Byte, m = plainBytes (s.stack n) far o →
    (p.op = 1 → Completes (.load n p) s (fun t =>
      Answers n p 0x11 (m (p.param.toNat + 1)) s t ∧ SameTiers s t
        ∧ RegsOutside [.ABT_LINE_STATUS n, .SWC_CELL_STATUS] s t))
    ∧ (p.op = 2 → Completes (.store n p) s (fun t =>
      TierWritten n far o p.payload s t ∧ Answers n p 0x10 [] s t
        ∧ RegsOutside [.ABT_LINE_STATUS n, .SWC_CELL_STATUS] s t))
    ∧ (p.op = 3 → Completes (.routedKeystone n p) s (fun t =>
      TierWritten n far o p.payload s t ∧ Answers n p 0x10 [] s t))
    ∧ (∀ sub w old opnd cmp new : Nat, p.op = 4 → sub = bitsOf p.param.toNat 7 4 → w = pktAtomicBytes p → o % w = 0 →
      old = leNat (m w) → opnd = leNat (p.payload.take w) →
      cmp = leNat ((p.payload.drop 8).take w) → new = atomicNew sub (8 * w) old opnd cmp →
      Completes (.atomic n p) s (fun t => TierWritten n far o (leBytes w new) s t
        ∧ Answers n p 0x12 (m w) s t
        ∧ (sub = 0 → new = (old + opnd) % 2 ^ (8 * w)) ∧ (sub = 3 → new = opnd)
        ∧ (sub = 4 → new = if old = cmp then opnd else old)))
    ∧ (∀ fmt w, p.op = 5 → fmt = bitsOf p.param.toNat 5 2 → w = max 1 (fmtWidth fmt / 8) → o % w = 0 →
      p.payload.length % w = 0 →
      Completes (.accum n p) s (fun t =>
        TierWritten n far o (accumBytes fmt (bitsOf p.param.toNat 7 6) (m p.payload.length) p.payload) s t
          ∧ Answers n p 0x10 [] s t))
    ∧ (∀ line, p.op = 2 → p.hops.toNat ≤ 8 → (pktLines p).head? = some line → s.lineWaiters n line = [p] → Completes (.lineServe n line) s (fun t =>
      TierWritten n far o p.payload s t ∧ Answers n p 0x10 [] s t
        ∧ Tab.get 65535 (t.stack n).lineTurn line = p.src.toNat
        ∧ t.fld (.ABT_LINE_STATUS n) ABT_LINE_STATUS_MAX_WAITING
            = max (s.fld (.ABT_LINE_STATUS n) ABT_LINE_STATUS_MAX_WAITING) 1))

/-- R286, R287, R307: a request that fails the target's checks, that comes from a JZB-2 node for bytes outside the coherent
window, or that names nothing it may act on, is answered as if it had succeeded, with zeros where it returns data, and is
counted; one that was applied before is answered again, an atomic with the old value of the first time (a load that comes
again is served again: TargetAppliesRequests). R463, R501: one that waits for a stack that
has failed, or that is not bound, is answered with DEAD. R292: one that another operation stands before on its line
waits. None of them touches memory. -/
def Obligations.RefusedAndRepeatedRequestsTouchNothing : Prop :=
  ∀ (s : State) (n : Nat) (p : Packet) (c : Instr),
    (p.op = 1 ∧ c = .load n p) ∨ (p.op = 2 ∧ c = .store n p) ∨ (p.op = 3 ∧ c = .routedKeystone n p)
        ∨ (p.op = 4 ∧ c = .atomic n p) ∨ (p.op = 5 ∧ c = .accum n p) →
    (StandsAlone s n p → ((s.stack n).applied? p = none →
        s.targetOk n p = false
          ∨ jzb2 p.src = true ∧ (∀ w ∈ s.windowsOf n,
              ¬(w.1 ≤ p.offset.toNat ∧ p.offset.toNat + pktLen p ≤ w.1 + w.2))
          ∨ NamesNothing s n p ∧ s.inWindow n p.offset.toNat (pktLen p) = false → Completes c s (fun t =>
        SameTiers s t ∧ PacketPut (64 + n) (fun q => q = silentReply p) s t
          ∧ t.reg (.SWC_QUIET n 3) = (s.quiet n 3).reg (.SWC_QUIET n 3)
          ∧ RegsOutside [.SWC_QUIET n 3, .ABT_LINE_STATUS n, .SWC_CELL_STATUS] s t))
      ∧ (∀ a, p.op ≠ 1 → (s.stack n).applied? p = some a → (s.stack n).repairing = [] → s.windowsOf n = [] →
        Completes c s (fun t =>
        SameTiers s t ∧ RegsOutside [.ABT_LINE_STATUS n, .SWC_CELL_STATUS] s t ∧ PacketPut (64 + n) (fun q => q.dst = p.src ∧ q.seq = p.seq
          ∧ q.op = (if p.op = 4 then 0x12 else 0x10)
          ∧ (p.op = 4 → q.poison = a.poison
            ∧ q.payload = if a.poison = true then List.replicate (pktAtomicBytes p) 0 else a.reply)) s t)))
    ∧ (n < 8 → s.stackPresent n = true → s.serves n = false → s.sw.merges = [] → s.hasCome n p = true →
      p ∈ s.sw.egressQ (64 + n) (pktQueue p) →
      Completes c s (fun t => SameTiers s t ∧ t.sw.egressQ (64 + n) (pktQueue p) = (s.sw.egressQ (64 + n) (pktQueue p)).erase p
        ∧ PacketPut 81 (fun q => q.op = 0x15 ∧ q.cls = 1 ∧ q.dst = p.src ∧ q.src = s.baseNode ∧ q.seq = p.seq
          ∧ q.offset = p.dst.setWidth 48) s t))
    ∧ (∀ line h, n < 8 → s.serves n = true → s.sw.merges = [] → (pktLines p).head? = some line → (s.stack n).turns p = 0 →
      s.lineHolder n line = some h → NoEffect c s)

/-- R278, R284, R312, R330: a request that nothing holds takes the next number to its node and goes out as a packet, or
joins the span that admits it; a keystone store does when it is released. -/
def Obligations.RequestsLeaveTheirSource : Prop :=
  ∀ (s : State) (n : Nat) (r : Req) (k : Stack), n < 8 → k = s.stack n → k.req? r.id = some r →
    r.st = .held → k.isDead r.node = false → r.node ∉ k.fenced → s.mayGo n r = true →
    ∀ c : Instr, c = (if r.op = 3 then .keystoneRelease n r.id else .requestInject n r.id) →
    (∀ seq, k.spanFor r = none → s.mayRoute n r = true → seq = Tab.get 0 k.seqTo r.node.toNat →
      Completes c s (fun t =>
        { r with st := .sent, seq := BitVec.ofNat 32 seq, firstSent := s.now, resends := 0 } ∈ (t.stack n).reqs
          ∧ Tab.get 0 (t.stack n).seqTo r.node.toNat = (seq + 1) % 2 ^ 32
          ∧ PacketPut (64 + n) (fun q => q.dst = r.node ∧ q.src = s.node n ∧ q.cls = 0
              ∧ q.op = (if r.op = 3 ∧ jzb2 r.node = true then 2 else r.op) ∧ q.offset = BitVec.ofNat 48 r.offset
              ∧ q.seq = BitVec.ofNat 32 seq ∧ q.payload = r.payload) s t
          ∧ SameStacks n s t ∧ RegsOutside [] s t))
    ∧ (∀ x, k.spanFor r = some x → x.paused = false → Completes c s (fun t =>
        { x with queue := x.queue ++ spanFrames x r (BitVec.ofNat 3 (s.tenantOf n)) } ∈ (t.stack n).spansOut
          ∧ { r with st := .sent, span := x.id.toNat + 1, firstSent := s.now } ∈ (t.stack n).reqs
          ∧ t.sw = s.sw ∧ SameStacks n s t ∧ RegsOutside [] s t))

/-- R280, R284, R285, R332: an acknowledgement ends the write it answers; a reply of data stays with its request until
it is delivered; a request that is not answered in time is sent again under its number; and the throttle level follows
the largest external queue. R294 to R296: when 1 ms has passed with nothing heard from a node, or a dead notice comes,
the node is marked dead and every outstanding request to it is abandoned; ABT_DEAD_STATUS says which node and how.
R296, R298, R335, R529: where a context of a job issued one of them, the job is frozen: JOB_FROZEN names it and the
node, LAST_JOB too, every context of the job on the stack is killed, its teardown is under way and TEARDOWN is posted;
and the spans to the node close with SPAN_RELEASE. In which states the spans to a dead node close, and that TEARDOWN
is posted as the job is frozen too, are the model's choices (log entries 58 and 55). -/
def Obligations.AnswersTimersAndDeadNodes : Prop :=
  (∀ (s : State) (n : Nat) (r : Req) (p : Packet) (k : Stack), n < 8 → k = s.stack n →
     ((∃ b c, r.src = .ctx b c) → PortFree s n p → (s.forwarded p).poison = false →
       (p.op = 0x10 → k.matching p [2, 3, 5] = some r →
         Completes (.ack n p) s (fun t => (∀ q, q ∈ (t.stack n).reqs ↔ q ∈ k.reqs ∧ q.id ≠ r.id)
           ∧ Tab.get 0 (t.stack n).heard p.src.toNat = s.now ∧ SameTiers s t))
       ∧ (∀ c : Instr, (p.op = 0x11 ∧ r.op = 1 ∧ k.matching p [1] = some r ∧ c = .data n p)
           ∨ (p.op = 0x12 ∧ r.op = 4 ∧ k.matching p [4] = some r ∧ c = .atomicReply n p) →
         Completes c s (fun t =>
           { r with st := .done, reply := (p.payload ++ List.replicate r.len 0).take r.len, poisoned := false }
               ∈ (t.stack n).reqs
             ∧ Tab.get 0 (t.stack n).heard p.src.toNat = s.now ∧ SameTiers s t)))
     ∧ (k.req? r.id = some r → r.st = .sent → r.span = 0 → s.resendDue r.firstSent r.resends = true →
       Completes (.resendTimer n r.id) s (fun t => { r with resends := r.resends + 1 } ∈ (t.stack n).reqs
         ∧ PacketPut (64 + n) (fun q => q.dst = r.node ∧ q.seq = r.seq ∧ q.payload = r.payload) s t))
     ∧ (s.stackUp n = true → ∀ l, l = s.fld (.ABT_THROTTLE n) ABT_THROTTLE_LEVEL →
       Completes (.throttleAdjust n) s (fun t =>
         t.fld (.ABT_THROTTLE n) ABT_THROTTLE_LEVEL =
             (if 8 * s.fld (.ABT_THROTTLE n) ABT_THROTTLE_HI ≤ s.largestQ then min 7 (l + 1)
              else if s.largestQ ≤ 8 * s.fld (.ABT_THROTTLE n) ABT_THROTTLE_LO then l - 1 else l)
           ∧ OnlyRegs [.ABT_THROTTLE n] s t)))
  ∧ (∀ (s : State) (n : Nat) (node : BitVec 16) (k : Stack), n < 8 → k = s.stack n → node ∉ k.dead → node ∉ k.fenced →
       (∀ x ∈ k.spansOut, x.dstNode ≠ node) →
       (∀ q ∈ k.reqs, q.node = node → ∃ b c, q.src = .ctx b c ∧ s.rawJob n b = 0) →
       ∀ (how : Nat) (c : Instr) (r : Req) (p : Packet),
         (how = 2 ∧ c = .deadTimer n r.id ∧ k.req? r.id = some r ∧ r.node = node ∧ r.st = .sent ∧ r.span = 0
           ∧ r.firstSent + 75200000 ≤ s.now ∧ Tab.get 0 k.heard node.toNat + 75200000 ≤ s.now)
         ∨ (how = 1 ∧ c = .dead n p ∧ p.op = 0x15 ∧ PortFree s n p ∧ (s.forwarded p).poison = false ∧ p.offset.setWidth 16 = node
           ∧ k.deadNoticeFor node p.seq = true) →
         Completes c s (fun t => node ∈ (t.stack n).dead
           ∧ (∀ q, q ∈ (t.stack n).reqs ↔ q ∈ k.reqs ∧ ¬(q.node = node ∧ (q.st = .held ∨ q.st = .sent)))
           ∧ t.fld (.ABT_DEAD_STATUS n) ABT_DEAD_STATUS_LAST_NODE = node.toNat
           ∧ t.bit (.ABT_DEAD_STATUS n) (if how = 2 then ABT_DEAD_STATUS_TIMER_SEEN else ABT_DEAD_STATUS_NOTICE_SEEN)
               = true
           ∧ SameTiers s t))
  ∧ (∀ (s : State) (n job : Nat) (node : BitVec 16) (k : Stack) (r : Req), n < 8 → k = s.stack n → s.stackUp n = true →
       node ∉ k.dead → node ∉ k.fenced → job ≠ 0 → k.tears = [] → (∀ d ∈ s.host.descs, d.stack ≠ n) →
       s.host.notices.length + 2 ≤ 256 → (∀ x ∈ k.spansOut, k.owns job x.xctx = false) →
       (∀ q ∈ k.reqs, q.node = node → ∃ b c, q.src = .ctx b c ∧ s.rawJob n b = job) →
       (∀ b x, s.rawJob n b = job → x = s.bench n b →
         x.txQueue = [] ∧ x.rxQueue = [] ∧ x.txOwner = [] ∧ x.rxOwner = []) →
       s.bit (.HCORE_CFG n) HCORE_CFG_EVT_ENABLE = true →
       (∀ head, head = s.fld (.HCORE_EVT_IDX n) HCORE_EVT_IDX_HEAD →
         (head + 65536 - s.fld (.HCORE_EVT_IDX n) HCORE_EVT_IDX_TAIL) % 65536 ≠ 4096 →
         k.req? r.id = some r → r.node = node → r.st = .sent → r.span = 0 → r.firstSent + 75200000 ≤ s.now →
         Tab.get 0 k.heard node.toNat + 75200000 ≤ s.now →
         Completes (.deadTimer n r.id) s (fun t => node ∈ (t.stack n).dead
           ∧ (∀ q ∈ (t.stack n).reqs, ¬(q.node = node ∧ (q.st = .held ∨ q.st = .sent)))
           ∧ NoticeHeld 1 n (leBytes 2 node.toNat ++ [2]) t
           ∧ NoticeHeld 2 n (leBytes 2 job ++ leBytes 2 node.toNat) t
           ∧ t.fld (.ABT_DEAD_STATUS n) ABT_DEAD_STATUS_LAST_NODE = node.toNat
           ∧ t.fld (.ABT_DEAD_STATUS n) ABT_DEAD_STATUS_LAST_JOB = job
           ∧ (t.stack n).tears = [⟨BitVec.ofNat 16 job, 1, false⟩]
           ∧ (∀ c : CtxId, c.stack = n → s.rawJob n c.bench = job → killable (s.ctx c).st = true →
               (t.ctx c).st = .killed ∧ (t.ctx c).torn = true)
           ∧ (∀ x, x ∈ (t.stack n).spansOut ↔ x ∈ k.spansOut
               ∧ ∀ y ∈ k.spansOut, y.dstNode = node → y.live = true → y.id ≠ x.id)
           ∧ (∀ x ∈ k.spansOut, x.dstNode = node → x.live = true →
               .mgmt (s.node n) s.fmNode 0x09 (leBytes 2 x.id.toNat) ∈ t.out)
           ∧ (∀ a bs i, a = 0x10000 * s.fld (.HCORE_CFG n) HCORE_CFG_EVT_BASE + 16 * (head % 4096) →
               bs = eventRecord job 0x0B 0 0xFFFF head s.beatNow →
               Mem.read (t.stack n).sram i = if a ≤ i ∧ i < a + bs.length then nth 0 bs (i - a) else Mem.read k.sram i)
           ∧ SameStacks n s t)))

/-- R301 to R307, R355: a coherent window is set up and taken down with BUSY until its directory is empty; a JZB-2
node's load is tracked, and a write to a tracked line waits and invalidates the copies; an INVAL is resent, and
its acknowledgement untracks the line. -/
def Obligations.CoherentWindowsTrackAndInvalidate : Prop :=
  ∀ (s : State) (who : Requester) (n : Nat) (k : Stack), n < 8 → k = s.stack n →
    (∀ (v : Word) (size base : Nat), s.permit who (.ABT_CWIN_CFG n) = .ok → s.cwdPresent = true →
      size = getF v ABT_CWIN_CFG_SIZE → base = getF v ABT_CWIN_CFG_BASE →
      (s.bit (.ABT_CWIN_CFG n) ABT_CWIN_CFG_ENABLE = false → s.bit (.ABT_CWIN_CFG n) ABT_CWIN_CFG_BUSY = false →
        getF v ABT_CWIN_CFG_ENABLE = 1 → 1 ≤ size → size ≤ 64 → (base + size) * 0x40000000 ≤ s.nearSize n →
        Completes (.cwinCfgWrite who n v) s (fun t => t.bit (.ABT_CWIN_CFG n) ABT_CWIN_CFG_ENABLE = true
          ∧ t.fld (.ABT_CWIN_CFG n) ABT_CWIN_CFG_SIZE = size ∧ t.fld (.ABT_CWIN_CFG n) ABT_CWIN_CFG_BASE = base
          ∧ OnlyRegs [.ABT_CWIN_CFG n] (unlatched s who (.ABT_CWIN_CFG n)) t))
      ∧ (s.bit (.ABT_CWIN_CFG n) ABT_CWIN_CFG_ENABLE = true → getF v ABT_CWIN_CFG_ENABLE = 0 → k.dir = [] →
        Completes (.cwinCfgWrite who n v) s (fun t => t.bit (.ABT_CWIN_CFG n) ABT_CWIN_CFG_ENABLE = false
          ∧ t.bit (.ABT_CWIN_CFG n) ABT_CWIN_CFG_BUSY = true
          ∧ (t.stack n).oldWindow = some (s.fld (.ABT_CWIN_CFG n) ABT_CWIN_CFG_BASE,
              s.fld (.ABT_CWIN_CFG n) ABT_CWIN_CFG_SIZE))))
    ∧ (s.bit (.ABT_CWIN_CFG n) ABT_CWIN_CFG_BUSY = true → k.dir = [] → k.invals = [] →
      Completes (.cwinDrainDone n) s (fun t => t.bit (.ABT_CWIN_CFG n) ABT_CWIN_CFG_BUSY = false
        ∧ (t.stack n).oldWindow = none ∧ RegsOutside [.ABT_CWIN_CFG n] s t))
    ∧ (∀ (p : Packet) (o line : Nat), StandsAlone s n p → s.targetOk n p = true →
      k.repairing = [] → k.nearErr = [] → k.mark false line ≠ markPoison → k.applied? p = none →
      (∀ i ∈ k.invals, i.line ≠ line) → o = p.offset.toNat → s.whereIs n o (pktLen p) = .near o → s.inWindow n o (pktLen p) = true →
      line = o / 128 → o % 128 + pktLen p ≤ 128 → 0 < pktLen p →
      (p.op = 1 → jzb2 p.src = true → k.dir = [] → Completes (.load n p) s (fun t =>
        (t.stack n).dir = [⟨line, [p.src]⟩]
          ∧ Answers n p 0x11 (plainBytes k false o (pktLen p)) s t ∧ SameTiers s t))
      ∧ (∀ h, p.op = 2 → k.tracked line = some ⟨line, [h]⟩ →
        Completes (.store n p) s (fun t => SameTiers s t
          ∧ PacketPut (64 + n) (fun q => q.op = 0x30 ∧ q.dst = h ∧ q.offset = BitVec.ofNat 48 (line * 128)
              ∧ q.seq = k.invalNext) s t
          ∧ (t.stack n).invals = k.invals ++ [⟨k.invalNext, line, h, s.now, 0⟩]
          ∧ t.sw.egress = s.sw.egress)))
    ∧ (∀ (p : Packet) (i : Inval), p.op = 0x17 → PortFree s n p → (s.forwarded p).poison = false → k.spansIn = [] →
      k.coreHeld = [] →
      k.invals.find? (fun x => x.number == p.seq && x.holder == p.src) = some i →
      Completes (.invalAck n p) s (fun t =>
        (∀ x ∈ (t.stack n).invals, ¬(x.line = i.line ∧ x.holder = i.holder))
          ∧ (∀ d ∈ (t.stack n).dir, d.line = i.line → i.holder ∉ d.holders)
          ∧ Tab.get 0 (t.stack n).heard p.src.toNat = s.now ∧ SameTiers s t))
    ∧ (∀ i : Inval, k.invals.find? (fun x => x.number == i.number) = some i → k.isDead i.holder = false →
      s.silent n i.holder = false → s.resendDue i.firstSent i.resends = true →
      Completes (.invalResendTimer n i.number) s (fun t =>
        { i with resends := i.resends + 1 } ∈ (t.stack n).invals
          ∧ PacketPut (64 + n) (fun q => q.op = 0x30 ∧ q.dst = i.holder ∧ q.seq = i.number) s t))
    ∧ (s.permit who (.ABT_LINE_STATUS n) = .ok → Completes (.resetMax who n) s (fun t =>
      t.fld (.ABT_LINE_STATUS n) ABT_LINE_STATUS_MAX_WAITING = 0
        ∧ OnlyRegs [.ABT_LINE_STATUS n] (unlatched s who (.ABT_LINE_STATUS n)) t))

/-! ### The switch and its spans -/

/-- R322, R323, R324, R326, R331, R348, R360: a packet for this module from one of its stacks waits for its stack's
abutment, one for another module of the rack for the lightest port towards it, and one for another rack for the
lightest port towards its gateway, or over a viaduct where this module is the gateway: on VC 0 from its injection, on
VC 1 from its via rack; a gateway is this module where it has a viaduct to the rack, otherwise the one with the
lightest first hop; and a class Q packet that no port takes is answered with DEAD. A packet that its egress queue can
take is charged to it, and the cells it leaves free are owed to the far end; and one that a merge at the egress takes
joins its requests instead of the queue. That a packet which no port to its next hop carries meets R326 is the model's
choice (log entry 233). -/
def Obligations.SwitchForwardsAndCharges : Prop :=
  ∀ (s : State) (port : Nat) (p : Packet) (rest : List Packet) (d : Nat), d = p.dst.toNat % 8 →
    (Tab.get [] s.sw.arrived port = p :: rest → s.ingressRoom port p = true → p.cls.toNat ≤ 3 → p.cls ≠ 2 →
      knownOp p.op = true → p.op ≠ 0x20 → p.dst ∉ s.sw.fences → s.fld .SWC_ROUTE_CFG SWC_ROUTE_CFG_MODE = 0 →
      nodeRack p.dst = nodeRack s.baseNode → jzb2 p.dst = false →
      (port < 36 → isViaduct s.variant port = false → p.vc = 2 ∧ p.gw = BitVec.ofNat 6 (nodeIndex p.dst)) →
      ∀ x : Packet, x = { p with
        vc := 2, gw := BitVec.ofNat 6 (nodeIndex p.dst), hops := if port < 36 then p.hops + 1 else p.hops } →
      (nodeIndex p.dst = s.index → s.stackPresent d = true → s.stackFailed d = false → s.bound d = true →
        Completes (.packetForward port) s (fun t =>
          Tab.get [] t.sw.arrived port = rest
            ∧ t.sw.ingressQ port (pktQueue p) = s.sw.ingressQ port (pktQueue p) ++ [⟨64 + d, x⟩]
            ∧ { t with sw := s.sw } = s))
      ∧ (∀ q, nodeIndex p.dst ≠ s.index → x.hops.toNat < 8 →
        s.sw.lightest (queueIndex p.cls 2) ((s.hopPorts (nodeIndex p.dst)).filter (s.linkTakes x)) = some q →
        Completes (.packetForward port) s (fun t =>
          Tab.get [] t.sw.arrived port = rest
            ∧ t.sw.ingressQ port (pktQueue p) = s.sw.ingressQ port (pktQueue p) ++ [⟨q, x⟩]
            ∧ { t with sw := s.sw } = s)))
    ∧ (Tab.get [] s.sw.arrived port = p :: rest → s.ingressRoom port p = true → p.cls.toNat ≤ 3 → p.cls ≠ 2 →
      knownOp p.op = true → p.op ≠ 0x20 → p.dst ∉ s.sw.fences → s.fld .SWC_ROUTE_CFG SWC_ROUTE_CFG_MODE = 0 →
      nodeRack p.dst ≠ nodeRack s.baseNode → jzb2 p.dst = false → ∀ dead : State → State → Prop,
      dead = PacketPut 81 (fun q => q.op = 0x15 ∧ q.cls = 1 ∧ q.dst = p.src ∧ q.src = s.baseNode ∧ q.seq = p.seq
        ∧ q.offset = p.dst.setWidth 48) →
      (36 ≤ port → port ≠ 81 → p.cls = 0 → s.gateway (queueIndex p.cls 0) (nodeRack p.dst) = none →
        Completes (.packetForward port) s (dead s))
      ∧ ∀ (x : Packet) (g o : Nat) (ports : List Nat),
        36 ≤ port ∧ p.nonmin = false ∧ s.gateway (queueIndex p.cls 0) (nodeRack p.dst) = some (g, o)
            ∧ x = { p with vc := 0, gw := BitVec.ofNat 6 g }
          ∨ port < 36 ∧ isViaduct s.variant port = false ∧ p.vc ≠ 2 ∧ g = p.gw.toNat
            ∧ x = { p with hops := p.hops + 1 }
          ∨ port < 36 ∧ isViaduct s.variant port = true ∧ p.nonmin = true ∧ p.via.toNat = nodeRack s.baseNode
            ∧ s.gateway (queueIndex p.cls 1) (nodeRack p.dst) = some (g, o)
            ∧ x = { p with hops := p.hops + 1, vc := 1, gw := BitVec.ofNat 6 g } →
        ports = (if g = s.index then s.viaPorts (if x.vc = 0 ∧ p.nonmin = true then p.via.toNat else nodeRack p.dst)
          else s.hopPorts g) →
        (∀ q, x.hops.toNat < 8 → s.sw.lightest (pktQueue x) (ports.filter (s.linkTakes x)) = some q →
          Completes (.packetForward port) s (fun t =>
            Tab.get [] t.sw.arrived port = rest
              ∧ t.sw.ingressQ port (pktQueue p) = s.sw.ingressQ port (pktQueue p) ++ [⟨q, x⟩]
              ∧ { t with sw := s.sw } = s))
        ∧ (port < 36 → p.cls = 0 → ports = [] → Completes (.packetForward port) s (dead s)))
    ∧ (∀ queue rack g o : Nat, s.gateway queue rack = some (g, o) →
      (s.viaPorts rack ≠ [] → g = s.index)
      ∧ (s.viaPorts rack = [] → (∃ q ∈ s.hopPorts g, o = s.sw.occupancy q queue)
        ∧ ∀ allowed : Nat → Prop, allowed = (fun i => i < 64 ∧ i ≠ s.index
            ∧ bitOf (s.fld (.SWC_RACK_ROUTE_GW rack) SWC_RACK_ROUTE_GW_GW) i = true) →
          allowed g ∧ ∀ i, allowed i → ∀ q ∈ s.hopPorts i,
            o < s.sw.occupancy q queue ∨ o = s.sw.occupancy q queue ∧ g ≤ i))
    ∧ (∀ (q e : Nat) (ws : List Waiting), s.sw.ingressQ port q = ⟨e, p⟩ :: ws →
      s.canCharge e (pktQueue p) (s.sw.newCells p) = true →
      (64 ≤ e → s.mergeable (e - 64) p = false) →
      (s.fate e p = .keep → Completes (.egressCharge port q) s (fun t => t.sw.ingressQ port q = ws
        ∧ t.sw.egressQ e (pktQueue p) = s.sw.egressQ e (pktQueue p) ++ [p]
        ∧ (port < 36 → Tab.get 0 (t.port port).owed q = Tab.get 0 (s.port port).owed q + pktCells p)))
      ∧ (s.fate e p = .mark → Completes (.egressCharge port q) s (fun t => t.sw.ingressQ port q = ws
        ∧ t.sw.egressQ e (pktQueue p) = s.sw.egressQ e (pktQueue p) ++ [{ p with mark := true }]))
      ∧ (s.fate e p = .drop → Completes (.egressCharge port q) s (fun t => t.sw.ingressQ port q = ws
        ∧ t.sw.egressQ e (pktQueue p) = s.sw.egressQ e (pktQueue p))))
    ∧ (∀ (q e n : Nat) (ws : List Waiting) (m : Merge), s.sw.ingressQ port q = ⟨e, p⟩ :: ws → e = 64 + n → n < 8 →
      s.canCharge e (pktQueue p) (s.sw.newCells p) = true → s.fate e p = .keep →
      s.mergeable n p = true →
      s.sw.merges = [m] → m.takes e p = true →
      Completes (.egressCharge port q) s (fun t => t.sw.ingressQ port q = ws
        ∧ t.sw.merges = [{ m with reqs := m.reqs ++ [p] }] ∧ t.sw.egress = s.sw.egress))

/-- R311, R314, R318, R319, R356 to R359, R373: what the fabric manager asks of the tables is done and answered, and
is ignored and counted from any other node; a frame goes on under its entry's next label; and a pass of the audit is
counted with what it found. What cells an audit finds and what it does with them, and which result of SPAN_ENTRY_SET
shows where several apply, are the model's choices (log entries 194 and 69). -/
def Obligations.SwitchTablesAreKept : Prop :=
  ∀ (s : State) (src node : BitVec 16) (m : SpanEntrySet) (inPort label : Nat),
    (s.fmNode ≠ 0xFFFF → src = s.fmNode →
      (s.entryResult m = 0 → Completes (.spanEntrySet src m) s (fun t =>
        (∃ e, t.sw.spanTab = s.sw.spanTab ++ [e] ∧ e.inPort = m.inPort ∧ e.label = m.label
          ∧ e.outPort = m.outPort ∧ e.nextLabel = m.nextLabel ∧ e.share = m.share ∧ e.cells = m.cells)
          ∧ MgmtSent s.baseNode src 0x05 (leBytes 1 m.inPort ++ leBytes 1 0 ++ leBytes 2 m.label ++ leBytes 1 0) s t))
      ∧ (s.entryResult m ≠ 0 → Completes (.spanEntrySet src m) s (fun t =>
        { t.sw with arrived := s.sw.arrived } = s.sw ∧ t.stackTab = s.stackTab ∧ RegsOutside [] s t
        ∧ MgmtSent s.baseNode src 0x05 (leBytes 1 m.inPort ++ leBytes 1 0 ++ leBytes 2 m.label
            ++ leBytes 1 (s.entryResult m)) s t))
      ∧ (∀ e, s.sw.entry inPort label = some e → Completes (.spanEntryClear src inPort label) s (fun t =>
        t.sw.spanTab = s.sw.spanTab.filter (fun x => x != e)))
      ∧ (node ∉ s.sw.fences → s.sw.fences.length < 256 → s.sw.trestles = [] →
        Completes (.fenceSet src node) s (fun t => t.sw.fences = s.sw.fences ++ [node]
          ∧ t.fld .SWC_FENCE_STATUS SWC_FENCE_STATUS_LAST_NODE = node.toNat
          ∧ MgmtSent s.baseNode src 0x0F (leBytes 2 node.toNat ++ leBytes 1 0) s t))
      ∧ (node ∈ s.sw.fences → Completes (.fenceClear src node) s (fun t =>
        t.sw.fences = s.sw.fences.filter (fun x => x != node)
          ∧ MgmtSent s.baseNode src 0x0F (leBytes 2 node.toNat ++ leBytes 1 0) s t)))
    ∧ (src ≠ s.fmNode → ∀ c : Instr, c = .spanEntrySet src m ∨ c = .spanEntryClear src inPort label
        ∨ c = .fenceSet src node ∨ c = .fenceClear src node → exec c s = .next (s.quiet 8 0))
    ∧ (∀ (f : Frame) (e : SpanEntry), s.sw.headFrame (100 + inPort) f = true →
      s.sw.trestleLabel inPort f.label.toNat = false → s.sw.entry inPort f.label.toNat = some e →
      s.portShut e.outPort = false → (64 ≤ e.outPort → s.stackFenced (e.outPort - 64) = false
        ∧ s.bound (e.outPort - 64) = true) → e.outPort < 100 →
      s.relayRoom inPort f = (s, true) → (e.outPort < 36 ∨ s.tailPort (.inr f) = none) →
      (64 ≤ inPort → (s.stack (inPort - 64)).upWait = []) →
      Completes (.spanFrameForward inPort f) s (fun t =>
        t.sw.framesAt e.outPort = s.sw.framesAt e.outPort ++ [{ f with label := BitVec.ofNat 16 e.nextLabel }]
          ∧ t.sw.framesAt (100 + inPort) = (s.sw.framesAt (100 + inPort)).erase f ∧ { t with sw := s.sw } = s))
    ∧ (∀ (lost : List (Nat × CellOwner)) (doubled : List (Nat × (Packet ⊕ Frame)))
        (wrong : List ((Packet ⊕ Frame) × Nat)) (unlisted : List Nat) (l leaks conflicts : List Stray),
      l = s.sw.astray lost doubled unlisted →
      conflicts = l.filter (fun x => decide (x.owner ≠ .free) && x.listed != 0) →
      leaks = l.filter (fun x => decide (x.owner ≠ .free) && x.listed == 0 && x.item.isNone && !x.quarantined
        && decide (1 ≤ x.missed)) →
      Completes (.auditPassEnd lost doubled wrong unlisted) s (fun t =>
        t.fld .SWC_AUDIT SWC_AUDIT_PASSES
            = (s.fld .SWC_AUDIT SWC_AUDIT_PASSES + 1) % 2 ^ (SWC_AUDIT_PASSES.hi + 1 - SWC_AUDIT_PASSES.lo)
          ∧ t.fld .SWC_AUDIT SWC_AUDIT_LEAKED
            = min (2 ^ (SWC_AUDIT_LEAKED.hi + 1 - SWC_AUDIT_LEAKED.lo) - 1)
                (s.fld .SWC_AUDIT SWC_AUDIT_LEAKED + leaks.length)
          ∧ t.fld .SWC_AUDIT SWC_AUDIT_CONFLICTS
            = min (2 ^ (SWC_AUDIT_CONFLICTS.hi + 1 - SWC_AUDIT_CONFLICTS.lo) - 1)
                (s.fld .SWC_AUDIT SWC_AUDIT_CONFLICTS + conflicts.length)
          ∧ (∀ y, y ∈ t.sw.strays ↔ ∃ x ∈ l, x ∉ leaks ∧ y =
              if x ∈ conflicts then { x with listed := 0, quarantined := true }
              else if x.owner ≠ .free ∧ x.item = none ∧ x.quarantined = false then { x with missed := 1 } else x)
          ∧ t.bit .SWC_AUDIT SWC_AUDIT_MISMATCH = (s.bit .SWC_AUDIT SWC_AUDIT_MISMATCH
              || decide (cellsHeld (l.filter (fun x => decide (x.owner = .free))) ≠ 393216))
          ∧ { t.sw with
                strays := s.sw.strays, cellErr := s.sw.cellErr, arrived := s.sw.arrived } = s.sw
          ∧ t.stackTab = s.stackTab))

/-- R315 to R317, R320, R335, R336, R338 to R340: the life of a span at its source. A grant arms it for its beat, a
refusal and 5 ms without an answer end it; at its beat it is active, and at its closing beat it closes; its frames go
out in order with their counts and are kept until they are acknowledged, by a SPAN_ACK or by a SYNC_REPLY of any
epoch; a drain marker goes on the old path once its cells have room for it (R327, R349); and a broken path pauses the
span until it is re-routed, or for 5 ms. What a closing beat does in PAUSED, and for which epoch a source asks, are
the model's choices (log entries 193 and 225). -/
def Obligations.SpansLiveAtTheirSource : Prop :=
  ∀ (s : State) (n : Nat) (x : SpanOut), n < 8 → s.span? n x.id = some x →
    (∀ (src label : BitVec 16) (reason : Byte) (epoch : BitVec 8), s.fmNode ≠ 0xFFFF → src = s.fmNode →
      x.st = .requested →
      (s.reached x.openBeat = false → Completes (.spanGrant src n x.id label epoch) s (fun t =>
        t.span? n x.id = some { x with st := .armed, label := label, epoch := epoch.setWidth 4 }
          ∧ ∀ d, s.desc? x.openDesc = some d → t.desc? x.openDesc = some { d with st := .armed }))
      ∧ (s.reached x.openBeat = true → Completes (.spanGrant src n x.id label epoch) s (fun t =>
        t.span? n x.id = none ∧ MgmtSent (s.node n) src 0x09 (leBytes 2 x.id.toNat) s t))
      ∧ Completes (.spanRefuse src n x.id reason) s (fun t => t.span? n x.id = none
          ∧ t.sw.refuseReason = reason.toNat))
    ∧ (x.st = .requested → x.since + 5 * 75200000 ≤ s.now →
      Completes (.spanGrantTimeout n x.id) s (fun t => t.span? n x.id = none))
    ∧ (∀ d, x.st = .armed → s.desc? x.openDesc = some d → s.fires d = true →
      Completes (.spanActivate n x.id) s (fun t => t.span? n x.id = some { x with st := .active }
        ∧ t.desc? x.openDesc = some (finishedDesc d)))
    ∧ (∀ d, s.host.descs.find? (fun e => e.opcode == 0x0A && e.stack == n && e.closes == x.id && s.fires e)
          = some d → x.st = .active → x.queue = [] → x.sent = [] →
      Completes (.spanCloseBeat n x.id) s (fun t => t.span? n x.id = none
        ∧ (s.fmNode ≠ 0xFFFF → MgmtSent (s.node n) s.fmNode 0x09 (leBytes 2 x.id.toNat) s t)))
    ∧ (∀ d, s.host.descs.find? (fun e => e.opcode == 0x0A && e.stack == n && e.closes == x.id && s.fires e)
          = some d → x.st = .paused → x.sync = 0 →
      Completes (.spanCloseBeat n x.id) s (fun t =>
        t.span? n x.id = some { x with st := .closing, epoch := x.epoch + 1, sync := 2, syncs := 0, syncAt := s.now }
        ∧ PacketPut (64 + n) (fun q => q.op = 0x06 ∧ q.dst = x.dstNode) s t))
    ∧ (∀ f rest, x.queue = f :: rest → x.st = .active ∨ x.st = .draining ∨ x.st = .closing → x.sync = 0 →
      x.marker = none → s.sw.entryRoom (64 + n) (s.stampFrame n x f) = true →
      Completes (.spanFrameSend n x.id) s (fun t =>
        t.sw.framesAt (164 + n) = s.sw.framesAt (164 + n) ++ [s.stampFrame n x f]
          ∧ t.span? n x.id = some { x with queue := rest, count := (x.count + 1) % 2 ^ 32, sent := x.sent
              ++ [⟨(x.count + 1) % 2 ^ 32, f.req, s.stampFrame n x f, s.now⟩] }))
    ∧ (∀ g, x.marker = some g → s.sw.entryRoom (64 + n) g = true → Completes (.spanFrameSend n x.id) s (fun t =>
        t.sw.framesAt (164 + n) = s.sw.framesAt (164 + n) ++ [g] ∧ t.span? n x.id = some { x with marker := none }))
    ∧ (∀ (p : Packet) (kept : List SentFrame), PortFree s n p → (s.forwarded p).poison = false →
      p.offset.setWidth 16 = x.id →
      kept = x.sent.filter (fun f => !countLe f.count p.seq.toNat) →
      (p.op = 0x13 → x.st = .active → Completes (.spanAck n p) s (fun t =>
        t.span? n x.id = some { x with
          acked := p.seq.toNat, sent := kept
          syncs := if x.sent.any (fun f => countLe f.count p.seq.toNat) = true then 0 else x.syncs }
          ∧ Tab.get 0 (t.stack n).heard p.src.toNat = s.now))
      ∧ (p.op = 0x14 → p.param.setWidth 4 = x.epoch → x.st = .paused → x.sync = 1 →
        Completes (.syncReply n p) s (fun t => t.span? n x.id = some
          { x with
            st := .active, acked := p.seq.toNat, syncs := 0, sync := 0, count := p.seq.toNat
            queue := kept ++ x.queue, sent := [] }))
      ∧ (p.op = 0x14 → p.param.setWidth 4 ≠ x.epoch → x.st = .paused → Completes (.syncReply n p) s (fun t =>
        t.span? n x.id = some { x with
          acked := p.seq.toNat, sent := kept
          syncs := if x.sent.any (fun f => countLe f.count p.seq.toNat) = true then 0 else x.syncs }))
      ∧ (p.op = 0x14 → p.param.setWidth 4 = x.epoch → x.st = .paused ∨ x.st = .closing → x.sync = 2 →
        x.queue = [] → x.sent = [] → Completes (.syncReply n p) s (fun t => t.span? n x.id = none))
      ∧ (p.op = 0x16 → x.st = .active ∨ x.st = .draining → Completes (.spanBroken n p) s (fun t =>
        t.span? n x.id = some { x with st := .paused, since := s.now, marker := none })))
    ∧ (∀ from_, x.syncFrom = some from_ → s.silent n x.dstNode = false → s.resendDue from_ x.syncs = true →
      Completes (.spanSyncTimer n x.id) s (fun t => t.span? n x.id = some { x with syncs := x.syncs + 1 }
        ∧ PacketPut (64 + n) (fun q => q.op = 0x06 ∧ q.dst = x.dstNode ∧ q.param = x.syncEpoch.setWidth 8) s t))
    ∧ (∀ (src label : BitVec 16) (epoch planned : Byte), s.fmNode ≠ 0xFFFF → src = s.fmNode →
      (x.st = .active → planned = 1 → ∀ g : Frame, g = drainFrame x (BitVec.ofNat 3 (s.tenantOf n)) →
        Completes (.spanReroute src n x.id label epoch planned) s (fun t =>
          t.span? n x.id = some { x with
              label := label, epoch := epoch.setWidth 4, st := .draining, drainAt := x.count
              marker := if s.sw.entryRoom (64 + n) g = true then none else some g }
            ∧ t.sw.framesAt (164 + n) = s.sw.framesAt (164 + n)
              ++ (if s.sw.entryRoom (64 + n) g = true then [g] else [])
            ∧ g.kind = 1 ∧ g.label = x.label ∧ g.epoch = x.epoch
            ∧ g.payload = leBytes 4 x.count ++ List.replicate 4 0))
      ∧ (x.st = .paused → x.sync ≠ 2 → Completes (.spanReroute src n x.id label epoch planned) s (fun t =>
        t.span? n x.id = some { x with label := label, epoch := epoch.setWidth 4, sync := 1, syncs := 0, syncAt := s.now }
          ∧ PacketPut (64 + n) (fun q => q.op = 0x06 ∧ q.dst = x.dstNode) s t)))
    ∧ (x.st = .paused → x.sync ≠ 2 → x.since + 5 * 75200000 ≤ s.now →
      Completes (.spanPauseTimeout n x.id) s (fun t =>
        t.span? n x.id = some { x with epoch := x.epoch + 1, sync := 2, syncs := 0, syncAt := s.now }
          ∧ PacketPut (64 + n) (fun q => q.op = 0x06 ∧ q.dst = x.dstNode) s t))

/-- R313, R334, R335, R337: at its target a frame of the current epoch is applied and counted, and acknowledged when it
asks for it; one whose cells carry an error is discarded and breaks the span (R351); the drain marker after frame N
begins the next epoch; the counts are acknowledged 1 µs after a frame that did not ask; and a SPAN_SYNC is answered with
the applied count. -/
def Obligations.SpansAreAppliedAtTheirTarget : Prop :=
  ∀ (s : State) (n : Nat) (x : SpanIn) (k : Stack), n < 8 → k = s.stack n → k.spanIn? x.src x.id = some x →
    x.broken = false → x.waiting = [] →
    (∀ (f : Frame) (e : SpanEntry), s.sw.headFrame (64 + n) f = true → s.tailPort (.inr f) = none →
      s.collFrame n f = false → s.sw.lastHop n f = some e →
      e.srcNode = x.src → e.spanId = x.id → s.framesEnd n = false →
      (∀ p far o, f.kind = 0 → s.cellsBad (.inr f) = false → f.epoch = x.epoch → x.drain = none →
        p = framePacket x (s.node n) f → frameIsAccess f = true → s.targetOk n p = true → jzb2 x.src = false →
        s.whereIs n p.offset.toNat (pktLen p) = (if far = true then .far o else .near o) → p.op = 2 →
        k.nearErr = [] → k.farErr = [] → (∀ line ∈ linesOf o (pktLen p), k.mark far line ≠ markPoison) →
        k.repairing = [] → s.windowsOf n = [] → k.lineHolds = [] →
        (∀ line ∈ pktLines p, ∀ q ∈ s.lineWaiters n line, q = p) →
        ∀ ack, ack = (f.ackreq || decide (15 ≤ x.sinceAck)) →
        Completes (.spanFrame n f false) s (fun t =>
          TierWritten n far o (f.payload.drop 8) s t
            ∧ (∃ y, (t.stack n).spanIn? x.src x.id = some y ∧ y.applied = (x.applied + 1) % 2 ^ 32
                ∧ y.sinceAck = (if ack = true then 0 else x.sinceAck + 1) ∧ y.epoch = x.epoch ∧ y.waiting = [])
            ∧ (ack = true → PacketPut (64 + n) (fun q => q.op = 0x13 ∧ q.dst = x.src
                ∧ q.param = x.epoch.setWidth 8 ∧ q.seq = BitVec.ofNat 32 ((x.applied + 1) % 2 ^ 32)
                ∧ q.offset = x.id.setWidth 48) s t)
            ∧ t.sw.framesAt (64 + n) = (s.sw.framesAt (64 + n)).erase f))
      ∧ (f.kind = 1 → s.cellsBad (.inr f) = false → f.epoch = x.epoch → leNat (f.payload.take 4) = x.applied →
        Completes (.drainMarker n ⟨f, false⟩) s (fun t =>
          (t.stack n).spanIn? x.src x.id = some { x with epoch := x.epoch + 1, drain := none } ∧ SameTiers s t))
      ∧ (∀ i : Instr, (f.kind = 0 ∧ i = .spanFrame n f true) ∨ (f.kind = 1 ∧ i = .drainMarker n ⟨f, true⟩) →
        Completes i s (fun t => (t.stack n).spanIn? x.src x.id = some { x with broken := true } ∧ SameTiers s t
          ∧ PacketPut (64 + n) (fun q => q.op = 0x16 ∧ q.dst = x.src ∧ q.offset = x.id.setWidth 48) s t)))
    ∧ (x.ackFrom ≠ 0 → x.ackFrom - 1 + 75200 ≤ s.now → Completes (.spanAckTimer n x.src x.id) s (fun t =>
        (t.stack n).spanIn? x.src x.id = some { x with sinceAck := 0, ackFrom := 0 }
          ∧ PacketPut (64 + n) (fun q => q.op = 0x13 ∧ q.dst = x.src ∧ q.param = x.epoch.setWidth 8
              ∧ q.seq = BitVec.ofNat 32 x.applied ∧ q.offset = x.id.setWidth 48) s t))
    ∧ (∀ (p : Packet) (e : BitVec 4), p.op = 0x06 → PortFree s n p → s.serves n = true →
      (s.forwarded p).poison = false → p.src = x.src → p.offset.setWidth 16 = x.id → e = p.param.setWidth 4 →
      (e - x.epoch).toNat < 8 → s.changing n x e = false →
      Completes (.spanSync n p) s (fun t =>
        (t.stack n).spanIn? x.src x.id = some (if e = x.epoch then x else { x with epoch := e, drain := none })
          ∧ PacketPut (64 + n) (fun q => q.op = 0x14 ∧ q.dst = x.src ∧ q.param = e.setWidth 8
          ∧ q.seq = BitVec.ofNat 32 x.applied) s t ∧ SameTiers s t))

/-! ### Trestles and collectives -/

/-- R363, R364, R366 to R371, R398, R400: entries of the switch (w = 8) and of a hosting stack are set, refused and
cleared at the fabric manager's request; a multicast frame goes out on every branch under the branch's label; a
reduction holds the inputs' positions and sends the evaluation of a complete one, at a root (R393) the whole chunk
once every position of it has been evaluated, in whatever order; a frame that fails its check is asked for again; and
a kept frame is sent again when it is asked for. That a root sends a chunk once every position has been evaluated,
which result of TRESTLE_ENTRY_SET shows where several apply, and how long copies are kept and which of them a refetch
takes, are the model's choices (log entries 82, 78, 81). -/
def Obligations.TrestlesCopyAndReduce : Prop :=
  ∀ (s : State) (src : BitVec 16) (m : TrestleSet) (w entry : Nat), w = 8 ∨ (w < 8 ∧ s.stackUp w = true) →
    (∀ node : BitVec 16, s.fmNode ≠ 0xFFFF → src = s.fmNode → node = (if w = 8 then s.baseNode else s.node w) →
      (∀ (x : Trestle) (r : Nat), x = { newTrestle w m with items := m.items.filter (fun i => !isUnused i) } →
        m.append = false → s.trestle? w m.entry = none → kindOk w m.kind = true → m.entry < 4096 →
        s.sw.fences = [] → r = s.trestleResult x m.commit →
        (r = 0 → Completes (.trestleEntrySet src w m) s (fun t => ∃ y, t.trestle? w m.entry = some y
          ∧ y.committed = m.commit ∧ y.items = x.items ∧ y.reduction = x.reduction ∧ y.root = m.root
          ∧ MgmtSent node src 0x0B (leBytes 2 m.entry ++ leBytes 1 0) s t))
        ∧ (r ≠ 0 → Completes (.trestleEntrySet src w m) s (fun t => t.trestle? w m.entry = none
          ∧ t.sw.trestles = s.sw.trestles
          ∧ MgmtSent node src 0x0B (leBytes 2 m.entry ++ leBytes 1 r) s t)))
      ∧ Completes (.trestleEntryClear src w entry) s (fun t => t.trestle? w entry = none
          ∧ ∀ e, e ≠ entry → t.trestle? w e = s.trestle? w e))
    ∧ (∀ (f : Frame) (x : Trestle), s.trestle? w entry = some x → x.committed = true → s.cellsBad (.inr f) = false →
      (w = 8 → x.reduction = false → f.label.toNat = x.label → s.sw.headFrame (100 + x.port) f = true →
        (isChunk f = true → chunkCrcOk f = true ∧ s.tailPort (.inr f) = none) → x.prunedOut = [] → (x.branches.map (·.1)).Nodup →
        (∀ b ∈ x.branches, b.1 < 100 ∧ s.portShut b.1 = false) → x.room s f = (s, true) →
        (64 ≤ x.port → (s.stack (x.port - 64)).upWait = []) →
        Completes (.multicastFrame entry f) s (fun t => (∀ b ∈ x.branches, t.sw.framesAt b.1
            = s.sw.framesAt b.1 ++ [{ f with label := BitVec.ofNat 16 b.2.1 }])
          ∧ t.sw.framesAt (100 + x.port) = (s.sw.framesAt (100 + x.port)).erase f))
      ∧ (∀ (num port label key : Nat) (reach : BitVec 24), x.reduction = true →
        x.ins.find? (fun i => i.2.2.1 == num) = some (port, label, num, reach) → f.label.toNat = label →
        key = (if w = 8 then 100 + port else port) → (w ≠ 8 → f.tenant.toNat = s.tenantOf w) →
        s.sw.headFrame key f = true → num ∉ x.prunedIn → isChunk f = true → s.tailPort (.inr f) = none →
        (w = 8 → 64 ≤ port → (s.stack (port - 64)).upWait = []) →
        (chunkCrcOk f = true → chunkPass f = false → x.inputRoom num f = true →
          Completes (.trestleInputFrame w entry num f) s (fun t =>
            (∃ y, t.trestle? w entry = some y ∧ y.inputs = x.inputs ++ heldOf num f ∧ y.items = x.items)
              ∧ t.sw.framesAt key = (s.sw.framesAt key).erase f))
        ∧ (∀ code, chunkCrcOk f = false → Tab.get 0 x.refetch (refetchKey num f) < 3 → code = x.senderCode port →
          Completes (.trestleInputFrame w entry num f) s (fun t =>
            (∃ y, t.trestle? w entry = some y ∧ y.inputs = x.inputs
                ∧ Tab.get 0 y.refetch (refetchKey num f) = Tab.get 0 x.refetch (refetchKey num f) + 1)
              ∧ t.sw.framesAt key = (s.sw.framesAt key).erase f ∧ t.sw.asked = s.sw.asked ++ [(code, f)]
              ∧ .refetch code f.label.toNat ∈ t.out)))
      ∧ (∀ (h : HeldInput) (port label : Nat) (reach : BitVec 24) (g : List Frame) (acc : List HeldInput), w = 8 →
        x.reduction = true → x.nextPosition = some h → x.branches = [(port, label, reach)] → x.prunedOut = [] →
        port < 100 → s.portShut port = false → s.positionRoom x h = (s, true) →
        ((x.root = false ∧ g = [(x.evaluated h).partialFrame] ∧ acc = x.acc)
          ∨ (x.root = true ∧ h.round = 1
            ∧ ((∃ r, x.assembled ((x.acc ++ [x.evaluated h]).filter (fun z => z.chunk == h.chunk)) 8 0 = some r
                  ∧ g = [((x.evaluated h).joined r).rootFrame x.fmt]
                  ∧ acc = x.acc.filter (fun z => z.chunk != h.chunk))
              ∨ (x.assembled ((x.acc ++ [x.evaluated h]).filter (fun z => z.chunk == h.chunk)) 8 0 = none
                  ∧ g = [] ∧ acc = x.acc ++ [x.evaluated h])))) →
        Completes (.reductionEvaluate 8 entry) s (fun t =>
          t.sw.framesAt port = s.sw.framesAt port ++ g.map (fun f => { f with label := BitVec.ofNat 16 label })
          ∧ ∃ y, t.trestle? 8 entry = some y ∧ y.acc = acc
              ∧ y.inputs = x.inputs.filter (fun z => !(z.chunk == h.chunk && z.position == h.position)))))
    ∧ (∀ (x : Trestle) (h u v : HeldInput) (a b : Nat), x.liveAt h.chunk h.position = [a, b] → a < 16 → b < 16 → a ≠ b →
      x.nodes = [(0, a, b)] → x.heldAt a h.chunk h.position = some u → x.heldAt b h.chunk h.position = some v →
      (x.evaluated h).elems = List.zipWith (fun i j => BitVec.ofNat 32 (toFmt (partialFmt h.isInt) .rne true false 0
        (nodeFun h.redop h.isInt (decodeVal (partialFmt u.isInt) i.toNat)
          (decodeVal (partialFmt v.isInt) j.toNat))).1) u.elems v.elems)
    ∧ (∀ (port label : Nat) (x : Kept),
      (port < 36 → s.sentOn port label = [x] → Completes (.chunkRefetch port label) s (fun t =>
        t.sw.framesAt port = s.sw.framesAt port ++ [x.frame] ∧ t.sw.kept = s.sw.kept))
      ∧ (36 ≤ port → s.askedFor port label = some (port, x.frame) → x ∈ s.keptFor port label →
        Completes (.chunkRefetch port label) s (fun t =>
          t.sw.framesAt port = s.sw.framesAt port ++ [x.frame] ∧ t.sw.kept = s.sw.kept
            ∧ t.sw.asked = s.sw.asked.erase (port, x.frame))))

/-- R385 to R387, R406: a granted group is bound and its waiting collective takes instance 1; a refusal and 5 ms
without an answer end the collective with TIMEOUT; a cleared group is forgotten; and a collective that has run past
LIMIT breaks its group and ends with MEMBER_MISSING. That the first instance is 1, and that the running time counts
from the header round, are the model's choices (log entries 85 and 90). -/
def Obligations.GroupsAreBoundAndBroken : Prop :=
  ∀ (s : State) (n : Nat) (g : Group) (src : BitVec 16), n < 8 → s.group? n g.id = some g →
    (s.fmNode ≠ 0xFFFF → src = s.fmNode →
      (∀ (up down : BitVec 16) (c : Coll) (d : Desc), g.bound = false → s.coll? n g.id = some c →
        s.desc? c.desc = some d → d.group = g.id → d.stack = n → g.members = d.members → g.rank = d.rank →
        Completes (.groupGrant src n g.id up down) s (fun t =>
          t.group? n g.id = some { g with bound := true, broken := false, up := up, down := down, count := 1, refetched := [] }
            ∧ ∃ y, t.coll? n g.id = some y ∧ y.phase = 1 ∧ y.inst = 1 ∧ y.desc = c.desc))
      ∧ (∀ (reason : Byte) (c : Coll) (d : Desc), s.coll? n g.id = some c → c.phase = 0 → DescHeld s c.desc d →
        Completes (.groupRefuse src n g.id reason) s (fun t => t.coll? n g.id = none
          ∧ t.sw.refuseReason = reason.toNat ∧ DescEnded c.desc 0x09 6 t))
      ∧ (∀ (c : Coll) (d : Desc), g.bound = true → s.coll? n g.id = some c → c.phase < 5 → DescHeld s c.desc d →
        Completes (.groupClear src n g.id) s (fun t => t.group? n g.id = none ∧ t.coll? n g.id = none
          ∧ DescEnded c.desc 0x06 0xFFFFFFFF t)))
    ∧ (∀ (c : Coll) (d : Desc), s.coll? n g.id = some c → DescHeld s c.desc d →
      (g.bound = false → c.phase = 0 → g.since + 5 * 75200000 ≤ s.now →
        Completes (.groupRequestTimeout n g.id) s (fun t => t.coll? n g.id = none
          ∧ DescEnded c.desc 0x09 4 t))
      ∧ (∀ ms, ms = min 1000 (s.fld (.ABT_COLL_CFG n) ABT_COLL_CFG_LIMIT) → 0 < ms → 0 < c.phase → c.phase < 5 →
        c.started + ms * 75200000 ≤ s.now → Completes (.collectiveLimitExpire n g.id) s (fun t =>
          t.group? n g.id = some { g with broken := true } ∧ t.coll? n g.id = none
            ∧ t.bit (.ABT_COLL_STATUS n) ABT_COLL_STATUS_BROKEN_SEEN = true
            ∧ t.bit (.ABT_COLL_STATUS n) ABT_COLL_STATUS_LIMIT_SEEN = true
            ∧ DescEnded c.desc 0x06 0xFFFFFFFF t
            ∧ (s.fmNode ≠ 0xFFFF → MgmtSent (s.node n) s.fmNode 0x15
                (leBytes 2 g.id.toNat ++ leBytes 1 c.inst.toNat ++ leBytes 1 1) s t))))

/-- R381, R388 to R392, R402 to R404, R408: the rounds of a collective at a member. Its header result lets the data
round begin, and a data frame that overtakes it is kept; its source is sent in chunks, each chunk of the result is
stored, the three tally frames go up, and the tally gives its status. That the whole data round is read and sent in
DATA_ROUND_START is the model's choice (log entry 84). -/
def Obligations.CollectiveRoundsFollow : Prop :=
  ∀ (s : State) (n : Nat) (f : Frame) (x : Group) (c : Coll) (d : Desc), s.desc? c.desc = some d →
    (DownFrame s n 0 f x c → c.phase = 1 → headerMismatch (frameLanes f) = false → chunkIncomplete f = false →
      d.count ≠ 0 → d.flag 3 63 = false → c.early = [] → Completes (.headerResult n f) s (fun t =>
        ∃ y, t.coll? n x.id = some y ∧ y.phase = 2 ∧ y.expected = d.expects - c.lostEarly ∧ y.mismatch = false))
    ∧ (DownFrame s n 0 f x c → c.phase = 1 → headerMismatch (frameLanes f) = true →
      Completes (.headerResult n f) s (fun t => ∃ y, t.coll? n x.id = some y ∧ y.phase = 3 ∧ y.mismatch = true))
    ∧ (DownFrame s n 1 f x c → c.phase = 1 → Completes (.chunkFrame n f) s (fun t =>
      ∃ y, t.coll? n x.id = some y ∧ y.phase = 1 ∧ y.early = c.early ++ [f] ∧ y.expected = c.expected))
    ∧ (∀ (q : Seg) (o : Nat) (k : Stack), n < 8 → s.group? n x.id = some x → s.coll? n x.id = some c →
      c.phase = 2 → d.flag 3 63 = false → d.contributes = true → d.segsOf 1 = [q] → q.rights.getLsbD 0 = true →
      d.stack = n → s.whereIs n q.offset q.len = .near o → k = s.stack n → k.nearErr = [] → k.repairing = [] →
      (∀ line ∈ linesOf o q.len, k.mark false line ≠ markPoison) → s.sourceHeld d = false →
      UpRoom s n x.up (((s.dataFrames n d c.inst.toNat (plainBytes k false o q.len)).map frameCells).sum) →
      Completes (.dataRoundStart n x.id) s (fun t =>
        SentUp n x.up (s.dataFrames n d c.inst.toNat (plainBytes k false o q.len)) s t
          ∧ ∃ y, t.coll? n x.id = some y ∧ y.phase = 3))
    ∧ (∀ (q : Seg) (w e0 : Nat), DownFrame s n 1 f x c → c.phase = 3 → chunkFailed f = false →
      chunkIncomplete f = false → d.stack = n → d.cop = 0 → w = d.elemBytes → e0 = chunkE0 f →
      (chunkData f).length % w = 0 → 0 < (chunkData f).length → (chunkData f).length ≤ 8192 →
      e0 + (chunkData f).length / w ≤ d.count → d.segsOf 2 = [q] → q.len = d.count * w →
      q.rights.getLsbD 1 = true → q.node ≠ 0xFFFF →
      OnePiece (storePiece q) { q with va := q.va + e0 * w, len := (chunkData f).length } →
      Completes (.chunkFrame n f) s (fun t =>
        (∃ y, t.coll? n x.id = some y ∧ y.expected = c.expected - 1 ∧ y.failedChunks = c.failedChunks)
          ∧ ∃ r, (t.stack n).reqs = (s.stack n).reqs ++ [r] ∧ r.op = 2 ∧ r.node = q.node ∧ r.offset = q.offset + e0 * w
              ∧ r.payload = chunkData f ∧ r.src = d.src))
    ∧ (n < 8 → s.group? n x.id = some x → s.coll? n x.id = some c → c.phase = 3 → c.expected = 0 →
      UpRoom s n x.up 3 → Completes (.tallySend n x.id) s (fun t =>
        SentUp n x.up (c.tallyFrames x (BitVec.ofNat 3 (s.tenantOf n))) s t
          ∧ ∃ y, t.coll? n x.id = some y ∧ y.phase = 4))
    ∧ (∀ y, DownFrame s n 2 f x c → c.phase = 4 → y = c.addTally f → y.tallied = true →
      d.st = .running → d.phase = .held → s.descReqs d = [] → d.status = 0 →
      Completes (.tallyResult n f) s (fun t => t.coll? n x.id = none
        ∧ t.fld (.ABT_LAGGARD n) ABT_LAGGARD_RANK = y.lane 3 % 32768
        ∧ (c.headerIncomplete = true ∨ y.tallyIncomplete = true →
            DescEnded c.desc 0x06 (BitVec.ofNat 32 (x.members - y.lane 0)) t)
        ∧ (c.headerIncomplete = false → y.tallyIncomplete = false → c.mismatch = true →
            DescEnded c.desc 0x08 9 t)
        ∧ (c.headerIncomplete = false → y.tallyIncomplete = false → c.mismatch = false → 0 < y.lane 1 →
            DescEnded c.desc 0x05 (BitVec.ofNat 32 (y.lane 2)) t)
        ∧ (c.headerIncomplete = false → y.tallyIncomplete = false → c.mismatch = false → y.lane 1 = 0 →
            ∃ e, t.desc? c.desc = some e ∧ e.st = .finished ∧ e.status = 0)))

/-! ### Memory engines, failures and the defect list -/

/-- R417, R420, R421, R422, R424, R425: a row that is due is taken under repair, and its repair writes back its lines
and lists it; a patrolled line is treated as a read line, and the next pass begins SCRUB_PERIOD after the last began
(at once where that is past: the model's reading, log entry 229); and the zero scrub leaves every byte zero, every
line BLANK and no error. That a line with an uncorrectable error makes its row due is the model's choice too (log
entry 91). -/
def Obligations.RowsAreRepairedAndScrubbed : Prop :=
  ∀ (s : State) (n : Nat) (k : Stack), n < 8 → k = s.stack n →
    (∀ row : RowId, row.stack = n →
      (s.stackUp n = true → s.rowDue row = true → row ∉ k.repairing →
        Completes (.rowRepair row) s (fun t => (t.stack n).repairing = k.repairing ++ [row]
          ∧ (t.stack n).rowsDue = k.rowsDue.erase (rowIdKey row) ∧ SameStacks n s t ∧ SameTiers s t
          ∧ RegsOutside [] s t))
      ∧ (∀ (l : Nat) (bad : List Nat) (e : Word), row ∈ k.repairing → s.linesInRow row [l] = [l] →
        (∀ p ∈ (if row.far = true then k.farErr else k.nearErr), p.1 = l) → k.coreHeld = [] → k.spansIn = [] →
        (∀ d ∈ s.host.descs, d.st ≠ .waitSegs) → s.keeper.debugHeld = none →
        e = rowEntry row causeRepaired s.boot.startCount →
        Completes (.rowRepairDone row [l] bad) s (fun t =>
          (t.stack n).repairing = k.repairing.erase row
            ∧ t.reg (.MEM_STATUS n) = (s.satFld (.MEM_STATUS n) MEM_STATUS_REPAIRS 1).reg (.MEM_STATUS n)
            ∧ (t.stack n).lineErr row.far l = 0
            ∧ (if s.bit (.MEM_STATUS n) MEM_STATUS_ZERO_BUSY = true then
                (t.stack n).mark row.far l = markBlank
                  ∧ TierWritten n row.far (128 * l) (List.replicate 128 0) s t
              else if l ∈ bad ∨ 2 < k.lineErr row.far l then
                (t.stack n).mark row.far l = markPoison
                  ∧ TierWritten n row.far (128 * l) (List.replicate 128 0) s t
              else (t.stack n).mark row.far l = k.mark row.far l ∧ SameTiers s t)
            ∧ (s.namesIt e = false → e ∈ t.allEntries))))
    ∧ (∀ (far : Bool) (line wrong e : Nat) (done : Bool), s.stackUp n = true →
      0 < s.fld (.MEM_CFG n) MEM_CFG_SCRUB_PERIOD → 128 * line < s.tierSize n far →
      s.patrolDue n far line = true → s.lineBusy n far line = false → e = k.lineErr far line + wrong →
      done = (s.modStack n (fun x => x.patrolled far line)).patrolDone n →
      Completes (.patrolScrub n far line wrong) s (fun t => (t.stack n).lineErr far line = 0
        ∧ (e ≤ 2 → SameTiers s t ∧ (t.stack n).nearMark = k.nearMark ∧ (t.stack n).farMark = k.farMark)
        ∧ (0 < e → e ≤ 2 → t.reg (.MEM_ERR_COUNT n) = (s.satFld (.MEM_ERR_COUNT n)
            (if far then MEM_ERR_COUNT_CORR_FAR else MEM_ERR_COUNT_CORR_NEAR) 1).reg (.MEM_ERR_COUNT n))
        ∧ (e = 3 ∨ e = 4 → (t.stack n).mark far line = markPoison
          ∧ TierWritten n far (128 * line) (List.replicate 128 0) s t
          ∧ t.reg (.MEM_ERR_COUNT n)
              = (s.satFld (.MEM_ERR_COUNT n) MEM_ERR_COUNT_UNCORR 1).reg (.MEM_ERR_COUNT n)
          ∧ rowKey n far line ∈ (t.stack n).rowsDue)
        ∧ (t.stack n).patrolNear = (if done = true then [] else (k.patrolled far line).patrolNear)
        ∧ (t.stack n).patrolFrom = (if done = true then max s.now (k.patrolFrom + s.patrolPeriod n) else k.patrolFrom)
        ∧ t.fld (.MEM_STATUS n) MEM_STATUS_PATROL_PASSES
            = (s.fld (.MEM_STATUS n) MEM_STATUS_PATROL_PASSES + boolNat done) % 65536))
    ∧ (s.bit (.MEM_STATUS n) MEM_STATUS_ZERO_BUSY = true → k.repairing = [] →
      Completes (.zeroScrubDone n) s (fun t =>
        t.bit (.MEM_STATUS n) MEM_STATUS_ZERO_BUSY = false
          ∧ (∀ far k, Mem.read ((t.stack n).tier far) k = 0 ∧ (t.stack n).mark far k = markBlank
            ∧ (t.stack n).lineErr far k = 0)
          ∧ (t.stack n).drawer = k.drawer ∧ SameStacks n s t
          ∧ RegsOutside [.MEM_STATUS n] s t))

/-- R159, R463, R465, R469, R471, R472: a unit that fails after READY is listed with cause 2, and the fabric manager
and the host learn of it; an abutment's failure makes its stack failed; a bench at the bypass carries no job; an entry
that waits is written to the list in its order, to one copy and then to the other; and a failure of the switch asserts
ALERT_N. That each DEFECT_ENTRY_WRITTEN is the write of one copy is the model's choice (log entry 234). -/
def Obligations.FailuresAreListed : Prop :=
  ∀ s : State, s.ready = true → s.host.notices.length < 256 →
    (∀ (u : UnitId) (e : Word), s.unitExists u = true → s.unitFailed u.kind u.stack u.index = false →
      e = unitEntry u causeLate s.boot.startCount → s.namesIt e = false →
      s.boot.defects.length + s.boot.unwritten.length < 4096 →
      (u.kind = kindAbutment → s.stackJobs u.stack = [] → Completes (.unitFailure u) s (fun t =>
        t.boot.unwritten = s.boot.unwritten ++ [e] ∧ t.boot.defects = s.boot.defects
          ∧ t.stackFailed u.stack = true ∧ (t.stack u.stack).up = false
          ∧ t.bit .HOSTIF_NOTIFY HOSTIF_NOTIFY_UNIT_FAILED = true ∧ NoticeHeld 6 u.stack (leBytes 8 e.toNat) t))
      ∧ (u.kind = kindAtomic → Completes (.unitFailure u) s (fun t =>
        t.boot.unwritten = s.boot.unwritten ++ [e] ∧ t.sw.noMerge = true
          ∧ (∀ n, t.stack n = s.stack n) ∧ t.reg .CAP_START = s.reg .CAP_START
          ∧ t.bit .HOSTIF_NOTIFY HOSTIF_NOTIFY_UNIT_FAILED = true ∧ NoticeHeld 6 0xFF (leBytes 8 e.toNat) t))
      ∧ (u.kind = kindBench → s.logicalOf u.stack u.index = none → s.stackBroken u.stack = false →
        Completes (.unitFailure u) s (fun t => t.boot.unwritten = s.boot.unwritten ++ [e]
          ∧ (∀ n, t.stack n = s.stack n) ∧ NoticeHeld 6 u.stack (leBytes 8 e.toNat) t)))
    ∧ (s.boot.secondCopy ≠ s.boot.defects → Completes .defectEntryWritten s (fun t =>
        t.boot.secondCopy = s.boot.defects ∧ { t with boot := s.boot } = s ∧ t.boot.defects = s.boot.defects
          ∧ t.boot.unwritten = s.boot.unwritten))
    ∧ (∀ e rest, s.boot.unwritten = e :: rest → s.boot.secondCopy = s.boot.defects →
      Completes .defectEntryWritten s (fun t =>
        t.boot.defects = s.boot.defects ++ [e] ∧ t.boot.unwritten = rest ∧ t.boot.secondCopy = s.boot.secondCopy
          ∧ t.fld .CAP_DEFECT_COUNT CAP_DEFECT_COUNT_NEW
              = (s.fld .CAP_DEFECT_COUNT CAP_DEFECT_COUNT_NEW + 1) % 65536
          ∧ RegsOutside [.CAP_DEFECT_COUNT] s t ∧ t.stackTab = s.stackTab))
    ∧ Completes .switchFail s (fun t => t.alertN = true ∧ NoticeHeld 15 0xFF [] t
        ∧ t.bit .HOSTIF_NOTIFY HOSTIF_NOTIFY_SWITCH_FAIL = true ∧ t.stackTab = s.stackTab
        ∧ { t.sw with arrived := s.sw.arrived } = s.sw)

/-! ### Start-up -/

/-- R452, R455 to R460: power good samples the straps and leads to step 2; once the boot ROM has checked the keys and the
descriptor, BAR0 answers with STEP 2, or the start halts (that the two checks are two KEEPER_BOOT commands is the model's
choice, log entry 228); the firmware's check ends in step 3 or a wait for an image; a recovery image that verifies
is written to flash and starts, and one that does not sets CAUSE 4; stacks leave
reset in step 3; and the known-answer tests end in step 5 with every drawer, SRAM, program store and tile zero. -/
def Obligations.StartUpReachesTheMerge : Prop :=
  ∀ s : State,
    (∀ volts ms tray slot, s.boot.powered = false → s.boot.epoHigh = true → s.boot.tripped = false →
      4000 < volts → 10 ≤ ms → Completes (.powerGood volts ms tray slot) s (fun t =>
        t.boot.powered = true ∧ t.stepNo = 2 ∧ t.boot.tray = tray ∧ t.boot.slot = slot
          ∧ t.fld .CAP_POSITION CAP_POSITION_TRAY_ID = tray.toNat
          ∧ t.fld .CAP_POSITION CAP_POSITION_SLOT_ID = slot.toNat
          ∧ t.boot.startCount.toNat = min 0xFFFF (s.boot.startCount.toNat + 1)
          ∧ (s.boot.shedHigh = false → t.shed = true)
          ∧ RegsOutside [.CAP_POSITION, .CAP_START, .PWR_STATUS, .PWR_EVENTS] s t ∧ t.stackTab = s.stackTab))
    ∧ (∀ keys desc fw digest, s.inStep 2 = true →
      (s.boot.bar0 = false → Completes (.keeperBoot keys desc fw digest) s (fun t => t.boot.bar0 = true ∧ t.stepNo = 2
        ∧ (keys = false → t.startCause = 2 ∧ t.halted = true)
        ∧ (keys = true → desc = false → t.startCause = 1 ∧ t.halted = true)
        ∧ (keys = true → desc = true → t.startCause = s.startCause ∧ t.halted = false ∧ t.boot.descriptorOk = true
          ∧ RegsOutside [.HOSTIF_LINK] s t)))
      ∧ (s.boot.bar0 = true → s.startCause = 0 → Completes (.keeperBoot keys desc fw digest) s (fun t =>
        t.halted = false ∧ RegsOutside [.CAP_START] s t
          ∧ (fw = false ∨ s.boot.imageBad = true → t.startCause = 3 ∧ t.stepNo = 2)
          ∧ (fw = true → s.boot.imageBad = false → t.startCause = 0 ∧ t.stepNo = 3
            ∧ (s.boot.flashImage = none → t.keeper.fwDigest = digest)
            ∧ ∀ image, s.boot.flashImage = some image → t.keeper.fwDigest = Config.sha512 image))))
    ∧ (∀ who v, s.permit who .CAP_RECOVERY = .ok → getF v CAP_RECOVERY_GO = 1 →
      Completes (.capRecoveryGo who v) s (fun t => if s.awaitsImage = true
        then t.boot.recovering = true ∧ t.fld .CAP_RECOVERY CAP_RECOVERY_ADDR = getF v CAP_RECOVERY_ADDR
          ∧ RegsOutside [.CAP_RECOVERY] s t
        else t = (unlatched s who .CAP_RECOVERY).countAt .CAP_RECOVERY))
    ∧ (∀ size sig flash, s.awaitsImage = true → s.boot.recovering = true →
      Completes (.recoveryImageCheck size sig flash) s (fun t => t.boot.recovering = false
        ∧ RegsOutside [.CAP_START] s t
        ∧ (if sig = true ∧ 4096 ≤ size ∧ size ≤ 16777216
          then t.bit .CAP_START CAP_START_RECOVERED = true ∧ t.stepNo = 3 ∧ t.boot.imageBad = !flash
            ∧ t.boot.flashImage = (if flash = true
              then some (s.hostRead (4096 * s.fld .CAP_RECOVERY CAP_RECOVERY_ADDR) size) else s.boot.flashImage)
            ∧ t.keeper.fwDigest = Config.sha512 (s.hostRead (4096 * s.fld .CAP_RECOVERY CAP_RECOVERY_ADDR) size)
          else t.startCause = 4 ∧ t.stepNo = 2)))
    ∧ (s.inStep 3 = true → Completes .stacksOutOfReset s (fun t => t.stepNo = 4
        ∧ (∀ n, s.stackPresent n = true → (t.stack n).up = true)
        ∧ (∀ n, { t.stack n with up := (s.stack n).up } = s.stack n) ∧ RegsOutside [.CAP_START] s t))
    ∧ (∀ failed sw, s.inStep 4 = true → Completes (.knownAnswerTestsDone failed sw) s (fun t =>
        (if sw = true then t.startCause = 6 ∧ t.halted = true else t.stepNo = 5
          ∧ t.boot.katFailed = failed.filter (fun u => s.unitExists u && testedEarly u))
        ∧ RegsOutside [.CAP_START] s t
        ∧ ∀ n, s.stackPresent n = true → ∀ k, Mem.read (t.stack n).drawer k = 0 ∧ Mem.read (t.stack n).sram k = 0
          ∧ ∀ b c i j, Tab.get 0 (t.bench n b).prog k = 0 ∧ (t.ctx ⟨n, b, c⟩).elem i j = 0))

/-- R158, R423, R438, R462, R465, R467, R468, R470: the merge uses a copy of the list that passes its check, lists
what failed, sets the bypass columns and leads to step 6 (that the first copy is used where both pass is the model's
choice, log entry 230); the tiers end their training as zeros marked BLANK with a hard repair for a listed row, and a
port that stays in OFF says why; the port step ends at its budget or when every port has settled, the next step waits
for the lock, and READY follows the measurements. That CAUSE 7 and 8 stand with STEP 7, and that the lowest reason of
OFF is shown, are the model's choices too (log entries 104 and 105). -/
def Obligations.StartUpReachesReady : Prop :=
  ∀ s : State,
    (s.inStep 5 = true →
      Completes (.defectMergeDone false false) s (fun t => t.startCause = 5 ∧ t.halted = true
        ∧ t.boot.defects = s.boot.defects)
      ∧ (∀ (a b : Bool) u e (l : List Word) (x : State), (a || b) = true →
        l = (if a = true then s.boot.defects else s.boot.secondCopy) → x = s.useCopy a →
        s.boot.katFailed = [u] → u.kind = kindBench → u.stack < 8 → u.index < 352 → s.ready = false →
        e = unitEntry u causeKat s.boot.startCount → x.namesIt e = false →
        l.length + s.boot.unwritten.length < 4096 →
        (∀ n, s.stackPresent n = true → x.stackBroken n = false) →
        Completes (.defectMergeDone a b) s (fun t => t.stepNo = 6 ∧ t.boot.merged = true
          ∧ t.boot.defects = l ++ [e] ∧ t.boot.secondCopy = l ++ [e]
          ∧ (∀ n y, s.stackPresent n = true → y < 16 →
            t.fld (.BCH_ROW_MAP n y) BCH_ROW_MAP_BYPASS = t.bypassFor n y)
          ∧ t.stackTab = s.stackTab)))
    ∧ (∀ results, s.inStep 6 = true → (∀ r ∈ results, r.badRows = [] ∧ r.accFailed = []) →
      (∀ n, s.stackUp n = true → s.stackBroken n = false ∧ ∃ r ∈ results, r.stack = n ∧ r.trained = true) →
      ∀ l : List Word, ((∀ e ∈ s.boot.defects, entryKind e ≠ 8 ∨ e.getLsbD 19 = true) ∧ l = s.boot.defects
        ∨ ∃ e, s.boot.defects = [e] ∧ entryKind e = 8 ∧ e.getLsbD 19 = false
          ∧ s.stackUp (entryRow e).stack = true ∧ l = [e ||| 0x80000]) →
      Completes (.tierTrainingDone results) s (fun t => t.stepNo = 7 ∧ t.boot.defects = l
        ∧ t.halted = !s.strapsOk
        ∧ t.startCause = (if s.strapsOk = false then 7 else if s.rackValid = false then 8 else 0)
        ∧ (t.startCause = 0 → t.boot.portsFrom = s.now)
        ∧ (∀ q, q ≠ .CAP_START → (∀ p, q ≠ .PORT_STATUS p) → t.reg q = s.reg q)
        ∧ (∀ p, p < 36 → s.portState p = 0 → s.offReason p ≠ 0 → t.portFld p PORT_STATUS_REASON = s.offReason p)
        ∧ ∀ n, s.stackUp n = true → ∀ far k, Mem.read ((t.stack n).tier far) k = 0
            ∧ (t.stack n).mark far k = markBlank ∧ (t.stack n).lineErr far k = 0))
    ∧ (∀ (dest : BitVec 7) (rack : Byte), s.i3cRefuses dest = false →
      (rack.toNat ≤ 63 → s.rackValid = false → Completes (.rackSet ⟨dest, [rack]⟩ false) s (fun t =>
        I3cAnswered 0x33 0 t ∧ t.fld .CAP_POSITION CAP_POSITION_RACK = rack.toNat ∧ t.rackValid = true
          ∧ t.fld .CAP_POSITION CAP_POSITION_BASE_NODE = (rack.toNat * 512
              + (s.boot.tray.extractLsb' 2 3).toNat * 64 + s.boot.slot.toNat * 8)
          ∧ (s.inStep 7 = true → s.startCause = 8 → t.startCause = 0 ∧ t.boot.portsFrom = s.now)
          ∧ RegsOutside [.CAP_POSITION, .CAP_START] s t))
      ∧ (63 < rack.toNat ∨ s.rackValid = true ∧ s.fld .CAP_POSITION CAP_POSITION_RACK ≠ rack.toNat →
        Completes (.rackSet ⟨dest, [rack]⟩ false) s (fun t => I3cAnswered 0x33 3 t ∧ t.regs = s.regs)))
    ∧ (∀ budget, s.inStep 7 = true → s.startCause = 0 →
      (budget = true ∧ s.boot.portsFrom + 3000 * 75200000 ≤ s.now ∨ ∀ p, p < 36 → s.portSettled p = true) →
      Completes (.portTrainingStepEnd budget) s (fun t =>
        (if s.isLocked = true then t.stepNo = 9 ∧ t.startCause = 0 else t.stepNo = 8 ∧ t.startCause = 9)
          ∧ OnlyRegs [.CAP_START] s t))
    ∧ (s.inStep 9 = true → s.isLocked = true → (∀ p, p < 36 → s.portState p = 6 ∨ s.portFld p PORT_STATUS_REASON ≠ 0) →
      Completes .measurementsRecorded s (fun t => t.stepNo = 10
        ∧ t.ready = true ∧ t.halted = false ∧ OnlyRegs [.CAP_START] s t))
    ∧ (s.isLocked = false ∨ (∃ p, p < 36 ∧ s.portState p ≠ 6 ∧ s.portFld p PORT_STATUS_REASON = 0) →
      NoEffect .measurementsRecorded s)

/-! ### Power -/

/-- R474 to R480, R486 to R488: SAG and SHED_N put the shed level in force and lift it, and count no violation; an
undervoltage, EPO_N and a thermal trip open the power stages; and an evaluation, of a window whose power kept the
limit of R477, sets the bounds of the next window, CAP_STEP as the highest step within them (R480), THERMAL_STEP, and
ballast on eligible benches up to the lower bound (R481). Which benches come first is the command's (the model's
choice, log entry 223). So are the reading that CAP_STEP is 64 where the demand is within upper, below lower as well
as above it, where R480 raises no step by ballast (log entry 112), the evaluation of a window that cannot be (log
entry 111), and the highest limit of a window as that from which its fall is measured (log entry 222). -/
def Obligations.PowerFollowsItsPins : Prop :=
  ∀ s : State,
    (∀ volts us cap safe, cap = s.presentCap → safe = s.power.safe → s.boot.powered = true →
      (s.sag = false → volts < 3900 → 20 ≤ us → Completes (.sagSet volts us) s (fun t => t.sag = true
        ∧ t.bit .PWR_EVENTS PWR_EVENTS_SAG_SEEN = true
        ∧ t.fld .PWR_EVENTS PWR_EVENTS_VIOLATIONS = s.fld .PWR_EVENTS PWR_EVENTS_VIOLATIONS
        ∧ t.fld .PWR_STATUS PWR_STATUS_LIMIT = limitOf s cap safe true))
      ∧ (s.sag = true → 4000 < volts → 1000 ≤ us → Completes (.sagClear volts us) s (fun t => t.sag = false
        ∧ t.fld .PWR_STATUS PWR_STATUS_LIMIT = limitOf s cap safe s.shed))
      ∧ (s.boot.shedHigh = true → 5 ≤ us → Completes (.shedAssert us) s (fun t => t.shed = true
        ∧ t.boot.shedHigh = false ∧ t.bit .PWR_EVENTS PWR_EVENTS_SHED_SEEN = true
        ∧ t.fld .PWR_EVENTS PWR_EVENTS_VIOLATIONS = s.fld .PWR_EVENTS PWR_EVENTS_VIOLATIONS
        ∧ t.fld .PWR_STATUS PWR_STATUS_LIMIT = limitOf s cap safe true))
      ∧ (s.boot.shedHigh = false → Completes .shedRelease s (fun t => t.shed = false ∧ t.boot.shedHigh = true
        ∧ t.fld .PWR_STATUS PWR_STATUS_LIMIT = limitOf s cap safe s.sag))
      ∧ (2000 < volts → volts < 3600 → 5 ≤ us → Completes (.undervoltageReset volts us) s (PoweredOff 1 s))
      ∧ (10 ≤ us → Completes (.epo us) s (fun t => PoweredOff 2 s t ∧ t.boot.epoHigh = false))
      ∧ (∀ celsius, 110 ≤ celsius → Completes (.thermalTrip celsius) s (fun t => PoweredOff 3 s t
        ∧ t.boot.tripped = true ∧ t.alertN = true)))
    ∧ (∀ us, us < 2 → NoEffect (.epo us) s) ∧ NoEffect (.shedAssert 0) s
    ∧ (s.boot.epoHigh = false → Completes .epoRelease s (fun t => t.boot.epoHigh = true ∧ t.boot.tripped = false
        ∧ t.boot.powered = s.boot.powered ∧ t.regs = s.regs))
    ∧ (∀ p demand (can : List BallastBench) input temps steps limit r, s.boot.powered = true →
      s.beatNow.toNat % 64 = 0 → p ≤ 1020 * s.power.peak →
      (∀ f ∈ s.power.falls, s.now + 64 * 75200 ≤ f.1 + 200 * 75200 ∨ p ≤ 1000 * f.2) →
      p < 65536000 → input < 65536 → limit = 1000 * s.powerLimit →
      r = 64 * s.fld .PWR_LIMITS PWR_LIMITS_RAMP →
      ∀ lower upper, lower = (if r = 0 then 0 else min limit (p - r)) →
        upper = (if r = 0 then limit else min limit (p + r)) →
      Completes (.powerEvaluation p demand can input temps steps) s (fun t =>
        t.power.lower = lower ∧ t.power.upper = upper ∧ t.power.peak = s.powerLimit
          ∧ t.fld .PWR_STATUS PWR_STATUS_POWER = p / 1000 ∧ t.fld .PWR_STATUS PWR_STATUS_INPUT = input
          ∧ t.fld .PWR_STATUS PWR_STATUS_LIMIT = s.fld .PWR_STATUS PWR_STATUS_LIMIT
          ∧ (∀ f, f ∈ t.power.falls ↔ f ∈ s.power.falls ∧ 1000 * f.2 < p)
          ∧ (∀ may : List BallastBench, may = can.filter (fun x => t.mayBallast x.stack x.bench) →
            (∃ run : List BallastBench, run.Sublist may ∧ (lower ≤ demand → run = [])
              ∧ (demand < lower → demand + (run.map (·.mw)).sum ≤ upper)
              ∧ (∀ l : List BallastBench, l.Sublist may → lower ≤ demand + (l.map (·.mw)).sum →
                  demand + (l.map (·.mw)).sum ≤ upper → lower ≤ demand + (run.map (·.mw)).sum)
              ∧ t.bit .PWR_STATUS PWR_STATUS_BALLAST = !run.isEmpty
              ∧ ∀ n, s.stackPresent n = true → { t.stack n with ballast := (s.stack n).ballast } = s.stack n
                ∧ (t.stack n).ballast = (run.filter (fun x => x.stack == n)).map (·.bench))
              ∧ (demand + (may.map (·.mw)).sum < lower → t.bit .PWR_EVENTS PWR_EVENTS_BALLAST_SHORT_SEEN = true))
          ∧ (∀ n, s.stackPresent n = true →
            (∀ c, c = t.fld (.PWR_STEP n) PWR_STEP_CAP_STEP →
              (demand ≤ upper → c = 64)
              ∧ (upper < demand → 16 ≤ c ∧ c ≤ 63 ∧ (c = 16 ∨ nth 0 steps (c - 16) ≤ upper)
                ∧ ∀ j, c < j → j < 64 → upper < nth 0 steps (j - 16)))
            ∧ (95 ≤ nth 0 temps n → t.fld (.PWR_STEP n) PWR_STEP_THERMAL_STEP
                = max 16 (s.fld (.PWR_STEP n) PWR_STEP_THERMAL_STEP - 4))
            ∧ (nth 0 temps n ≤ 90 → t.fld (.PWR_STEP n) PWR_STEP_THERMAL_STEP
                = min 64 (s.fld (.PWR_STEP n) PWR_STEP_THERMAL_STEP + 4))
            ∧ (90 < nth 0 temps n → nth 0 temps n < 95 → t.fld (.PWR_STEP n) PWR_STEP_THERMAL_STEP
                = s.fld (.PWR_STEP n) PWR_STEP_THERMAL_STEP))))
    ∧ (∀ p demand can input temps steps, 1020 * s.power.peak < p
        ∨ (∃ f ∈ s.power.falls, f.1 + 136 * 75200 < s.now ∧ 1000 * f.2 < p) →
      NoEffect (.powerEvaluation p demand can input temps steps) s)

/-- R483 to R485, R569, R571, R572: a message is acknowledged, refreshes the lease and is held until its beat, or
takes effect at once where its beat has come; held messages take effect at their beat; after 2 s without a message the
safe cap is in force; and the bus answers its commands and the status read. That the present beat has come, that a
message whose beat has come brings no other into effect, what GETSTATUS answers, and that the static address is
answered after a dynamic one is assigned, are the model's choices (log entries 12, 114, 117, 247). -/
def Obligations.SidebandMessagesActOnPower : Prop :=
  ∀ s : State,
    (∀ dest : BitVec 7, s.i3cRefuses dest = false →
      (∀ (v : BitVec 16) (b : BitVec 48) body, body = leBytes 2 v.toNat ++ leBytes 6 b.toNat →
        s.capsHeld = false →
        (s.reached b = false → ∀ h : Held, h.value = v.toNat → h.beat = b → h.order = s.host.nextOrder →
          (h.isCap = true → Completes (.capAt ⟨dest, body⟩ false) s (fun t => I3cAnswered 0x30 0 t
            ∧ t.power.held = s.power.held ++ [h] ∧ t.power.leaseAt = s.now ∧ t.leaseLost = false
            ∧ t.power.cap = s.power.cap ∧ RegsOutside [.PWR_STATUS] s t))
          ∧ (h.isCap = false → Completes (.rampAt ⟨dest, body⟩ false) s (fun t => I3cAnswered 0x31 0 t
            ∧ t.power.held = s.power.held ++ [h] ∧ t.power.leaseAt = s.now ∧ t.leaseLost = false
            ∧ RegsOutside [.PWR_STATUS] s t)))
        ∧ (s.reached b = true → s.power.held = [] →
          Completes (.capAt ⟨dest, body⟩ false) s (fun t => I3cAnswered 0x30 0 t ∧ t.power.cap = some v.toNat
            ∧ t.power.held = [] ∧ t.power.safe = false
            ∧ t.fld .PWR_STATUS PWR_STATUS_LIMIT = limitOf s v.toNat false (s.shed || s.sag))
          ∧ Completes (.rampAt ⟨dest, body⟩ false) s (fun t => I3cAnswered 0x31 0 t ∧ t.power.held = []
            ∧ t.fld .PWR_LIMITS PWR_LIMITS_RAMP = min 1000 v.toNat ∧ RegsOutside [.PWR_LIMITS, .PWR_STATUS] s t)))
      ∧ Completes (.lease ⟨dest, []⟩ false) s (fun t => I3cAnswered 0x32 0 t ∧ t.power.leaseAt = s.now
        ∧ t.leaseLost = false ∧ RegsOutside [.PWR_STATUS] s t)
      ∧ (∀ i code len body, (i, code, len) ∈ [(Instr.capAt ⟨dest, body⟩ false, 0x30, 8), (.rampAt ⟨dest, body⟩ false, 0x31, 8),
          (.lease ⟨dest, body⟩ false, 0x32, 0)] → body.length ≠ len →
        Completes i s (fun t => I3cAnswered code 1 t ∧ t.power = s.power ∧ t.regs = s.regs))
      ∧ (∀ code body, knownMessage code = false → Completes (.unknownSidebandMessage code ⟨dest, body⟩ false) s (fun t =>
        I3cAnswered code.toNat 2 t ∧ t.power = s.power ∧ t.regs = s.regs)))
    ∧ (∀ dest : BitVec 7, 16 ≤ s.power.held.length ∨ s.i3cAnswers dest = false → ∀ i body code,
      i ∈ [Instr.capAt ⟨dest, body⟩ false, .rampAt ⟨dest, body⟩ false, .lease ⟨dest, body⟩ false, .rackSet ⟨dest, body⟩ false,
        .beatSet ⟨dest, body⟩ false] ∨ knownMessage code = false ∧ i = .unknownSidebandMessage code ⟨dest, body⟩ false →
      Completes i s (fun t => t = s.emit .i3cNack))
    ∧ (∀ h : Held, s.power.held = [h] → s.capsHeld = false → s.myTurn (h.beat, 3, h.order) = true →
      (h.isCap = true → Completes (.capTakesEffect h.order) s (fun t => t.power.cap = some h.value
        ∧ t.power.held = [] ∧ t.power.safe = (s.power.safe && s.leaseLost)
        ∧ t.fld .PWR_STATUS PWR_STATUS_LIMIT
            = limitOf s h.value (s.power.safe && s.leaseLost) (s.shed || s.sag)))
      ∧ (h.isCap = false → Completes (.rampTakesEffect h.order) s (fun t => t.power.held = []
        ∧ t.fld .PWR_LIMITS PWR_LIMITS_RAMP = min 1000 h.value ∧ RegsOutside [.PWR_LIMITS] s t)))
    ∧ (s.boot.powered = true → s.leaseLost = false → s.power.leaseAt + 2000 * 75200000 ≤ s.now →
      Completes .leaseLapse s (fun t => t.leaseLost = true ∧ t.power.safe = true
        ∧ t.bit .PWR_EVENTS PWR_EVENTS_LEASE_LOST_SEEN = true
        ∧ t.fld .PWR_STATUS PWR_STATUS_LIMIT = limitOf s s.presentCap true (s.shed || s.sag)))
    ∧ (s.boot.i3cOn = true →
      (∀ dest : BitVec 7, s.i3cAnswers dest = true ↔ dest.toNat = 0x30 + s.boot.slot.toNat % 2 ∨ s.boot.i3cDyn = some dest)
      ∧ Completes .statusRead s (fun t => t = s.emit (.i3cData ([s.boot.i3cResult, s.boot.i3cCode]
          ++ leBytes 1 s.i3cFlags ++ leBytes 1 s.power.held.length
          ++ leBytes 2 (s.fld .PWR_STATUS PWR_STATUS_POWER) ++ leBytes 2 (s.fld .PWR_STATUS PWR_STATUS_LIMIT))))
      ∧ (∀ dest a, (s.boot.i3cDyn = none →
          Completes (.i3cCcc (.entdaa a)) s (fun t => t.boot.i3cDyn = some a ∧ .i3cAck ∈ t.out ∧ t.regs = s.regs))
        ∧ (s.boot.i3cDyn = none → dest.toNat = 0x30 + s.boot.slot.toNat % 2 → Completes (.i3cCcc (.setdasa dest a)) s (fun t =>
          t.boot.i3cDyn = some a ∧ .i3cAck ∈ t.out ∧ t.regs = s.regs))
        ∧ (s.boot.i3cDyn ≠ none ∨ dest.toNat ≠ 0x30 + s.boot.slot.toNat % 2 →
          Completes (.i3cCcc (.setdasa dest a)) s (fun t => t = s.emit .i3cNack))
        ∧ (s.i3cAnswers dest = true → Completes (.i3cCcc (.getstatus dest)) s (fun t =>
          (∃ w, t.out = .i3cData (leBytes 2 w) :: s.out) ∧ t.boot = s.boot ∧ t.regs = s.regs))
        ∧ (s.i3cAnswers dest = false → Completes (.i3cCcc (.getstatus dest)) s (fun t => t = s.emit .i3cNack)))
      ∧ Completes (.i3cCcc .rstdaa) s (fun t => t.boot.i3cDyn = none ∧ t.regs = s.regs)
      ∧ ∀ c, Completes (.i3cCcc (.other c)) s (fun t => t = s.emit .i3cNack))

/-! ### External ports -/

/-- R437 to R442, R446, R24, R26: a port that nothing holds goes from OFF, or from a wait that is over, to CABLE, and
on through DC_CHECK, EQUALISE, PARAMS and CHECK to UP; a check that fails ends the attempt with its reason; and so
does the limit of a state. R439, R451: DC_CHECK turns off the drivers of shorted pairs, and an attempt goes by JFP_MAX
and MIN_WIDTH as it began. R440, R441, R493: each end sends its good lanes, its parameters and its part of the key
agreement. R347: a port has credit for the free cells of the far end's reserve. That a port on which no pair shows a
far end ends the attempt with reason 5, the lanes that PORT_LANES then shows, the reason of a port that several things
hold, the B port held for a JZK-4L neighbour, the numbers that the first flits carry, what a retrain leaves of the
credit, and what the training messages carry, are the model's choices (log entries 231, 232, 130, 105, 213, 134, 186,
235). -/
def Obligations.PortsTrain : Prop :=
  ∀ (s : State) (p : Nat), p < 36 →
    (s.inStep 7 = true → s.startCause = 0 → s.portState p = 0 → s.portFld p PORT_STATUS_ATTEMPTS = 0 →
      s.portFld p PORT_STATUS_REASON = 0 →
      (s.offReason p = 0 → Completes (.portTrainStart p) s (PortEnters p 1 s))
      ∧ (s.offReason p ≠ 0 → Completes (.portTrainStart p) s (fun t =>
        t.portState p = 0 ∧ t.portFld p PORT_STATUS_REASON = s.offReason p ∧ OnlyRegs [.PORT_STATUS p] s t)))
    ∧ (s.portState p = 7 →
      (s.port p).since + 1000 * 2 ^ min ((s.port p).backoff - 1) 6 * 75200000 ≤ s.now →
      Completes (.portTrainStart p) s (PortEnters p 1 s)
      ∧ Completes (.trainBackoffExpire p) s (PortEnters p 1 s))
    ∧ (s.portState p = 1 →
      (∀ c k, (c, k) ∈ [(CableAnswer.none, 0), (.passive, 1), (.active, 2)] →
        Completes (.cableBringupDone p c) s (fun t => PortEnters p 2 s t ∧ t.portFld p PORT_STATUS_CABLE = k))
      ∧ (∀ c ∈ [CableAnswer.noApplication, .moduleFault, .tooSlow],
        Completes (.cableBringupDone p c) s (AttemptFails p 6 s)))
    ∧ (s.portState p = 2 →
      (∀ (pairs : List PairDc) (Measured : State → Prop), Measured = (fun t => (t.port p).pairs = pairs
          ∧ (∀ x : PairDc, x ∈ pairs → x.short = true → (x.tx, x.pair) ∈ (t.port p).driversOff)
          ∧ t.reg (.PORT_LANES p) = BitVec.ofNat 64 ((t.port p).lanesWord plainLanes [])) →
        ((s.port p).crossedAt = 0 →
          (noSignal pairs = false →
            Completes (.dcCheck p pairs false) s (fun t => PortEnters p 3 s t ∧ Measured t))
          ∧ (noSignal pairs = true → Completes (.dcCheck p pairs false) s (AttemptFails p 5 s))
          ∧ Completes (.dcCheck p pairs true) s (fun t => t.portState p = 2 ∧ (t.port p).crossedAt ≠ 0
            ∧ Measured t ∧ OnlyRegs [.PORT_LANES p] s { t with ports := s.ports }))
        ∧ ((s.port p).crossedAt ≠ 0 → ∀ waited, waited ≤ 7 →
          (noSignal pairs = false →
            Completes (.crossRecheck p waited ⟨pairs, false⟩) s (fun t => PortEnters p 3 s t ∧ Measured t))
          ∧ ((s.port p).since + 20 * 75200000 ≤ s.now →
            Completes (.crossRecheck p waited ⟨pairs, true⟩) s (AttemptFails p 7 s))
          ∧ (s.now < (s.port p).since + 20 * 75200000 → Completes (.crossRecheck p waited ⟨pairs, true⟩) s (fun t =>
            t.bit (.PORT_STATUS p) PORT_STATUS_CROSSED = !s.bit (.PORT_STATUS p) PORT_STATUS_CROSSED
              ∧ t.portState p = 2 ∧ Measured t
              ∧ OnlyRegs [.PORT_STATUS p, .PORT_LANES p] s { t with ports := s.ports })))))
    ∧ (s.portState p = 3 → ∀ lanes u w, u = (s.port p).usableLanes lanes →
      w = (if 8 ≤ u.length then 8 else if 4 ≤ u.length then 4 else u.length - u.length / 3) →
      ∀ sent : Output, sent = .link p (.lanes ((s.port p).goodLanes lanes)) →
      (u = [] → Completes (.equaliseDone p lanes) s (fun t => AttemptFails p 7 s t ∧ sent ∈ t.out))
      ∧ (u ≠ [] → w < 2 ^ (s.port p).minWidth →
        Completes (.equaliseDone p lanes) s (fun t => AttemptFails p 8 s t ∧ sent ∈ t.out))
      ∧ (u ≠ [] → 2 ^ (s.port p).minWidth ≤ w →
        Completes (.equaliseDone p lanes) s (fun t => PortEnters p 4 s t ∧ sent ∈ t.out
          ∧ t.reg (.PORT_LANES p) = BitVec.ofNat 64 ((s.port p).lanesWord lanes (u.take w))
          ∧ .link p (.params (s.port p).maxJfp 2 s.baseNode p s.variant) ∈ t.out
          ∧ .link p (.share Config.certificates (Config.ephemeralPublic (t.port p).eph)) ∈ t.out)))
    ∧ (s.portState p = 4 → ∀ lo hi far farPort v auth z own farKey top keys, farPort < 64 →
      top = (s.port p).maxJfp → own = Config.ephemeralPublic (s.port p).eph → z = Config.ecdh (s.port p).eph farKey →
      keys = (if s.baseNode.toNat * 64 + p < far.toNat * 64 + farPort then linkKeys z own farKey
        else linkKeys z farKey own) →
      (min top hi < max 2 lo →
        Completes (.paramsDone p lo hi far farPort v auth farKey) s (AttemptFails p 10 s))
      ∧ (max 2 lo ≤ min top hi →
        Completes (.paramsDone p lo hi far farPort v false farKey) s (AttemptFails p 11 s)
        ∧ Completes (.paramsDone p lo hi far farPort v true farKey) s (fun t => PortEnters p 5 s t
          ∧ (∃ sig, .link p (.signed sig) ∈ t.out)
          ∧ (t.port p).jfp = min top hi ∧ (t.port p).farVariant = v
          ∧ t.portFld p PORT_STATUS_FAR_NODE = far.toNat ∧ t.portFld p PORT_STATUS_FAR_PORT = farPort
          ∧ ((t.port p).txKey, (t.port p).rxKey)
              = (if s.baseNode.toNat * 64 + p < far.toNat * 64 + farPort
                then (keys.take 32, keys.drop 32) else (keys.drop 32, keys.take 32)))))
    ∧ (s.portState p = 5 → ∀ latency far, far = BitVec.ofNat 16 (s.portFld p PORT_STATUS_FAR_NODE) →
      (s.wired p far = false → Completes (.checkDone p latency) s (fun t => PortEnters p 0 s t
        ∧ t.portFld p PORT_STATUS_REASON = 12))
      ∧ (s.wired p far = true → s.unusedB p far = true → Completes (.checkDone p latency) s (fun t =>
        PortEnters p 0 s t ∧ t.portFld p PORT_STATUS_REASON = 3))
      ∧ (∀ b, s.wired p far = true → s.unusedB p far = false → b < 36 → b ≠ p → s.bUnused b = true →
        (portUse s.variant b).1 = (portUse s.variant p).1 → s.portState b ≠ 6 →
        Completes (.checkDone p latency) s (fun t => t.portState p = 6 ∧ t.portState b = 0
          ∧ t.portFld b PORT_STATUS_REASON = s.offReason b))
      ∧ (s.wired p far = true → s.unusedB p far = false →
        (∀ b, b < 36 → s.bUnused b = true → (portUse s.variant b).1 ≠ (portUse s.variant p).1) →
        Completes (.checkDone p latency) s (fun t => PortEnters p 6 s t ∧ t.portFld p PORT_STATUS_ATTEMPTS = 0
          ∧ t.portFld p PORT_STATUS_WIDTH = widthCode (s.lanesUsed p)
          ∧ t.portFld p PORT_STATUS_JFP = (s.port p).jfp % 16 ∧ (t.port p).backoff = 0
          ∧ (t.port p).latency = latency ∧ (t.port p).txSeq = 0 ∧ (t.port p).rxSeq = 0xFFF
          ∧ (t.port p).replay = []
          ∧ ∀ q, q < 9 → ((s.port p).credit = [] → Tab.get 0 (t.port p).credit q = 33)
            ∧ Tab.get 0 (t.port p).credit q ≤ 33
            ∧ ((s.port p).credit ≠ [] → Tab.get 0 (s.port p).credit q ≤ 33 →
              Tab.get 0 (s.port p).credit q ≤ Tab.get 0 (t.port p).credit q))))
    ∧ (s.portState p = 7 → s.waitOver p = true → Completes (.trainBackoffExpire p) s (fun t =>
      (t.port p).maxJfp = max 2 (min 4 (s.fld (.PORT_CTRL p) PORT_CTRL_JFP_MAX))
        ∧ (t.port p).minWidth = s.fld (.PORT_CTRL p) PORT_CTRL_MIN_WIDTH ∧ (t.port p).driversOff = []))
    ∧ (∀ limit reason, (s.portState p, limit) ∈ [(1, 2000), (2, 20), (3, 500), (4, 200), (5, 80)] →
      (s.port p).since + limit * 75200000 ≤ s.now → reason = s.limitReason p →
      Completes (.trainStateTimeout p) s (AttemptFails p reason s))

/-- R435, R443 to R445, R450: a cause takes a port out of UP into a new attempt, and an attempt into its failure;
RETRAIN starts a new attempt and HOLD keeps the port in OFF; a cable's flags and a second with too many uncorrectable
codewords do as R435 and R450 say. That a module fault from UP starts a new attempt with reason 6 is the model's
choice (log entry 132). -/
def Obligations.PortsRetrainAndHold : Prop :=
  ∀ (s : State) (p : Nat), p < 36 → PortIdle p s → s.portPresent p = true →
    (∀ reason ∈ [6, 11, 13, 14, 15, 16],
      (s.portState p = 6 → Completes (.portDown p reason) s (LeavesUp p 2 reason s))
      ∧ (s.attempting p = true → Completes (.portDown p reason) s (AttemptFails p reason s)))
    ∧ (∀ who v, s.permit who (.PORT_CTRL p) = .ok →
      (getF v PORT_CTRL_HOLD = 0 → getF v PORT_CTRL_RETRAIN = 1 →
        (s.portState p = 6 → Completes (.retrain who p v) s (LeavesUp p 2 17 s))
        ∧ (s.portState p = 7 → Completes (.retrain who p v) s (PortEnters p 1 s))
        ∧ (s.attempting p = true → Completes (.retrain who p v) s (PortEnters p 2 s)))
      ∧ (getF v PORT_CTRL_HOLD = 1 →
        (s.portState p = 6 → Completes (.hold who p v) s (LeavesUp p 0 1 s))
        ∧ (s.attempting p = true ∨ s.portState p = 7 → Completes (.hold who p v) s (fun t => PortEnters p 0 s t
          ∧ t.portFld p PORT_STATUS_REASON = 1)))
      ∧ (∀ i ∈ [Instr.retrain who p v, .hold who p v], Completes i s (fun t =>
        t.fld (.PORT_CTRL p) PORT_CTRL_HOLD = getF v PORT_CTRL_HOLD
          ∧ t.fld (.PORT_CTRL p) PORT_CTRL_JFP_MAX = getF v PORT_CTRL_JFP_MAX
          ∧ t.fld (.PORT_CTRL p) PORT_CTRL_MIN_WIDTH = getF v PORT_CTRL_MIN_WIDTH
          ∧ t.fld (.PORT_CTRL p) PORT_CTRL_UNCORR_LIMIT = getF v PORT_CTRL_UNCORR_LIMIT)))
    ∧ (∀ (loss : Bool) (alarms : BitVec 32),
      (s.portState p = 6 → Completes (.cableFlagPoll p loss true alarms) s (LeavesUp p 2 6 s))
      ∧ (s.portState p = 6 → Completes (.cableFlagPoll p true false alarms) s (LeavesUp p 2 15 s))
      ∧ (s.portState p ≠ 0 → alarms ≠ 0 → s.host.notices.length < 256 →
        Completes (.cableFlagPoll p false false alarms) s (fun t => t.ports = s.ports
          ∧ t.portState p = s.portState p
          ∧ NoticeHeld 14 0xFF (leBytes 1 p ++ leBytes 4 alarms.toNat) t)))
    ∧ (s.portState p = 6 → ∀ limit, limit = s.fld (.PORT_CTRL p) PORT_CTRL_UNCORR_LIMIT →
      (0 < limit → limit < (s.port p).uncorr → Completes (.errorRateWindow p) s (LeavesUp p 2 16 s))
      ∧ (limit = 0 ∨ (s.port p).uncorr ≤ limit → Completes (.errorRateWindow p) s (fun t =>
        (t.port p).uncorr = 0 ∧ OnlyRegs [] s { t with ports := s.ports })))

/-! ### Flits -/

/-- R430 to R436: a receiver accepts a good data flit in its order, with its packets and frames, whole or in part, and
asks for a replay where one is damaged; a sender numbers and keeps what it sends, ends what was cut off with an
end-error (R354), and sends a control flit, with the next message for the far end, where it has nothing; a replay
sends every kept flit again; and keys change at 2^44 flits by the key agreement of R493 (R494). From which flits
acknowledgement and credit are taken, how keys are exchanged, what a control flit counts and carries, and its
messages, are the model's choices (log entries 137, 140, 196, 235). -/
def Obligations.FlitsAreCarriedInOrder : Prop :=
  ∀ (s : State) (p : Nat), p < 36 → s.portState p = 6 →
    (∀ f : Flit,
      (f.fecOk = false ∨ f.crcOk = false → f.kind = 0 → Completes (.flitReceive p f) s (fun t =>
        (t.port p).nak = true ∧ (t.port p).rxSeq = (s.port p).rxSeq ∧ t.sw = s.sw
          ∧ (f.fecOk = false → t.fld (.PORT_ERR p) PORT_ERR_FEC_UNCORR
                = min 65535 (s.fld (.PORT_ERR p) PORT_ERR_FEC_UNCORR + f.newBad)
              ∧ (t.port p).uncorr = (s.port p).uncorr + f.newBad)
          ∧ t.reg (.PORT_FEC_CORR p) = s.reg (.PORT_FEC_CORR p) + BitVec.ofNat 64 f.corrected))
      ∧ (f.fecOk = true → f.crcOk = true → f.kind = 0 → f.seq = (s.port p).rxSeq + 1 →
        (f.tagOk = true → Completes (.flitReceive p f) s (fun t =>
          (t.port p).rxSeq = f.seq ∧ (t.port p).nak = false ∧ (t.port p).rxCount = (s.port p).rxCount + 1
            ∧ ((s.port p).rxItem = none → (s.port p).rxLeft = 0 → f.endError = false →
                (f.items.map itemBytes).sum = f.fill.toNat →
                Tab.get [] t.sw.arrived p = Tab.get [] s.sw.arrived p ++ f.items.filterMap Sum.getLeft?
                  ∧ t.sw.framesAt (100 + p) = s.sw.framesAt (100 + p) ++ f.items.filterMap Sum.getRight?
                  ∧ (t.port p).rxItem = none ∧ t.sw.truncated = s.sw.truncated)
            ∧ (∀ x, (s.port p).rxItem = none → (s.port p).rxLeft = 0 → f.endError = false → f.items = [x] →
                256 ≤ f.fill.toNat → f.fill.toNat < itemBytes x →
                (t.port p).rxItem = some x ∧ (t.port p).rxLeft = itemBytes x - f.fill.toNat
                  ∧ Tab.get [] t.sw.arrived p = Tab.get [] s.sw.arrived p ++ (Sum.getLeft? x).toList
                  ∧ t.sw.framesAt (100 + p) = s.sw.framesAt (100 + p) ++ (Sum.getRight? x).toList)
            ∧ (∀ x, (s.port p).rxItem = some x → f.items = [] → 256 ≤ itemBytes x - (s.port p).rxLeft →
                f.fill.toNat ≤ (s.port p).rxLeft → 0 < (s.port p).rxLeft →
                (f.endError = false → (t.port p).rxLeft = (s.port p).rxLeft - f.fill.toNat
                  ∧ (t.port p).rxItem = (if f.fill.toNat < (s.port p).rxLeft then some x else none) ∧ t.sw = s.sw)
                ∧ (f.endError = true → f.fill.toNat < (s.port p).rxLeft →
                  (t.port p).rxItem = none ∧ t.sw.truncated = s.sw.truncated + 1))
            ∧ (t.port p).farNak = f.nak ∧ (f.creditClass.toNat < 9 → Tab.get 0 (t.port p).credit f.creditClass.toNat
                = Tab.get 0 (s.port p).credit f.creditClass.toNat + f.credits.toNat)
            ∧ (∀ pre x post, (s.port p).replay = pre ++ x :: post → x.seq = f.ack →
              (∀ y ∈ pre, y.seq ≠ f.ack) → (t.port p).replay = post)))
        ∧ (f.tagOk = false → PortIdle p s → Completes (.flitReceive p f) s (fun t => LeavesUp p 2 14 s t
          ∧ t.fld (.PORT_ERR p) PORT_ERR_TAG_FAIL = min 255 (s.fld (.PORT_ERR p) PORT_ERR_TAG_FAIL + 1)
          ∧ ((s.port p).rxItem = none → Tab.get [] t.sw.arrived p = Tab.get [] s.sw.arrived p))))
      ∧ (f.fecOk = true → f.crcOk = true → f.kind = 0 → f.seq ≠ (s.port p).rxSeq + 1 →
        Completes (.flitReceive p f) s (fun t => OnlyRegs [.PORT_FEC_CORR p] s t))
      ∧ (f.fecOk = true → f.crcOk = true → f.kind = 1 → Completes (.flitReceive p f) s (fun t =>
        (t.port p).farNak = f.nak ∧ (t.port p).rxSeq = (s.port p).rxSeq ∧ t.sw = s.sw
          ∧ (t.port p).rxCount = (s.port p).rxCount + 1
          ∧ (f.msg = none → (t.port p).keyWork = (s.port p).keyWork ∧ (t.port p).msgs = (s.port p).msgs)
          ∧ (∀ m, f.msg = some m → (s.port p).keyWork = none → ∃ i sig, (t.port p).keyWork = some i
            ∧ (t.port p).farShare = some m ∧ (t.port p).msgs = (s.port p).msgs
              ++ [.share Config.certificates (Config.ephemeralPublic i), .signed sig])))
      ∧ (f.fecOk = true → f.crcOk = true → 2 ≤ f.kind.toNat → Completes (.flitReceive p f) s (fun t =>
        OnlyRegs [.PORT_FEC_CORR p] s t)))
    ∧ (s.replayDue p = false → (s.port p).txItem = none → (s.port p).replay.length < 1024 →
      ∀ q, (∀ r, r < 9 → s.sw.egressQ p r = (if r = 5 then q else [])) →
      (q = [] → s.sw.framesAt p = [] → Completes (.flitSend p) s (fun t =>
        (∃ c n, ∀ load, load = (((s.port p).msgs.head?.map Config.linkMessage).getD []) →
          t.out = .control p (s.port p).rxSeq (s.port p).nak c n (flitWire (s.port p).txKey (s.port p).txCount
            (flitHeader 1 0 (s.port p).rxSeq (s.port p).nak false 0 0x1FF c n) load)
            :: ((s.port p).msgs.head?.map (Output.link p)).toList ++ s.out)
          ∧ (t.port p).msgs = (s.port p).msgs.drop 1
          ∧ (t.port p).txCount = (s.port p).txCount + 1
          ∧ (t.port p).txSeq = (s.port p).txSeq ∧ (t.port p).replay = (s.port p).replay ∧ t.sw = s.sw))
      ∧ (∀ g, q = [] → s.sw.framesAt p = [g] → 8 + g.payload.length ≤ 484 →
        (∀ c, s.spanCells p g.label.toNat = some c →
          Tab.get 0 (s.port p).spanUsed g.label.toNat + frameCells g ≤ c) → s.tailPort (.inr g) = none →
        Completes (.flitSend p) s (fun t =>
        ∃ x : TxFlit, t.out = .flit p x :: s.out ∧ x.seq = (s.port p).txSeq ∧ x.items = [.inr g]
          ∧ x.fill = 8 + g.payload.length ∧ x.ack = (s.port p).rxSeq ∧ x.start = 0 ∧ x.endError = false
          ∧ x.wire = flitWire (s.port p).txKey (s.port p).txCount
              (flitHeader 0 x.seq x.ack x.nak false x.fill 0 x.creditClass x.credits) (frameWire g)
          ∧ (t.port p).replay = (s.port p).replay ++ [x] ∧ (t.port p).txSeq = (s.port p).txSeq + 1
          ∧ (t.port p).txCount = (s.port p).txCount + 1 ∧ t.sw.framesAt p = []))
      ∧ (∀ k n, q = [k] → s.sw.framesAt p = [] → pktQueue k = 5 → n = 24 + 64 * ((k.payload.length + 63) / 64) →
        n ≤ 484 → pktCells k ≤ Tab.get 0 (s.port p).credit 5 → s.tailPort (.inl k) = none → k.op ≠ 3 →
        Completes (.flitSend p) s (fun t =>
        ∃ x : TxFlit, t.out = .flit p x :: s.out ∧ x.seq = (s.port p).txSeq ∧ x.items = [.inl (s.forwarded k)]
          ∧ x.fill = n ∧ x.start = 0 ∧ x.endError = false
          ∧ x.wire = flitWire (s.port p).txKey (s.port p).txCount
              (flitHeader 0 x.seq x.ack x.nak false n 0 x.creditClass x.credits) (packetWire (s.forwarded k))
          ∧ (t.port p).replay = (s.port p).replay ++ [x]
          ∧ (t.port p).txSeq = (s.port p).txSeq + 1 ∧ t.sw.egressQ p 5 = []
          ∧ Tab.get 0 (t.port p).credit 5 = Tab.get 0 (s.port p).credit 5 - pktCells k)))
    ∧ (s.replayDue p = true →
      ((∀ x ∈ (s.port p).replay, x.sends < 8) → ∀ l : List TxFlit,
        l = (s.port p).replay.map (fun x => { x with sends := x.sends + 1 }) →
        Completes (.replay p) s (fun t => (t.port p).replay = l ∧ (t.port p).farNak = false
          ∧ (t.port p).ackAt = s.now ∧ t.out = (l.map (fun x => Output.flit p x)).reverse ++ s.out
          ∧ t.fld (.PORT_ERR p) PORT_ERR_REPLAYS = min 65535 (s.fld (.PORT_ERR p) PORT_ERR_REPLAYS + 1)
          ∧ t.sw = s.sw ∧ RegsOutside [.PORT_ERR p] s t))
      ∧ (∀ x ∈ (s.port p).replay, 8 ≤ x.sends → PortIdle p s → Completes (.replay p) s (LeavesUp p 2 13 s)))
    ∧ (s.replayDue p = false → (s.port p).replay.length < 1024 → (s.port p).txCut = true →
      (∃ x, (s.port p).txItem = some x) → Completes (.flitSend p) s (fun t =>
        (∃ x : TxFlit, t.out = .flit p x :: s.out ∧ x.endError = true ∧ x.fill = 0 ∧ x.items = []
          ∧ x.seq = (s.port p).txSeq)
          ∧ (t.port p).txItem = none ∧ (t.port p).txCut = false ∧ t.sw = s.sw))
    ∧ (∀ due : Bool, due = (decide (2 ^ 44 ≤ (s.port p).txCount) || decide (2 ^ 44 ≤ (s.port p).rxCount)) →
      (due = false → NoEffect (.keyChange p) s)
      ∧ (due = true → (s.port p).keyWork = none → Completes (.keyChange p) s (fun t =>
        (∃ i, (t.port p).keyWork = some i ∧ (t.port p).msgs = (s.port p).msgs
            ++ [.share Config.certificates (Config.ephemeralPublic i)])
          ∧ (t.port p).txKey = (s.port p).txKey ∧ (t.port p).rxKey = (s.port p).rxKey
          ∧ t.regs = s.regs ∧ t.sw = s.sw))
      ∧ (∀ i, due = true → (s.port p).keyWork = some i → (s.port p).farShare = none → NoEffect (.keyChange p) s)
      ∧ (∀ i m keys, due = true → (s.port p).keyWork = some i → (s.port p).farShare = some m →
        keys = s.agreed p i (s.farEnd p).1 (s.farEnd p).2 m.key →
        (m.authOk = true → Completes (.keyChange p) s (fun t =>
          (if 2 ^ 44 ≤ (s.port p).txCount then (t.port p).txCount = 0 ∧ (t.port p).txKey = keys.1
            else (t.port p).txCount = (s.port p).txCount ∧ (t.port p).txKey = (s.port p).txKey)
          ∧ (if 2 ^ 44 ≤ (s.port p).rxCount then (t.port p).rxCount = 0 ∧ (t.port p).rxKey = keys.2
            else (t.port p).rxCount = (s.port p).rxCount ∧ (t.port p).rxKey = (s.port p).rxKey)
          ∧ (t.port p).keyWork = none ∧ (t.port p).farShare = none ∧ t.regs = s.regs ∧ t.sw = s.sw))
        ∧ (m.authOk = false → PortIdle p s → Completes (.keyChange p) s (LeavesUp p 2 11 s))))
    ∧ (PortIdle p s → 2 ^ 45 ≤ (s.port p).txCount ∨ 2 ^ 45 ≤ (s.port p).rxCount →
      Completes (.keyChangeTimeout p) s (LeavesUp p 2 11 s))

/-! ### The rack beat -/

/-- R28, R30, R31, R42, R44, R46: an edge counts one beat; a delivered number is loaded at a marker beat; the beat
locks where the conditions hold; a gap or a bad window sets LOST from the last good edge; and edges that return to the
estimate end it. That the comparison takes 1,025 edges, and at which rate the estimate runs on, are the model's
choices (log entries 120 and 210). -/
def Obligations.BeatFollowsItsInput : Prop :=
  ∀ s : State,
    (s.boot.powered = true → ∀ dt high,
      (s.lost = false → isMarker high = false ∨ s.beat.delivered = none → Completes (.beatEdge dt high) s (fun t =>
        t.now = s.now + dt ∧ t.beat.count = s.beat.count + 1 ∧ t.beat.total = s.beat.total + 1
          ∧ t.beat.lastEdge = s.now + dt ∧ t.lost = false
          ∧ t.beat.loaded = s.beat.loaded ∧ t.beat.delivered = s.beat.delivered))
      ∧ (∀ hi m, s.lost = false → 650 ≤ high → high ≤ 850 → s.beat.delivered = some (hi, m) →
        Completes (.beatEdge dt high) s (fun t => t.beat.count.toNat = 2 ^ 20 * hi.toNat ∧ t.beat.loaded = true
          ∧ t.beat.delivered = none ∧ t.fld .BEAT_STATUS BEAT_STATUS_MARGIN = m.toNat
          ∧ t.fld .BEAT_STATUS BEAT_STATUS_LEAD = 19 + m.toNat))
      ∧ (s.lost = true → s.bit .BEAT_STATUS BEAT_STATUS_RELOCK = false →
        isMarker high = false ∨ s.beat.delivered = none → Completes (.beatEdge dt high) s (fun t =>
          t.beat.cmpEdges = s.beat.cmpEdges + 1 ∧ t.beat.count = s.beat.count ∧ t.lost = true))
      ∧ (s.lost = false → s.beat.lastEdge + 4 * 75200 ≤ s.now + dt → Completes (.beatGapTimeout dt) s (fun t =>
        t.lost = true ∧ t.bit .BEAT_STATUS BEAT_STATUS_LOST_SEEN = true ∧ t.isLocked = false
          ∧ t.beat.goodAt = s.beat.lastEdge ∧ t.beat.goodCount = s.beat.count ∧ t.now = s.now + dt
          ∧ t.bit .HOSTIF_NOTIFY HOSTIF_NOTIFY_BEAT = true
          ∧ (s.host.notices.length < 256 → ∃ fields, NoticeHeld 8 0xFF fields t)))
      ∧ (s.isLocked = false → s.lockHolds = true → Completes .lockedSet s (fun t => t.isLocked = true
        ∧ (s.inStep 8 = true → t.stepNo = 9 ∧ t.startCause = 0) ∧ t.beat = s.beat)))
    ∧ (∀ dest : BitVec 7, s.i3cRefuses dest = false → ∀ (n : BitVec 32) (m : Byte),
      (n.toNat < 2 ^ 28 → Completes (.beatSet ⟨dest, leBytes 4 n.toNat ++ [m]⟩ false) s (fun t => I3cAnswered 0x34 0 t
        ∧ t.beat.delivered = some (n.extractLsb' 0 28, m) ∧ t.beat.count = s.beat.count ∧ t.regs = s.regs))
      ∧ (2 ^ 28 ≤ n.toNat → Completes (.beatSet ⟨dest, leBytes 4 n.toNat ++ [m]⟩ false) s (fun t => I3cAnswered 0x34 3 t
        ∧ t.beat = s.beat ∧ t.regs = s.regs)))
    ∧ (1024 ≤ s.beat.winEdges → s.lost = false →
      (nearBeats (s.beat.lastEdge - s.beat.winStart) s.beat.winEdges 200 = true →
        Completes .beatFreqWindow s (fun t => t.beat.winStart = s.beat.lastEdge ∧ t.beat.winEdges = 0
          ∧ t.beat.span = (s.beat.lastEdge - s.beat.winStart) * 1024 / s.beat.winEdges ∧ t.beat.count = s.beat.count ∧ OnlyRegs [] s { t with beat := s.beat }))
      ∧ (nearBeats (s.beat.lastEdge - s.beat.winStart) s.beat.winEdges 200 = false →
        Completes .beatFreqWindow s (fun t => t.lost = true ∧ t.bit .BEAT_STATUS BEAT_STATUS_LOST_SEEN = true
          ∧ t.beat.goodAt = s.beat.winStart
          ∧ t.beat.goodCount = s.beat.count - BitVec.ofNat 48 s.beat.winEdges)))
    ∧ (∀ dt, s.lost = true → s.beat.lostLong = false → s.beat.goodAt + 100 * 75200000 ≤ s.now + dt →
      Completes (.lostLimitExpire dt) s (fun t => t.beat.lostLong = true ∧ t.lost = true ∧ t.now = s.now + dt))
    ∧ (s.lost = true → s.bit .BEAT_STATUS BEAT_STATUS_RELOCK = false → 1024 < s.beat.cmpEdges →
      (s.beat.cmpErr ≤ 64 → s.beat.steady = true → Completes .beatReturnCompare s (fun t => t.lost = false
        ∧ t.beat.count = s.beat.cmpCount ∧ t.beat.lostLong = false))
      ∧ (64 < s.beat.cmpErr ∨ s.beat.steady = false → Completes .beatReturnCompare s (fun t => t.lost = true
        ∧ t.bit .BEAT_STATUS BEAT_STATUS_RELOCK = true ∧ t.beat = s.beat ∧ RegsOutside [.BEAT_STATUS] s t)))

/-- R33 to R36: a link's check is sent every 1,024 beats; a check that comes makes the link take part and says whether
it agrees; MISMATCH is set where more than half of the in-rack links disagree; POD_SKEW stands while a viaduct link
disagrees; and a link without a check for 2,048 beats no longer takes part. The layout of a check, the beats that pass
between two, and when MISMATCH clears after a load, are the model's choices (log entries 184, 125, 123). -/
def Obligations.LinksCheckTheBeat : Prop :=
  ∀ (s : State) (p : Nat), p < 36 →
    (s.checks p = true → s.beat.loaded = true →
      ((s.link p).sentAt = 0 ∨ (s.link p).sentAt - 1 + 1024 ≤ s.beatsPassed →
        Completes (.beatCheckSend p) s (fun t => t.out = .beatCheck p s.beatNow (s.position % 256) :: s.out
          ∧ (t.link p).sentAt = s.beatsPassed + 1 ∧ (t.link p).part = (s.link p).part
          ∧ (∃ k : Packet, t.sw.egressQ p (pktQueue k) = s.sw.egressQ p (pktQueue k) ++ [k] ∧ k.op = 0x20 ∧ k.cls = 2
            ∧ k.payload = leBytes 8 s.beatNow.toNat ++ leBytes 8 (s.position % 256))
          ∧ (∀ q, q ≠ p → t.link q = s.link q) ∧ t.regs = s.regs))
      ∧ (∀ farBeat farPhase d, farPhase < 256 →
        d = toSigned 56 (farBeat.toNat * 256 + farPhase + 2 ^ 57
          - (s.position + 2 ^ 56 - (s.port p).latency * 256 / 75200)) →
        Completes (.beatCheck p farBeat farPhase) s (fun t =>
          (t.link p).part = true ∧ (t.link p).d = d ∧ (t.link p).heardAt = s.beatsPassed
            ∧ (t.link p).agrees = decide (d.natAbs ≤ if isViaduct s.variant p then 128 else 64)
            ∧ (∀ q, q ≠ p → t.link q = s.link q) ∧ t.beat.count = s.beat.count
            ∧ ((t.partPorts.filter (inRack s.variant)).length < 2 * (t.disagreeing (inRack s.variant)).length →
              t.mismatch = true ∧ (s.mismatch = false → t.bit .BEAT_STATUS BEAT_STATUS_MISMATCH_SEEN = true
                ∧ t.bit .HOSTIF_NOTIFY HOSTIF_NOTIFY_BEAT = true))
            ∧ (2 * (t.disagreeing (inRack s.variant)).length ≤ (t.partPorts.filter (inRack s.variant)).length →
              t.mismatch = (s.mismatch && !s.beat.reloaded))
            ∧ t.bit .BEAT_STATUS BEAT_STATUS_POD_SKEW = !(t.disagreeing (isViaduct s.variant)).isEmpty)))
    ∧ ((s.link p).part = true → (s.link p).heardAt + 2048 ≤ s.beatsPassed →
      Completes (.beatCheckLapse p) s (fun t => (t.link p).part = false
        ∧ (∀ q, q ≠ p → t.link q = s.link q) ∧ t.beat.count = s.beat.count))

/-! ### Tenants, measurements and debug -/

/-- R496 to R499, R505, R506, R513: a BIND that passes binds its stacks, keys them, shows them the throttle state of
the module and writes a report, and one that fails says why; a RELEASE of a quiet stack takes its keys and starts the
zero scrub, and BUSY stays set; the end of the scrub frees the stack and, with the tenant's last, the tenant, and ends
the command; and CERTS writes the count of the certificates and each of them after its length, leaf first. Which
commands end in their step, the one command that takes a release from step 2 to 6, the report count with the report in
it, and the one throttle history of the module, are the model's choices (log entries 141, 142, 147, 148). -/
def Obligations.KeeperBindsAndReleases : Prop :=
  ∀ s : State,
    (s.permit .bar0 .SEC_CMD = .ok → s.bit .SEC_CMD SEC_CMD_BUSY = false → ∀ (v : Word) (a : Nat),
      getF v SEC_CMD_GO = 1 → a = 4096 * getF v SEC_CMD_ADDR →
      (getF v SEC_CMD_CODE = 3 → ∃ t, exec (.certs v) s = .next t ∧ t.fld .SEC_CMD SEC_CMD_RESULT = 0
        ∧ HostWritten a ((leBytes 2 Config.certificates.length
            ++ Config.certificates.flatMap (fun c => leBytes 2 c.length ++ c)).take 4096) s t
        ∧ RegsOutside [.SEC_CMD] s t)
      ∧ (∀ q, getF v SEC_CMD_CODE = 1 → q = bindReq (s.hostRead a 4096) →
        (s.bindResult q ≠ 0 → ∃ t, exec (.bind v) s = .next t ∧ t.fld .SEC_CMD SEC_CMD_RESULT = s.bindResult q
          ∧ OnlyRegs [.SEC_CMD] (unlatched s .bar0 .SEC_CMD) t)
        ∧ (s.bindResult q = 0 → ∃ t, exec (.bind v) s = .next t ∧ t.fld .SEC_CMD SEC_CMD_RESULT = 0
          ∧ t.tenantBound q.tenant = true ∧ t.generation q.tenant = (s.generation q.tenant + 1) % 256
          ∧ t.fld (.SEC_TENANT q.tenant) SEC_TENANT_STACKS
              = s.fld (.SEC_TENANT q.tenant) SEC_TENANT_STACKS ||| q.stackMask.toNat
          ∧ (∀ n, n < 8 → if q.stackMask.getLsbD n = true
            then t.stackState n = 1 ∧ t.tenantOf n = q.tenant ∧ (t.stack n).measCore = zeros 64
              ∧ (t.stack n).measBench = zeros 64 ∧ (t.stack n).measWeights = zeros 64
              ∧ t.bit (.MEM_STATUS n) MEM_STATUS_KEYED_NEAR = true
              ∧ t.fld (.HCORE_SEC_STATE n) HCORE_SEC_STATE_THROTTLE = s.power.hist.toNat
              ∧ t.fld (.HCORE_SEC_STATE n) HCORE_SEC_STATE_WINDOW = s.power.winLast % 65536
              ∧ t.fld (.HCORE_SEC_STATE n) HCORE_SEC_STATE_BAND = s.power.band % 4
            else t.stackState n = s.stackState n ∧ t.tenantOf n = s.tenantOf n ∧ t.stack n = s.stack n)
          ∧ t.keeper.reports = s.keeper.reports + 1
          ∧ (∀ k, k < a + 0x800 ∨ a + 0x800 + 1040 ≤ k → Mem.read t.hostMem k = Mem.read s.hostMem k)))
      ∧ (∀ n tenant stackMask, getF v SEC_CMD_CODE = 2 → n < 8 → (s.hostRead a 2) = [tenant, stackMask] →
        stackMask = 1#8 <<< n → s.bound n = true → s.tenantOf n = tenant.toNat →
        s.jobsOn n = [] → (s.stack n).benches = [] → (∀ d ∈ s.host.descs, d.stack ≠ n) → (s.stack n).groups = [] →
        (s.stack n).spansOut = [] → s.hostedBy n = [] → (s.stack n).tears = [] → (s.stack n).reqs = [] →
        (s.stack n).shoots = [] → ∃ t, exec (.release v) s = .next t ∧ t.bit .SEC_CMD SEC_CMD_BUSY = true
          ∧ t.stackState n = 2
          ∧ (t.stack n).nearKey = [] ∧ (t.stack n).farKey = [] ∧ (t.stack n).releasing = 5
          ∧ t.bit (.MEM_STATUS n) MEM_STATUS_KEYED_NEAR = false
          ∧ t.bit (.MEM_STATUS n) MEM_STATUS_ZERO_BUSY = true
          ∧ (t.stack n).spansIn = [] ∧ (t.stack n).rebuilds = []
          ∧ (∀ k, Mem.read (t.stack n).drawer k = 0 ∧ Mem.read (t.stack n).sram k = 0) ∧ SameStacks n s t))
    ∧ (∀ n, n < 8 → s.stackState n = 2 → s.bit .SEC_CMD SEC_CMD_BUSY = true →
      ((s.stack n).releasing = 2 → s.releaseQuiet n = true → (s.stack n).shoots = [] →
        ∃ t, exec (.releaseDone n) s = .next t ∧ (t.stack n).releasing = 5 ∧ t.bit .SEC_CMD SEC_CMD_BUSY = true
          ∧ t.bit (.MEM_STATUS n) MEM_STATUS_ZERO_BUSY = true ∧ t.stackState n = 2
          ∧ (∀ k, Mem.read (t.stack n).drawer k = 0 ∧ Mem.read (t.stack n).sram k = 0)
          ∧ (t.stack n).spansIn = [] ∧ (t.stack n).rebuilds = []
          ∧ (∀ c, c < 8 → t.fld (.HCORE_CORE n c) HCORE_CORE_STATE = 0) ∧ SameStacks n s t)
      ∧ ((s.stack n).releasing = 5 → s.bit (.MEM_STATUS n) MEM_STATUS_ZERO_BUSY = true → NoEffect (.releaseDone n) s)
      ∧ (∀ tn, (s.stack n).releasing = 5 → s.bit (.MEM_STATUS n) MEM_STATUS_ZERO_BUSY = false → tn = s.tenantOf n →
        s.fld (.SEC_TENANT tn) SEC_TENANT_STACKS = 2 ^ n → s.keeper.releaseMask = 1#8 <<< n →
        ∃ t, exec (.releaseDone n) s = .next t ∧ t.stackState n = 0 ∧ t.tenantOf n = 0 ∧ t.tenantBound tn = false
          ∧ t.generation tn = 0 ∧ (t.tenant tn).peers = [] ∧ (t.tenant tn).ringKey = []
          ∧ t.bit .SEC_CMD SEC_CMD_BUSY = false ∧ t.fld .SEC_CMD SEC_CMD_RESULT = 0
          ∧ (t.stack n).dead = [] ∧ (t.stack n).releasing = 0
          ∧ ∀ r, r < 64 → s.ringOn r = true → s.fld (.HOSTIF_RING_CFG r) HOSTIF_RING_CFG_TENANT = tn →
            t.ringOn r = false))

/-- R508, R509, R513: a weights declaration reads its region and extends the measurement, or ends with the result that
R509 gives; and at the end of a window every bound stack shows the same throttle state. That 0 or too many pages give
result 1, that the offset in the record is that within the node, and the one throttle history of the module, are the
model's choices (log entries 150, 248, 148). -/
def Obligations.WeightsAreMeasured : Prop :=
  ∀ (s : State) (n : Nat), n < 8 →
    (∀ who v, s.permit who (.HCORE_WEIGHTS_CTRL n) = .ok → getF v HCORE_WEIGHTS_CTRL_GO = 1 →
      s.bit (.HCORE_WEIGHTS_CTRL n) HCORE_WEIGHTS_CTRL_BUSY = false →
      Completes (.weightsGo who n v) s (fun t => t.bit (.HCORE_WEIGHTS_CTRL n) HCORE_WEIGHTS_CTRL_BUSY = true
        ∧ (t.stack n).weights = some ⟨4096 * s.fld (.HCORE_WEIGHTS_ADDR n) HCORE_WEIGHTS_ADDR_OFFSET,
            getF v HCORE_WEIGHTS_CTRL_PAGES⟩
        ∧ RegsOutside [.HCORE_WEIGHTS_CTRL n] s t ∧ SameStacks n s t))
    ∧ (∀ w len, (s.stack n).weights = some w → len = 4096 * w.pages →
      (s.tierRegion n w.offset len = none ∨ w.pages = 0 ∨ 2 ^ 24 < w.pages →
        Completes (.weightsDigestDone n) s (fun t => t.fld (.HCORE_WEIGHTS_CTRL n) HCORE_WEIGHTS_CTRL_RESULT = 1
          ∧ t.bit (.HCORE_WEIGHTS_CTRL n) HCORE_WEIGHTS_CTRL_BUSY = false ∧ (t.stack n).weights = none
          ∧ (t.stack n).measWeights = (s.stack n).measWeights))
      ∧ (∀ far o, s.tierRegion n w.offset len = some (far, o) → 0 < w.pages → w.pages ≤ 2 ^ 24 →
        (s.stack n).nearErr = [] → (s.stack n).farErr = [] → (s.stack n).repairing = [] →
        ((s.stack n).anyPoison far (linesOf o len) = true → Completes (.weightsDigestDone n) s (fun t =>
          t.fld (.HCORE_WEIGHTS_CTRL n) HCORE_WEIGHTS_CTRL_RESULT = 2 ∧ (t.stack n).weights = none
            ∧ (t.stack n).measWeights = (s.stack n).measWeights))
        ∧ ((s.stack n).anyPoison far (linesOf o len) = false → Completes (.weightsDigestDone n) s (fun t =>
          t.fld (.HCORE_WEIGHTS_CTRL n) HCORE_WEIGHTS_CTRL_RESULT = 0 ∧ (t.stack n).weights = none
            ∧ (t.stack n).measWeights = extendBy (s.stack n).measWeights (leBytes 8 w.offset ++ leBytes 8 len
                ++ Config.sha512 (plainBytes (s.stack n) far o len))
            ∧ SameTiers s t))))
    ∧ (∀ hottest hist w, hist = s.power.hist <<< 1 ||| (if s.power.throttled then 1 else 0) →
      s.boot.powered = true → w = s.beatNow.toNat / 1024 →
      (w = s.power.winNow → NoEffect (.throttleWindowEnd hottest) s)
      ∧ (w ≠ s.power.winNow → Completes (.throttleWindowEnd hottest) s (fun t => t.power.hist = hist
        ∧ t.power.throttled = s.throttleHolds ∧ t.power.winNow = w
        ∧ (s.bound n = true → t.fld (.HCORE_SEC_STATE n) HCORE_SEC_STATE_THROTTLE = hist.toNat
          ∧ t.fld (.HCORE_SEC_STATE n) HCORE_SEC_STATE_WINDOW = (w + 65535) % 65536
          ∧ t.fld (.HCORE_SEC_STATE n) HCORE_SEC_STATE_BAND
              = (if hottest < 70 then 0 else if hottest < 85 then 1 else if hottest < 95 then 2 else 3))
        ∧ (s.bound n = false → t.reg (.HCORE_SEC_STATE n) = s.reg (.HCORE_SEC_STATE n))
        ∧ t.stackTab = s.stackTab)))

/-- R510, R516, R517, R575, R578: the first of the two openings extends the digest, sets DEBUG_OPEN and marks every
bound tenant; the end of the last extends the digest, clears DEBUG_OPEN and releases every stop; and TRST_N low
selects IDCODE, so that debug is not open through JTAG, and no instruction is taken while it is low. Any other code
opens debug (R516), whichever register it selects (log entry 227). That a second opening and a first closing leave the
digest as it was is the model's choice (log entry 149). -/
def Obligations.DebugOpensAndCloses : Prop :=
  ∀ (s : State) (ir : BitVec 8),
    ∀ ext : Byte → List Byte, ext = (fun e => extendBy s.keeper.digest (leBytes 8 s.beatNow.toNat ++ [e] ++ zeros 7)) →
    (s.debugOpen = false → s.jtagOpen = false →
      (s.permit .bar0 .SEC_DEBUG = .ok → Completes (.debugOpen .sec ir) s (fun t => t.debugOpen = true
        ∧ t.keeper.digest = ext 2 ∧ ∀ i, i < 8 → s.tenantBound i = true → (t.tenant i).debugSeen = true))
      ∧ (s.boot.powered = true → s.boot.trstHigh = true → ir ≠ 0xFF → ir ≠ 0x01 →
        Completes (.debugOpen .tap ir) s (fun t => t.debugOpen = true
          ∧ t.bit .SEC_STATUS SEC_STATUS_DEBUG_JTAG = true ∧ t.keeper.jtagIr = ir
          ∧ t.keeper.digest = ext 1 ∧ ∀ i, i < 8 → s.tenantBound i = true → (t.tenant i).debugSeen = true)))
    ∧ (s.debugOpen = true →
      (s.jtagOpen = false → s.permit .bar0 .SEC_DEBUG = .ok → Completes (.debugClose .sec ir) s (fun t =>
        t.debugOpen = false ∧ t.keeper.digest = ext 3 ∧ ∀ c, (t.ctx c).dbgStop = false))
      ∧ (s.jtagOpen = true → s.permit .bar0 .SEC_DEBUG = .ok → Completes (.debugClose .sec ir) s (fun t =>
        t.debugOpen = true ∧ t.keeper.digest = s.keeper.digest ∧ t.stackTab = s.stackTab))
      ∧ (s.boot.powered = true → s.bit .SEC_DEBUG SEC_DEBUG_OPEN = false →
        (s.boot.trstHigh = true → ir = 0xFF ∨ ir = 0x01 →
          Completes (.debugClose .tap ir) s (fun t => t.debugOpen = false ∧ t.keeper.jtagIr = ir
            ∧ t.keeper.digest = ext 3 ∧ ∀ c, (t.ctx c).dbgStop = false))
        ∧ Completes (.debugClose (.trst false) ir) s (fun t => t.debugOpen = false ∧ t.keeper.jtagIr = 0x01
            ∧ t.boot.trstHigh = false ∧ t.keeper.digest = ext 3 ∧ ∀ c, (t.ctx c).dbgStop = false)))
    ∧ (s.boot.trstHigh = false → ir ≠ 0xFF → ir ≠ 0x01 → NoEffect (.debugOpen .tap ir) s
      ∧ Completes (.debugClose (.trst true) ir) s (fun t => t.boot.trstHigh = true ∧ t.keeper = s.keeper
        ∧ t.regs = s.regs ∧ t.stackTab = s.stackTab))

/-! ### Register, debug and host core accesses -/

/-- R7, R11 to R14, R455, R526, R546, R547, R553: a 64-bit write reaches the RW and W1C bits of its register; a lower
half waits in its latch for the upper; an access of another size or at an unknown offset is counted and does nothing
else; a register of an absent unit reads as zero and takes no write, and neither is counted; writes of one cycle act
as one; the words of the MSI-X table are read and written one by one; and a read puts out what the register reads as.
The words of an MSI-X entry and its pending bit, the writes of one cycle, and which accesses are counted, are the
model's choices (log entries 11, 157, 158). -/
def Obligations.RegisterAccessesAct : Prop :=
  ∀ (s : State) (who : Requester),
    (∀ (r : Reg) (v : Word) (o : Nat), PlainReg r → o = r.offset → s.permit who r = .ok →
      (s.reaches who o = true → Completes (.registerWrite who (.one ⟨true, o, 8, v⟩)) s (RegWritten r v (BitVec.allOnes 64) s)
        ∧ Completes (.registerWrite who (.one ⟨true, o, 4, v⟩)) s (fun t => t.regs = s.regs
          ∧ t.latch? who o = some (v.extractLsb' 0 32)))
      ∧ (s.reaches who (o + 4) = true →
        (∀ lo, s.latch? who o = some lo → Completes (.registerWrite who (.one ⟨true, o + 4, 4, v⟩)) s (fun t =>
          RegWritten r (v.extractLsb' 0 32 ++ lo) (BitVec.allOnes 64) s t ∧ t.latch? who o = none))
        ∧ (s.latch? who o = none → Completes (.registerWrite who (.one ⟨true, o + 4, 4, v⟩)) s
          (RegWritten r (v.extractLsb' 0 32 ++ 0#32) 0xFFFFFFFF00000000 s))))
    ∧ (∀ a : BarAccess, s.reaches who a.offset = true → a.write = true ∨ who = .bar0 →
      accessOk a.offset a.bytes = false ∨ regAt (a.offset - a.offset % 8) = none ∧ inMsix a.offset = false →
      Completes (.registerWrite who (.one a)) s (fun t =>
        t.regs = (s.quiet (rowOfOffset a.offset) 0).regs ∧ t.stackTab = s.stackTab ∧ t.sw = s.sw))
    ∧ (∀ r v, PlainReg r → s.boot.bar0 = true → s.ready = false →
      Completes (.registerWrite .bar0 (.one ⟨true, r.offset, 8, v⟩)) s (fun t =>
        t.regs = (s.quiet (rowOfOffset r.offset) 0).regs ∧ t.stackTab = s.stackTab))
    ∧ (∀ n v, n < 8 →
      (∀ r : Reg, r = .ABT_METER n → s.permit who r = .ok → s.reaches who r.offset = true →
        Completes (.registerWrite who (.one ⟨true, r.offset, 8, v⟩)) s (fun t => RegBits r v (BitVec.allOnes 64) s t
          ∧ ((t.stack n).tc, (t.stack n).te) = s.meter n ∧ (t.stack n).meterAt = s.now ∧ SameStacks n s t))
      ∧ (∀ r : Reg, r = .MEM_CFG n → (s.stack n).rowReads = [] → s.permit who r = .ok → s.reaches who r.offset = true →
        Completes (.registerWrite who (.one ⟨true, r.offset, 8, v⟩)) s (RegWritten r v (BitVec.allOnes 64) s)))
    ∧ (∀ r, PlainReg r → s.boot.bar0 = true → s.readable r.offset = true →
      Completes (.registerWrite .bar0 (.one ⟨false, r.offset, 8, 0⟩)) s (fun t => t = s.emit (.readData (s.readReg .bar0 r))))
    ∧ (∀ (r : Reg) (v : Word), PlainReg r → s.boot.bar0 = true → s.ready = true → s.unitAnswers r.offset = false →
      Completes (.registerWrite .bar0 (.one ⟨true, r.offset, 8, v⟩)) s (fun t => t = unlatched s .bar0 r)
      ∧ Completes (.registerWrite .bar0 (.one ⟨false, r.offset, 8, v⟩)) s (fun t => t = s.emit (.readData 0)))
    ∧ (∀ (n c : Nat) (v w : Word), s.boot.bar0 = true →
      (∀ r : Reg, PlainReg r → s.permit (.core n c) r = .ok → s.permit .bar0 r = .ok →
        Completes (.registerWrite (.core n c) (.together ⟨true, r.offset, 8, v⟩ [(.bar0, ⟨true, r.offset, 8, w⟩)])) s
          (RegWritten r ((v &&& ~~~r.access.rw) ||| w) (BitVec.allOnes 64) s))
      ∧ (∀ (x : CtxId) (r : Reg), x.wf = true → r = .BCH_CTX_CTRL x.stack x.bench x.ctx → s.latches = [] →
        s.permit (.core n c) r = .ok → s.permit .bar0 r = .ok →
        exec (.registerWrite (.core n c) (.together ⟨true, r.offset, 8, v⟩ [(.bar0, ⟨true, r.offset, 8, w⟩)])) s
          = exec (.registerWrite (.core n c) (.one ⟨true, r.offset, 8, v ||| w⟩)) s))
    ∧ (∀ (i j o : Nat) (v : Word), i < 64 → j < 4 → o = 0x108000 + 16 * i + 4 * j → s.boot.bar0 = true → s.ready = true →
      Completes (.registerWrite .bar0 (.one ⟨false, o, 4, 0⟩)) s (fun t =>
        t = s.emit (.readData ((s.msixWord (4 * i + j)).setWidth 64)))
      ∧ Completes (.registerWrite .bar0 (.one ⟨true, o, 4, v⟩)) s (fun t =>
        t.msixWord (4 * i + j) = (v.setWidth 32) &&& (if j = 0 then 0xFFFFFFFC else if j = 3 then 1 else 0xFFFFFFFF)
        ∧ (∀ k, k ≠ 4 * i + j → t.msixWord k = s.msixWord k) ∧ t.regs = s.regs
        ∧ (if j = 3 ∧ v.getLsbD 0 = false ∧ s.host.msixPending.getLsbD i = true
          then t.out = .msix i :: s.out ∧ t.host.msixPending = s.host.msixPending &&& ~~~(1#64 <<< i)
          else t.out = s.out ∧ t.host.msixPending = s.host.msixPending)))

/-- R516, R517, R554 to R557, R575: with debug open, a write of GO makes one access: to a register, to eight bytes of
a tier in the stream of its line, where it waits in BUSY behind what holds the line, or to the stop of a context; ERR
is set where its unit is absent; a GO while BUSY is counted and makes none; the JTAG chain puts out what it holds and
writes DATA and the controls, before READY as after it; and the other instructions of the TAP put out the identity,
the boundary cells and the bypass bit. What the identity word and the boundary cells are, what a GO stores while BUSY,
and that JTAG_UPDATE_DR puts out what Capture-DR took, are the model's choices (log entries 227, 160, 163). -/
def Obligations.DebugAccessesAct : Prop :=
  ∀ (s : State) (ctl : Word) (n a : Nat), n = getF ctl SEC_DEBUG_ACCESS_CTL_STACK →
    a = getF ctl SEC_DEBUG_ACCESS_CTL_ADDR →
    (s.boot.bar0 = true → s.ready = true → s.debugOpen = true →
      s.bit .SEC_DEBUG_ACCESS_CTL SEC_DEBUG_ACCESS_CTL_BUSY = false → getF ctl SEC_DEBUG_ACCESS_CTL_GO = 1 →
      (∀ r, getF ctl SEC_DEBUG_ACCESS_CTL_SPACE = 0 → PlainReg r → a = r.offset → s.unitAnswers a = true →
        (getF ctl SEC_DEBUG_ACCESS_CTL_WRITE = 1 → Completes (.debugRegisterAccess ctl) s (fun t =>
          t.bit .SEC_DEBUG_ACCESS_CTL SEC_DEBUG_ACCESS_CTL_ERR = false
            ∧ t.reg r = mergeWrite (s.reg r) (s.reg .SEC_DEBUG_ACCESS_DATA) (BitVec.allOnes 64) r.access
            ∧ RegsOutside [r, .SEC_DEBUG_ACCESS_CTL] s t))
        ∧ (getF ctl SEC_DEBUG_ACCESS_CTL_WRITE = 0 → Completes (.debugRegisterAccess ctl) s (fun t =>
          t.bit .SEC_DEBUG_ACCESS_CTL SEC_DEBUG_ACCESS_CTL_ERR = false
            ∧ t.reg .SEC_DEBUG_ACCESS_DATA = s.readReg .debug r
            ∧ RegsOutside [.SEC_DEBUG_ACCESS_CTL, .SEC_DEBUG_ACCESS_DATA] s t)))
      ∧ (∀ r, getF ctl SEC_DEBUG_ACCESS_CTL_SPACE = 0 → getF ctl SEC_DEBUG_ACCESS_CTL_WRITE = 1 → a = r.offset →
        PlainReg r ∧ s.unitAnswers a = false
          ∨ (∃ m, m < 8 ∧ (r = .ABT_CWIN_CFG m ∨ r = .ABT_CWIN_STATUS m)) ∧ s.cwdPresent = false →
        Completes (.debugRegisterAccess ctl) s (fun t => t.bit .SEC_DEBUG_ACCESS_CTL SEC_DEBUG_ACCESS_CTL_ERR = true
          ∧ RegsOutside [.SEC_DEBUG_ACCESS_CTL] s t ∧ t.stackTab = s.stackTab))
      ∧ (∀ far, getF ctl SEC_DEBUG_ACCESS_CTL_SPACE = 1 → far = (getF ctl SEC_DEBUG_ACCESS_CTL_TIER == 1) →
        s.stackUp n = true → a % 8 = 0 → a + 8 ≤ s.tierSize n far → (s.stack n).nearErr = [] →
        (s.stack n).farErr = [] → (s.stack n).repairing = [] → (s.stack n).anyPoison far (linesOf a 8) = false →
        (s.stack n).lineHolds = [] →
        (∀ line ∈ linesOf ((if far = true then 0x010000000000 else 0) + a) 8, s.lineWaiters n line = []) →
        (getF ctl SEC_DEBUG_ACCESS_CTL_WRITE = 1 → Completes (.debugTierAccess ctl) s (fun t =>
          t.bit .SEC_DEBUG_ACCESS_CTL SEC_DEBUG_ACCESS_CTL_ERR = false
            ∧ TierWritten n far a (leBytes 8 (s.reg .SEC_DEBUG_ACCESS_DATA).toNat) s t))
        ∧ (getF ctl SEC_DEBUG_ACCESS_CTL_WRITE = 0 → Completes (.debugTierAccess ctl) s (fun t =>
          t.bit .SEC_DEBUG_ACCESS_CTL SEC_DEBUG_ACCESS_CTL_ERR = false ∧ SameTiers s t
            ∧ t.reg .SEC_DEBUG_ACCESS_DATA = leWord (plainBytes (s.stack n) far a 8))))
      ∧ (∀ far line h x, getF ctl SEC_DEBUG_ACCESS_CTL_SPACE = 1 → far = (getF ctl SEC_DEBUG_ACCESS_CTL_TIER == 1) →
        s.stackUp n = true → a % 8 = 0 → a + 8 ≤ s.tierSize n far →
        line = ((if far = true then 0x010000000000 else 0) + a) / 128 → s.lineHolder n line = some h →
        s.keeper.debugHeld = none →
        x = ⟨getF ctl SEC_DEBUG_ACCESS_CTL_WRITE == 1, n, far, a, s.reg .SEC_DEBUG_ACCESS_DATA⟩ →
        (s.stack n).turns (debugPacket (s.node n) x) = 0 →
        Completes (.debugTierAccess ctl) s (fun t => t.bit .SEC_DEBUG_ACCESS_CTL SEC_DEBUG_ACCESS_CTL_BUSY = true
          ∧ t.keeper.debugHeld = some x ∧ SameTiers s t ∧ RegsOutside [.SEC_DEBUG_ACCESS_CTL] s t))
      ∧ (∀ c : CtxId, getF ctl SEC_DEBUG_ACCESS_CTL_SPACE = 2 → c.wf = true → c.stack = n → c.bench + 65536 * c.ctx = a →
        s.stackUp n = true → s.vacant n c.bench = false →
        (getF ctl SEC_DEBUG_ACCESS_CTL_WRITE = 1 →
          (s.reg .SEC_DEBUG_ACCESS_DATA = 1 → Completes (.debugContextStop ctl) s (fun t =>
            (t.ctx c).dbgStop = true ∧ (t.ctx c).st = (s.ctx c).st ∧ (t.ctx c).pc = (s.ctx c).pc
              ∧ SameCtxs c s t ∧ RegsOutside [.SEC_DEBUG_ACCESS_CTL] s t))
          ∧ (s.reg .SEC_DEBUG_ACCESS_DATA = 2 → Completes (.debugContextRelease ctl) s (fun t =>
            (t.ctx c).dbgStop = false ∧ (t.ctx c).st = (s.ctx c).st ∧ (t.ctx c).pc = (s.ctx c).pc
              ∧ SameCtxs c s t ∧ RegsOutside [.SEC_DEBUG_ACCESS_CTL] s t)))
        ∧ (getF ctl SEC_DEBUG_ACCESS_CTL_WRITE = 0 → Completes (.debugContextRead ctl) s (fun t =>
          t.reg .SEC_DEBUG_ACCESS_DATA = (if (s.ctx c).dbgStop then 1 else 0) ∧ t.stackTab = s.stackTab))))
    ∧ (s.boot.bar0 = true → s.ready = true → s.debugOpen = true →
      s.bit .SEC_DEBUG_ACCESS_CTL SEC_DEBUG_ACCESS_CTL_BUSY = true → getF ctl SEC_DEBUG_ACCESS_CTL_GO = 1 →
      getF ctl SEC_DEBUG_ACCESS_CTL_SPACE = 1 → Completes (.debugTierAccess ctl) s (fun t =>
        t.keeper = s.keeper ∧ t.stackTab = s.stackTab
        ∧ t.reg .SEC_DEBUG_ACCESS_DATA = s.reg .SEC_DEBUG_ACCESS_DATA
        ∧ t.fld (.SWC_QUIET 8 0) SWC_QUIET_COUNT = (s.quiet 8 0).fld (.SWC_QUIET 8 0) SWC_QUIET_COUNT))
    ∧ (∀ data, s.boot.powered = true →
      (s.boot.trstHigh = true →
        (s.keeper.jtagIr = 0x10 → s.debugOpen = true → getF ctl SEC_DEBUG_ACCESS_CTL_GO = 0 →
          Completes (.jtagUpdateDr ctl data) s (fun t => t.reg .SEC_DEBUG_ACCESS_DATA = data
            ∧ t.reg .SEC_DEBUG_ACCESS_CTL
                = mergeWrite (s.reg .SEC_DEBUG_ACCESS_CTL) ctl (BitVec.allOnes 64) (Reg.access .SEC_DEBUG_ACCESS_CTL)
            ∧ .jtag (s.readReg .debug .SEC_DEBUG_ACCESS_CTL) (s.readReg .debug .SEC_DEBUG_ACCESS_DATA) ∈ t.out
            ∧ t.stackTab = s.stackTab))
        ∧ (s.keeper.jtagIr = 0x01 → Completes (.jtagUpdateDr ctl data) s (fun t => t = s.emit (.idcode Config.idcode)))
        ∧ (s.keeper.jtagIr = 0x00 ∨ s.keeper.jtagIr = 0x02 → Completes (.jtagUpdateDr ctl data) s (fun t =>
          (∃ scl sda, t.out = .boundary s.boot.epoHigh s.boot.shedHigh (!s.alertPin) s.boot.tray s.boot.slot scl sda :: s.out
              ∧ (s.sdaLow = true → sda = false))
            ∧ t.keeper.boundary = (ctl, data) ∧ t.regs = s.regs ∧ t.stackTab = s.stackTab))
        ∧ (s.keeper.jtagIr = 0xFF → Completes (.jtagUpdateDr ctl data) s (fun t => t = s.emit .bypass)))
      ∧ (s.boot.trstHigh = false → NoEffect (.jtagUpdateDr ctl data) s))

/-- R165, R171, R172, R292, R589: a host core's access to runtime SRAM, to its stack's registers, to BEAT_NOW or, on
lines that nothing waits for, to a tier has the effect of Table 06-1; one to nothing, and a store to BEAT_NOW, is
counted in the stack's CORE counter, and a load of nothing returns zero. The codes of a core's atomics and what an AMO
does are the model's choices (log entries 166 and 167). -/
def Obligations.CoreAccessesAct : Prop :=
  ∀ (s : State) (n c a bytes : Nat) (v cmp : Word), n < 8 → c < 8 → s.coreActive n c = true → 0 < bytes → bytes ≤ 8 →
    (∀ sub old, a + bytes ≤ 0x800000 → old = Mem.readBytes (s.stack n).sram a bytes →
      Completes (.coreAccess n c .load a bytes v cmp) s (fun t => t = s.emit (.coreData (coreWord old)))
      ∧ Completes (.coreAccess n c .store a bytes v cmp) s (fun t => SameStacks n s t ∧ t.regs = s.regs
        ∧ { t.stack n with sram := (s.stack n).sram } = s.stack n
        ∧ ∀ k, Mem.read (t.stack n).sram k = if a ≤ k ∧ k < a + bytes
            then nth 0 (leBytes bytes v.toNat) (k - a) else Mem.read (s.stack n).sram k)
      ∧ Completes (.coreAccess n c (.amo sub) a bytes v cmp) s (fun t =>
        t.out = .coreData (coreWord old) :: s.out ∧ ∀ k, Mem.read (t.stack n).sram k = if a ≤ k ∧ k < a + bytes
            then nth 0 (leBytes bytes (amoNew sub (8 * bytes) (leNat old) (v.toNat % 2 ^ (8 * bytes))
              (cmp.toNat % 2 ^ (8 * bytes)))) (k - a) else Mem.read (s.stack n).sram k))
    ∧ (∀ o, a = 0x10000000 + o → o + bytes ≤ 0x400000 → ∀ op, op ∈ [(CoreOp.load, false), (.store, true)] →
      Completes (.coreAccess n c op.1 a bytes v cmp) s (fun t =>
        t = s.barAccess (.core n c) ⟨op.2, 0x1000000 + 0x400000 * n + o, bytes, if op.2 then v else 0⟩))
    ∧ (a = 0x20000000 → Completes (.coreAccess n c .load a bytes v cmp) s (fun t =>
        t = s.emit (.coreData (coreWord ((leBytes 8 s.beatNow.toNat).take bytes))))
      ∧ Completes (.coreAccess n c .store a bytes v cmp) s (fun t => t = s.quiet n 6))
    ∧ (∀ off far o, a = 0x0010000000000000 + off → off + bytes ≤ 0x030100000000 →
      s.whereIs n off bytes = (if far then .far o else .near o) → (s.stack n).repairing = [] →
      (s.stack n).nearErr = [] → (s.stack n).farErr = [] → (s.stack n).anyPoison far (linesOf o bytes) = false →
      s.inWindow n off bytes = false → (∀ b ∈ (s.stack n).coreHeld, b.core ≠ c) → (s.stack n).lineHolds = [] →
      (∀ line ∈ linesOf off bytes, s.lineWaiters n line = []) →
      Completes (.coreAccess n c .load a bytes v cmp) s (fun t => SameTiers s t
        ∧ t.out = .coreData (coreWord (plainBytes (s.stack n) far o bytes)) :: s.out)
      ∧ Completes (.coreAccess n c .store a bytes v cmp) s (TierWritten n far o (leBytes bytes v.toNat) s))
    ∧ (coreWhere a bytes = .nothing →
      Completes (.coreAccess n c .load a bytes v cmp) s (fun t => t = (s.quiet n 6).emit (.coreData 0))
      ∧ Completes (.coreAccess n c .store a bytes v cmp) s (fun t => t = s.quiet n 6))

/-! ### The fabric manager's messages -/

/-- R520, R524, R531, R532, R552, R559, R529: held notices go again after 1 ms and leave at their acknowledgement; a
row of quiet counters is cleared; a TEARDOWN tears its job down or is answered at once, and its end frees the job's
benches; dead marks are cleared; a REG_WRITE has the effect of a write; and the host learns of a UCIe module that
drops out. That only the notices which are due go again, and the form in which the host learns of the module, are the
model's choices (log entries 155 and 128). -/
def Obligations.RecoveryMessagesAct : Prop :=
  ∀ s : State,
    (s.fmReachable = true → Completes .noticeResendTimer s (fun t =>
      t.out = ((s.host.notices.filter (fun m => m.due s.now)).map (fun m =>
          Output.mgmt s.baseNode s.fmNode 0x18 (noticeBytes m))).reverse ++ s.out
        ∧ t.host.notices.map (·.number) = s.host.notices.map (·.number)
        ∧ (∀ m ∈ t.host.notices, s.now < m.sentAt + 75200000) ∧ t.regs = s.regs
        ∧ (Tab.get [] t.sw.arrived switchPort).length = (Tab.get [] s.sw.arrived switchPort).length
            + (s.host.notices.filter (fun m => m.due s.now)).length))
    ∧ (∀ src : BitVec 16, s.fmNode ≠ 0xFFFF → src = s.fmNode →
      (∀ number : BitVec 32, Completes (.noticeAck src number) s (fun t => t.regs = s.regs ∧ t.stackTab = s.stackTab
        ∧ ∀ m, m ∈ t.host.notices ↔ m ∈ s.host.notices ∧ 2 ^ 31 ≤ (number - m.number).toNat))
      ∧ (∀ (n : Nat) (job : BitVec 16) (stackMask : BitVec 8), n < 8 → stackMask = 1#8 <<< n → job ≠ 0 →
        (s.stackUp n = false ∨ s.jobBenches n job.toNat = [] → Completes (.teardown src job stackMask) s (fun t =>
          t = s.mgmt (s.node n) 0x1C (leBytes 2 job.toNat ++ leBytes 1 n)))
        ∧ (∀ c, s.stackUp n = true → s.jobBenches n job.toNat ≠ [] → s.jobCtxs n job.toNat = [c] →
          killable (s.ctx c).st = true → (s.stack n).tears = [] → s.host.descs = [] → (s.stack n).spansOut = [] →
          (∀ x, x = s.bench n c.bench → x.txQueue = [] ∧ x.rxQueue = [] ∧ x.txOwner = [] ∧ x.rxOwner = []) →
          Completes (.teardown src job stackMask) s (fun t => (t.stack n).tears = [⟨job, 5, true⟩]
            ∧ (t.ctx c).st = .killed ∧ (t.ctx c).waits = [] ∧ t.host.descs = [])))
      ∧ (∀ (node : BitVec 16) (stackMask : BitVec 8), Completes (.clearDead src node stackMask) s (fun t => t.regs = s.regs
        ∧ ∀ n x, n < 8 → (x ∈ (t.stack n).dead ↔ x ∈ (s.stack n).dead ∧ (stackMask.getLsbD n = true → x ≠ node))
          ∧ (x ∈ (t.stack n).fenced ↔ x ∈ (s.stack n).fenced ∧ (stackMask.getLsbD n = true → x ≠ node))
          ∧ (t.stack n).seqTo = (s.stack n).seqTo))
      ∧ (∀ (tag off : BitVec 32) (v : Word),
        ((∀ p, portOfOffset off.toNat = some p → s.portPresent p = false) ∧ (portOfOffset off.toNat).isSome = true
            ∨ off.toNat % 8 ≠ 0 ∨ inSwcOrPort off.toNat = false →
          Completes (.regWrite src tag off v) s (fun t => t.stackTab = s.stackTab
            ∧ { t.sw with arrived := s.sw.arrived } = s.sw ∧ t.regs = (s.quiet (rowOfOffset off.toNat) 0).regs
            ∧ MgmtSent s.baseNode s.fmNode 0x26 (leBytes 4 tag.toNat ++ leBytes 4 off.toNat ++ [1]) s t))
        ∧ (∀ r p k, r ∈ [.SWC_CELL_CFG, .SWC_TENANT_Q, .SWC_RACK_ROUTE_GW k, .PORT_SHARE p, .PORT_FWD p] → k < 64 →
          s.portPresent p = true → off.toNat = r.offset → Completes (.regWrite src tag off v) s (fun t =>
            t.reg r = mergeWrite (s.reg r) v (BitVec.allOnes 64) r.access ∧ RegsOutside [r] s t
              ∧ MgmtSent s.baseNode s.fmNode 0x26 (leBytes 4 tag.toNat ++ leBytes 4 off.toNat ++ [0]) s t))))
    ∧ (∀ who v, s.permit who .SWC_QUIET_CLEAR = .ok → Completes (.quietClear who v) s (fun t =>
        (∀ r k, r < 9 → k < 8 → t.fld (.SWC_QUIET r k) SWC_QUIET_COUNT
            = if v.getLsbD r = true then 0 else s.fld (.SWC_QUIET r k) SWC_QUIET_COUNT)
          ∧ { t with regs := s.regs } = unlatched s who .SWC_QUIET_CLEAR
          ∧ ∀ q, (∀ r k, q ≠ .SWC_QUIET r k) → t.reg q = s.reg q))
    ∧ (∀ (n : Nat) (x : Tear), n < 8 → (s.stack n).tears = [x] → s.tornQuiet n x.job.toNat = true →
      s.host.notices.length < 256 → Completes (.teardownComplete n x.job) s (fun t => (t.stack n).tears = []
        ∧ (∀ b, b < 336 → t.rawJob n b = if s.rawJob n b = x.job.toNat then 0 else s.rawJob n b)
        ∧ (∀ e ∈ (t.stack n).owner, e.2 ≠ x.job.toNat)
        ∧ NoticeHeld 3 n (leBytes 2 x.job.toNat ++ leBytes 1 x.cause) t
        ∧ t.bit .HOSTIF_NOTIFY HOSTIF_NOTIFY_JOB_TORN_DOWN = true
        ∧ (x.answer = true → .mgmt (s.node n) s.fmNode 0x1C (leBytes 2 x.job.toNat ++ leBytes 1 n) ∈ t.out)))
    ∧ (∀ (m : Nat) (f : Field), m < 4 → f = ⟨48 + m, 48 + m⟩ → s.bit .HOSTIF_LINK f = true →
      Completes (.ucieModuleDrop m) s (fun t => t.bit .HOSTIF_LINK f = false ∧ t.out = .ucieDrop m :: s.out
        ∧ RegsOutside [.HOSTIF_LINK] s t))

/-- R534, R536, R537, R539, R541, R542: a shadowing role is set or refused; a shadow compares the digests of a step
and reports; the roles are exchanged at the beat; and a region is copied or read, with its CRC-64 in the reply. What
SHADOW_SET and a swap clear, the MATCHES of a report of a difference, and the results of a rebuild, are the model's
choices (log entries 151, 153, 154). -/
def Obligations.ShadowsCompareAndRegionsRebuild : Prop :=
  ∀ (s : State) (src : BitVec 16),
    (s.fmNode ≠ 0xFFFF → src = s.fmNode →
      (∀ m : ShadowSet, s.recoveryOk m.stack = true → s.peerKnown m.stack m.peer = true → m.role ≤ 2 →
        Completes (.shadowSet src m) s (fun t => t.role m.stack = m.role
          ∧ t.fld (.ABT_RECOVERY m.stack) ABT_RECOVERY_MATCHES = 0 ∧ t.fld (.ABT_RECOVERY m.stack) ABT_RECOVERY_STEP = 0
          ∧ (t.stack m.stack).shadow.peer = m.peer ∧ (t.stack m.stack).shadow.job = m.job
          ∧ (t.stack m.stack).shadow.stepAddr = m.stepAddr.toNat ∧ (t.stack m.stack).shadow.k = m.k
          ∧ RegsOutside [.ABT_RECOVERY m.stack] s t))
      ∧ (∀ m : ShadowSet, m.stack < 8 → s.recoveryOk m.stack = false ∨ s.peerKnown m.stack m.peer = false →
        Completes (.shadowSet src m) s (fun t => t.regs = s.regs ∧ t.stackTab = s.stackTab
          ∧ MgmtSent (s.node m.stack) s.fmNode 0x1F (leBytes 4 (s.fld (.ABT_RECOVERY m.stack) ABT_RECOVERY_STEP)
              ++ [5] ++ leBytes 2 (s.fld (.ABT_RECOVERY m.stack) ABT_RECOVERY_MATCHES)) s t))
      ∧ (∀ n beat, n < 8 → s.role n ≠ 0 → Completes (.shadowSwap src n beat) s (fun t =>
        (t.stack n).shadow.swapAt = some beat ∧ t.regs = s.regs ∧ SameStacks n s t))
      ∧ (∀ (m : RegionReq) (r : Nat), r = s.rebuildResult m → m.stack < 8 →
        (r ≠ 0 → ∀ i ty, (i, ty) ∈ [(Instr.rebuild src m, 0x22#8), (.digestReq src m, 0x24#8)] →
          Completes i s (fun t => t.regs = s.regs ∧ t.stackTab = s.stackTab
            ∧ MgmtSent (s.node m.stack) s.fmNode ty (leBytes 4 m.request.toNat ++ leBytes 1 r
                ++ leBytes 8 (crc64 []).toNat) s t))
        ∧ (∀ bs far size i, r = 0 → far = (m.tier == 1) → size = (if jzb2 m.dstNode = true then 4096 else 8192) →
          0 < m.length → m.dstOffset % size + m.length ≤ size → s.freeEngine m.stack = some i →
          (s.stack m.stack).repairing = [] → (s.stack m.stack).nearErr = [] → (s.stack m.stack).farErr = [] →
          (s.stack m.stack).anyPoison far (linesOf m.offset m.length) = false →
          bs = plainBytes (s.stack m.stack) far m.offset m.length →
          Completes (.rebuild src m) s (fun t => ∃ q b, (t.stack m.stack).reqs = (s.stack m.stack).reqs ++ [q]
            ∧ q.op = 2 ∧ q.payload = bs ∧ q.node = m.dstNode ∧ q.offset = m.dstOffset ∧ q.st = .held
            ∧ (t.stack m.stack).rebuilds = (s.stack m.stack).rebuilds ++ [b] ∧ b.req = m ∧ b.copy = true
            ∧ b.engine = i + 1 ∧ b.begun = true ∧ b.result = 0 ∧ b.digest = crc64 bs ∧ SameTiers s t))
        ∧ (r = 0 → s.freeEngine m.stack = none → Completes (.rebuild src m) s (fun t => t.regs = s.regs
          ∧ (t.stack m.stack).rebuilds = (s.stack m.stack).rebuilds ++ [⟨m, true, 0, false, 0, 0⟩]
          ∧ (t.stack m.stack).reqs = (s.stack m.stack).reqs))
        ∧ (r = 0 → Completes (.digestReq src m) s (fun t =>
          (t.stack m.stack).rebuilds = (s.stack m.stack).rebuilds ++ [⟨m, false, 0, true, 0, 0⟩] ∧ t.regs = s.regs))))
    ∧ (∀ n : Nat, n < 8 →
      (∀ (step : BitVec 32) (own d : Word), s.role n = 2 → src = (s.stack n).shadow.peer →
        (s.stack n).shadow.own = [(step, own)] → (s.stack n).shadow.theirs = [] →
        Completes (.shadowDigest n src step d) s (fun t => (t.stack n).shadow.own = [] ∧ (t.stack n).shadow.theirs = []
          ∧ t.fld (.ABT_RECOVERY n) ABT_RECOVERY_MATCHES = (if own = d
            then min 65535 (s.fld (.ABT_RECOVERY n) ABT_RECOVERY_MATCHES + 1) else 0)
          ∧ (own = d → s.fld (.ABT_RECOVERY n) ABT_RECOVERY_MATCHES + 1 = (s.stack n).shadow.k →
            (s.stack n).shadow.k ≤ 65535 → t.out = .mgmt (s.node n) s.fmNode 0x1F (leBytes 4 step.toNat ++ [1]
              ++ leBytes 2 (s.stack n).shadow.k) :: s.out)
          ∧ (own = d → (s.stack n).shadow.k ≤ s.fld (.ABT_RECOVERY n) ABT_RECOVERY_MATCHES → t.out = s.out)
          ∧ (own ≠ d → t.out = .mgmt (s.node n) s.fmNode 0x1F (leBytes 4 step.toNat ++ [2]
              ++ leBytes 2 (s.fld (.ABT_RECOVERY n) ABT_RECOVERY_MATCHES)) :: s.out)))
      ∧ (∀ b, (s.stack n).shadow.swapAt = some b → s.reached b = true → s.role n = 1 ∨ s.role n = 2 →
        Completes (.shadowSwapBeat n) s (fun t => t.role n = 3 - s.role n
          ∧ t.fld (.ABT_RECOVERY n) ABT_RECOVERY_MATCHES = 0 ∧ (t.stack n).shadow.swapAt = none
          ∧ t.out = .mgmt (s.node n) s.fmNode 0x1F (leBytes 4 (s.fld (.ABT_RECOVERY n) ABT_RECOVERY_STEP) ++ [4]
              ++ leBytes 2 0) :: s.out))
      ∧ (∀ b : Rebuild, (s.stack n).rebuilds = [b] →
        (b.copy = true → b.begun = true → (s.stack n).rebuildQuiet b = true → Completes (.rebuildDone n b.req.request) s (fun t =>
          (t.stack n).rebuilds = [] ∧ t.out = .mgmt (s.node n) s.fmNode 0x22 (leBytes 4 b.req.request.toNat
            ++ leBytes 1 b.result ++ leBytes 8 b.digest.toNat) :: s.out))
        ∧ (∀ far, b.copy = false → far = (b.req.tier == 1) → (s.stack n).repairing = [] → (s.stack n).nearErr = [] → (s.stack n).farErr = [] →
          (s.stack n).anyPoison far (linesOf b.req.offset b.req.length) = false →
          Completes (.digestDone n b.req.request) s (fun t => (t.stack n).rebuilds = [] ∧ SameTiers s t
            ∧ t.out = .mgmt (s.node n) s.fmNode 0x24 (leBytes 4 b.req.request.toNat ++ [0] ++ leBytes 8
                (crc64 (plainBytes (s.stack n) far b.req.offset b.req.length)).toNat) :: s.out))))
end

