-- ==== Sys2Proof/Laws/Tab.lean ====
section
/-! SUPPORT. The laws of the sparse tables and of memory: a read after a write, and the canonical form,
which every operation keeps. -/

namespace Sys2Proof.Machine

variable {α : Type}

/-! ### Reading after writing -/

theorem Tab.get_erase_self (d : α) (t : Tab α) (k : Nat) : Tab.get d (Tab.erase t k) k = d := by
  induction t with
  | nil => rfl
  | cons p t ih => obtain ⟨j, v⟩ := p; by_cases h : j = k <;> simp [Tab.erase, Tab.get, h, ih]

theorem Tab.get_erase_other (d : α) (t : Tab α) {k j : Nat} (h : j ≠ k) :
    Tab.get d (Tab.erase t k) j = Tab.get d t j := by
  induction t with
  | nil => rfl
  | cons p t ih =>
    obtain ⟨i, v⟩ := p
    by_cases hk : i = k
    · subst hk; simp [Tab.erase, Tab.get, ih, Ne.symm h]
    · simp [Tab.erase, hk, Tab.get, ih]

theorem Tab.get_insert_self (d : α) (t : Tab α) (k : Nat) (v : α)
    (hk : ∀ p ∈ t, p.1 ≠ k) : Tab.get d (Tab.insert t k v) k = v := by
  induction t with
  | nil => simp [Tab.insert, Tab.get]
  | cons p t ih =>
    obtain ⟨j, w⟩ := p
    have hj : j ≠ k := hk (j, w) (by simp)
    by_cases hl : k < j
    · simp [Tab.insert, hl, Tab.get]
    · simp [Tab.insert, hl, Tab.get, hj, ih (fun p hp => hk p (by simp [hp]))]

theorem Tab.get_insert_other (d : α) (t : Tab α) {k j : Nat} (v : α) (h : j ≠ k) :
    Tab.get d (Tab.insert t k v) j = Tab.get d t j := by
  induction t with
  | nil => simp [Tab.insert, Tab.get, Ne.symm h]
  | cons p t ih =>
    obtain ⟨i, w⟩ := p
    by_cases hl : k < i
    · simp [Tab.insert, hl, Tab.get, Ne.symm h]
    · simp only [Tab.insert, if_neg hl, Tab.get, ih]

theorem Tab.mem_erase (t : Tab α) (k : Nat) : ∀ p ∈ Tab.erase t k, p.1 ≠ k := by
  induction t with
  | nil => simp [Tab.erase]
  | cons q t ih =>
    obtain ⟨j, v⟩ := q
    by_cases h : j = k
    · simpa [Tab.erase, h] using ih
    · intro p hp
      rw [Tab.erase, if_neg h] at hp
      rcases List.mem_cons.1 hp with rfl | hp
      · exact h
      · exact ih p hp

/-- A table reads at `k` what was written there, and elsewhere what it held. -/
@[simp] theorem Tab.get_put (d : α) (t : Tab α) (k : Nat) (v : α) (j : Nat) :
    Tab.get d (Tab.put t k v) j = if j = k then v else Tab.get d t j := by
  by_cases h : j = k
  · subst h
    simp [Tab.put, Tab.get_insert_self d _ _ v (Tab.mem_erase t _)]
  · simp [Tab.put, h, Tab.get_insert_other d _ v h, Tab.get_erase_other d t h]

@[simp] theorem Tab.get_set [DecidableEq α] (d : α) (t : Tab α) (k : Nat) (v : α) (j : Nat) :
    Tab.get d (Tab.set d t k v) j = if j = k then v else Tab.get d t j := by
  by_cases hv : v = d
  · subst hv
    by_cases h : j = k
    · subst h; simp [Tab.set, Tab.get_erase_self]
    · simp [Tab.set, h, Tab.get_erase_other v t h]
  · have := Tab.get_put d t k v j
    simpa [Tab.set, hv, Tab.put] using this

/-! ### The canonical form -/

theorem Tab.rising_mono (t : Tab α) {lo lo' : Nat} (h : lo' ≤ lo) (ht : Tab.rising lo t = true) :
    Tab.rising lo' t = true := by
  cases t with
  | nil => rfl
  | cons p t => obtain ⟨j, v⟩ := p; simp [Tab.rising] at *; exact ⟨by omega, ht.2⟩

theorem Tab.rising_erase (t : Tab α) (k : Nat) (lo : Nat) (ht : Tab.rising lo t = true) :
    Tab.rising lo (Tab.erase t k) = true := by
  induction t generalizing lo with
  | nil => rfl
  | cons p t ih =>
    obtain ⟨j, v⟩ := p
    simp [Tab.rising] at ht
    by_cases h : j = k
    · simpa [Tab.erase, h] using Tab.rising_mono _ (by omega : lo ≤ j + 1) (ih (j + 1) ht.2)
    · simp [Tab.erase, h, Tab.rising, ht.1, ih (j + 1) ht.2]

theorem Tab.rising_insert (t : Tab α) (k : Nat) (v : α) (lo : Nat) (hlo : lo ≤ k)
    (hk : ∀ p ∈ t, p.1 ≠ k) (ht : Tab.rising lo t = true) :
    Tab.rising lo (Tab.insert t k v) = true := by
  induction t generalizing lo with
  | nil => simp [Tab.insert, Tab.rising, hlo]
  | cons p t ih =>
    obtain ⟨j, w⟩ := p
    have hj : j ≠ k := hk (j, w) (by simp)
    simp [Tab.rising] at ht
    by_cases hl : k < j
    · simp only [Tab.insert, hl, if_true, Tab.rising, Bool.and_eq_true, decide_eq_true_eq]; exact ⟨hlo, by omega, ht.2⟩
    · simp [Tab.insert, hl, Tab.rising, ht.1]
      exact ih (j + 1) (by omega) (fun p hp => hk p (by simp [hp])) ht.2

theorem Tab.rising_put (t : Tab α) (k : Nat) (v : α) (ht : Tab.rising 0 t = true) :
    Tab.rising 0 (Tab.put t k v) = true :=
  Tab.rising_insert _ k v 0 (Nat.zero_le k) (Tab.mem_erase t k) (Tab.rising_erase t k 0 ht)

theorem Tab.mem_insert {t : Tab α} {k : Nat} {v : α} {p : Nat × α} (h : p ∈ Tab.insert t k v) :
    p = (k, v) ∨ p ∈ t := by
  induction t with
  | nil => simpa [Tab.insert] using h
  | cons q t ih =>
    obtain ⟨j, w⟩ := q
    by_cases hl : k < j
    · simpa [Tab.insert, hl] using h
    · rw [Tab.insert, if_neg hl] at h
      rcases List.mem_cons.1 h with rfl | h
      · simp
      · rcases ih h with h | h
        · exact .inl h
        · simp [h]

theorem Tab.erase_sub {t : Tab α} {k : Nat} {p : Nat × α} (h : p ∈ Tab.erase t k) : p ∈ t := by
  induction t with
  | nil => simp [Tab.erase] at h
  | cons q t ih =>
    obtain ⟨j, w⟩ := q
    by_cases hj : j = k
    · simp [Tab.erase, hj] at h; simp [ih h]
    · rw [Tab.erase, if_neg hj] at h
      rcases List.mem_cons.1 h with rfl | h
      · simp
      · simp [ih h]

/-! ### Memory -/

@[simp] theorem Mem.read_write (m : Mem) (a : Nat) (b : Byte) (x : Nat) :
    Mem.read (Mem.write m a b) x = if x = a then b else Mem.read m x :=
  Tab.get_set Mem.unlisted m a b x

@[simp] theorem Mem.wf_nil : Mem.wf [] = true := rfl

/-- A write of one byte keeps the canonical form. -/
theorem Mem.wf_write (m : Mem) (a : Nat) (b : Byte) (h : Mem.wf m = true) :
    Mem.wf (Mem.write m a b) = true := by
  simp only [Mem.wf, Bool.and_eq_true, List.all_eq_true, decide_eq_true_eq] at *
  obtain ⟨hr, hn⟩ := h
  by_cases hb : b = Mem.unlisted
  · simp only [Mem.write, Tab.set, hb, if_true]
    exact ⟨Tab.rising_erase m a 0 hr, fun c hc => hn c (Tab.erase_sub hc)⟩
  · simp only [Mem.write, Tab.set, if_neg hb]
    refine ⟨Tab.rising_put m a b hr, fun c hc => ?_⟩
    rcases Tab.mem_insert hc with rfl | hc
    · exact hb
    · exact hn c (Tab.erase_sub hc)

theorem Mem.wf_writeBytes (bs : List Byte) (m : Mem) (a : Nat) (h : Mem.wf m = true) :
    Mem.wf (Mem.writeBytes m a bs) = true := by
  induction bs generalizing m a with
  | nil => exact h
  | cons b bs ih => exact ih _ _ (Mem.wf_write m a b h)

theorem Tab.rising_filter (t : Tab α) (p : Nat × α → Bool) (lo : Nat) (h : Tab.rising lo t = true) :
    Tab.rising lo (t.filter p) = true := by
  induction t generalizing lo with
  | nil => rfl
  | cons q t ih =>
    obtain ⟨j, v⟩ := q
    simp [Tab.rising] at h
    by_cases hp : p (j, v) = true
    · simp [hp, Tab.rising, h.1, ih (j + 1) h.2]
    · simpa [hp] using Tab.rising_mono _ (by omega : lo ≤ j + 1) (ih (j + 1) h.2)

theorem Mem.wf_clear (m : Mem) (lo hi : Nat) (h : Mem.wf m = true) : Mem.wf (Mem.clear m lo hi) = true := by
  simp only [Mem.wf, Bool.and_eq_true, List.all_eq_true, decide_eq_true_eq] at *
  exact ⟨Tab.rising_filter m _ 0 h.1, fun c hc => h.2 c (List.mem_filter.1 hc).1⟩

/-- After a store of bytes, each address reads as the byte stored there, and any other as before. -/
theorem Mem.read_writeBytes (bs : List Byte) (m : Mem) (a x : Nat) :
    Mem.read (Mem.writeBytes m a bs) x =
      if a ≤ x ∧ x < a + bs.length then nth 0 bs (x - a) else Mem.read m x := by
  induction bs generalizing m a with
  | nil =>
    rw [Mem.writeBytes, if_neg (by simp only [List.length_nil]; omega)]
  | cons b bs ih =>
    rw [Mem.writeBytes, ih, Mem.read_write, List.length_cons]
    by_cases h1 : a + 1 ≤ x ∧ x < a + 1 + bs.length
    · rw [if_pos h1, if_pos (by omega), (by omega : x - a = x - (a + 1) + 1), nth]
    · rw [if_neg h1]
      by_cases h2 : x = a
      · rw [if_pos h2, if_pos (by omega), (by omega : x - a = 0), nth]
      · rw [if_neg h2, if_neg (by omega)]

@[simp] theorem Mem.length_readBytes (m : Mem) (a n : Nat) : (Mem.readBytes m a n).length = n := by
  induction n generalizing a with
  | zero => rfl
  | succ n ih => simp [Mem.readBytes, ih]

end Sys2Proof.Machine
end

