-- ==== Sys2Proof/Laws/State.lean ====
section
/-! SUPPORT. What each update of State leaves as it was, field by field. -/

namespace Sys2Proof.Machine

section
variable (s : State) (r : Reg) (w : Word)
@[simp] theorem State.setReg_now : (s.setReg r w).now = s.now := rfl
@[simp] theorem State.setReg_variant : (s.setReg r w).variant = s.variant := rfl
@[simp] theorem State.setReg_latches : (s.setReg r w).latches = s.latches := rfl
@[simp] theorem State.setReg_boot : (s.setReg r w).boot = s.boot := rfl
@[simp] theorem State.setReg_beat : (s.setReg r w).beat = s.beat := rfl
@[simp] theorem State.setReg_host : (s.setReg r w).host = s.host := rfl
@[simp] theorem State.setReg_power : (s.setReg r w).power = s.power := rfl
@[simp] theorem State.setReg_keeper : (s.setReg r w).keeper = s.keeper := rfl
@[simp] theorem State.setReg_sw : (s.setReg r w).sw = s.sw := rfl
@[simp] theorem State.setReg_ports : (s.setReg r w).ports = s.ports := rfl
@[simp] theorem State.setReg_stacks : (s.setReg r w).stackTab = s.stackTab := rfl
@[simp] theorem State.setReg_hostMem : (s.setReg r w).hostMem = s.hostMem := rfl
@[simp] theorem State.setReg_out : (s.setReg r w).out = s.out := rfl
@[simp] theorem State.setReg_free : (s.setReg r w).free = s.free := rfl
@[simp] theorem State.setReg_nextId : (s.setReg r w).nextId = s.nextId := rfl
@[simp] theorem State.setReg_pending : (s.setReg r w).pending = s.pending := rfl
end

section
variable (s : State) (r : Reg) (f : Field) (v : Nat)
@[simp] theorem State.setFld_now : (s.setFld r f v).now = s.now := rfl
@[simp] theorem State.setFld_variant : (s.setFld r f v).variant = s.variant := rfl
@[simp] theorem State.setFld_latches : (s.setFld r f v).latches = s.latches := rfl
@[simp] theorem State.setFld_boot : (s.setFld r f v).boot = s.boot := rfl
@[simp] theorem State.setFld_beat : (s.setFld r f v).beat = s.beat := rfl
@[simp] theorem State.setFld_host : (s.setFld r f v).host = s.host := rfl
@[simp] theorem State.setFld_power : (s.setFld r f v).power = s.power := rfl
@[simp] theorem State.setFld_keeper : (s.setFld r f v).keeper = s.keeper := rfl
@[simp] theorem State.setFld_sw : (s.setFld r f v).sw = s.sw := rfl
@[simp] theorem State.setFld_ports : (s.setFld r f v).ports = s.ports := rfl
@[simp] theorem State.setFld_stacks : (s.setFld r f v).stackTab = s.stackTab := rfl
@[simp] theorem State.setFld_hostMem : (s.setFld r f v).hostMem = s.hostMem := rfl
@[simp] theorem State.setFld_out : (s.setFld r f v).out = s.out := rfl
@[simp] theorem State.setFld_free : (s.setFld r f v).free = s.free := rfl
@[simp] theorem State.setFld_nextId : (s.setFld r f v).nextId = s.nextId := rfl
@[simp] theorem State.setFld_pending : (s.setFld r f v).pending = s.pending := rfl
end

section
variable (s : State) (r : Reg) (f : Field) (b : Bool)
@[simp] theorem State.setBit_now : (s.setBit r f b).now = s.now := rfl
@[simp] theorem State.setBit_variant : (s.setBit r f b).variant = s.variant := rfl
@[simp] theorem State.setBit_latches : (s.setBit r f b).latches = s.latches := rfl
@[simp] theorem State.setBit_boot : (s.setBit r f b).boot = s.boot := rfl
@[simp] theorem State.setBit_beat : (s.setBit r f b).beat = s.beat := rfl
@[simp] theorem State.setBit_host : (s.setBit r f b).host = s.host := rfl
@[simp] theorem State.setBit_power : (s.setBit r f b).power = s.power := rfl
@[simp] theorem State.setBit_keeper : (s.setBit r f b).keeper = s.keeper := rfl
@[simp] theorem State.setBit_sw : (s.setBit r f b).sw = s.sw := rfl
@[simp] theorem State.setBit_ports : (s.setBit r f b).ports = s.ports := rfl
@[simp] theorem State.setBit_stacks : (s.setBit r f b).stackTab = s.stackTab := rfl
@[simp] theorem State.setBit_hostMem : (s.setBit r f b).hostMem = s.hostMem := rfl
@[simp] theorem State.setBit_out : (s.setBit r f b).out = s.out := rfl
@[simp] theorem State.setBit_free : (s.setBit r f b).free = s.free := rfl
@[simp] theorem State.setBit_nextId : (s.setBit r f b).nextId = s.nextId := rfl
@[simp] theorem State.setBit_pending : (s.setBit r f b).pending = s.pending := rfl
end

section
variable (s : State) (r : Reg) (f : Field) (n : Nat)
@[simp] theorem State.satFld_now : (s.satFld r f n).now = s.now := rfl
@[simp] theorem State.satFld_variant : (s.satFld r f n).variant = s.variant := rfl
@[simp] theorem State.satFld_latches : (s.satFld r f n).latches = s.latches := rfl
@[simp] theorem State.satFld_boot : (s.satFld r f n).boot = s.boot := rfl
@[simp] theorem State.satFld_beat : (s.satFld r f n).beat = s.beat := rfl
@[simp] theorem State.satFld_host : (s.satFld r f n).host = s.host := rfl
@[simp] theorem State.satFld_power : (s.satFld r f n).power = s.power := rfl
@[simp] theorem State.satFld_keeper : (s.satFld r f n).keeper = s.keeper := rfl
@[simp] theorem State.satFld_sw : (s.satFld r f n).sw = s.sw := rfl
@[simp] theorem State.satFld_ports : (s.satFld r f n).ports = s.ports := rfl
@[simp] theorem State.satFld_stacks : (s.satFld r f n).stackTab = s.stackTab := rfl
@[simp] theorem State.satFld_hostMem : (s.satFld r f n).hostMem = s.hostMem := rfl
@[simp] theorem State.satFld_out : (s.satFld r f n).out = s.out := rfl
@[simp] theorem State.satFld_free : (s.satFld r f n).free = s.free := rfl
@[simp] theorem State.satFld_nextId : (s.satFld r f n).nextId = s.nextId := rfl
@[simp] theorem State.satFld_pending : (s.satFld r f n).pending = s.pending := rfl
end

section
variable (s : State) (r : Reg)
@[simp] theorem State.resetReg_now : (s.resetReg r).now = s.now := rfl
@[simp] theorem State.resetReg_variant : (s.resetReg r).variant = s.variant := rfl
@[simp] theorem State.resetReg_latches : (s.resetReg r).latches = s.latches := rfl
@[simp] theorem State.resetReg_boot : (s.resetReg r).boot = s.boot := rfl
@[simp] theorem State.resetReg_beat : (s.resetReg r).beat = s.beat := rfl
@[simp] theorem State.resetReg_host : (s.resetReg r).host = s.host := rfl
@[simp] theorem State.resetReg_power : (s.resetReg r).power = s.power := rfl
@[simp] theorem State.resetReg_keeper : (s.resetReg r).keeper = s.keeper := rfl
@[simp] theorem State.resetReg_sw : (s.resetReg r).sw = s.sw := rfl
@[simp] theorem State.resetReg_ports : (s.resetReg r).ports = s.ports := rfl
@[simp] theorem State.resetReg_stacks : (s.resetReg r).stackTab = s.stackTab := rfl
@[simp] theorem State.resetReg_hostMem : (s.resetReg r).hostMem = s.hostMem := rfl
@[simp] theorem State.resetReg_out : (s.resetReg r).out = s.out := rfl
@[simp] theorem State.resetReg_free : (s.resetReg r).free = s.free := rfl
@[simp] theorem State.resetReg_nextId : (s.resetReg r).nextId = s.nextId := rfl
@[simp] theorem State.resetReg_pending : (s.resetReg r).pending = s.pending := rfl
end

section
variable (s : State) (r k : Nat)
@[simp] theorem State.quiet_now : (s.quiet r k).now = s.now := rfl
@[simp] theorem State.quiet_variant : (s.quiet r k).variant = s.variant := rfl
@[simp] theorem State.quiet_latches : (s.quiet r k).latches = s.latches := rfl
@[simp] theorem State.quiet_boot : (s.quiet r k).boot = s.boot := rfl
@[simp] theorem State.quiet_beat : (s.quiet r k).beat = s.beat := rfl
@[simp] theorem State.quiet_host : (s.quiet r k).host = s.host := rfl
@[simp] theorem State.quiet_power : (s.quiet r k).power = s.power := rfl
@[simp] theorem State.quiet_keeper : (s.quiet r k).keeper = s.keeper := rfl
@[simp] theorem State.quiet_sw : (s.quiet r k).sw = s.sw := rfl
@[simp] theorem State.quiet_ports : (s.quiet r k).ports = s.ports := rfl
@[simp] theorem State.quiet_stacks : (s.quiet r k).stackTab = s.stackTab := rfl
@[simp] theorem State.quiet_hostMem : (s.quiet r k).hostMem = s.hostMem := rfl
@[simp] theorem State.quiet_out : (s.quiet r k).out = s.out := rfl
@[simp] theorem State.quiet_free : (s.quiet r k).free = s.free := rfl
@[simp] theorem State.quiet_nextId : (s.quiet r k).nextId = s.nextId := rfl
@[simp] theorem State.quiet_pending : (s.quiet r k).pending = s.pending := rfl
end

section
variable (s : State) (n : Nat) (k : Stack)
@[simp] theorem State.setStack_now : (s.setStack n k).now = s.now := rfl
@[simp] theorem State.setStack_variant : (s.setStack n k).variant = s.variant := rfl
@[simp] theorem State.setStack_regs : (s.setStack n k).regs = s.regs := rfl
@[simp] theorem State.setStack_latches : (s.setStack n k).latches = s.latches := rfl
@[simp] theorem State.setStack_boot : (s.setStack n k).boot = s.boot := rfl
@[simp] theorem State.setStack_beat : (s.setStack n k).beat = s.beat := rfl
@[simp] theorem State.setStack_host : (s.setStack n k).host = s.host := rfl
@[simp] theorem State.setStack_power : (s.setStack n k).power = s.power := rfl
@[simp] theorem State.setStack_keeper : (s.setStack n k).keeper = s.keeper := rfl
@[simp] theorem State.setStack_sw : (s.setStack n k).sw = s.sw := rfl
@[simp] theorem State.setStack_ports : (s.setStack n k).ports = s.ports := rfl
@[simp] theorem State.setStack_hostMem : (s.setStack n k).hostMem = s.hostMem := rfl
@[simp] theorem State.setStack_out : (s.setStack n k).out = s.out := rfl
@[simp] theorem State.setStack_free : (s.setStack n k).free = s.free := rfl
@[simp] theorem State.setStack_nextId : (s.setStack n k).nextId = s.nextId := rfl
@[simp] theorem State.setStack_pending : (s.setStack n k).pending = s.pending := rfl
end

section
variable (s : State) (n : Nat) (f : Stack → Stack)
@[simp] theorem State.modStack_now : (s.modStack n f).now = s.now := rfl
@[simp] theorem State.modStack_variant : (s.modStack n f).variant = s.variant := rfl
@[simp] theorem State.modStack_regs : (s.modStack n f).regs = s.regs := rfl
@[simp] theorem State.modStack_latches : (s.modStack n f).latches = s.latches := rfl
@[simp] theorem State.modStack_boot : (s.modStack n f).boot = s.boot := rfl
@[simp] theorem State.modStack_beat : (s.modStack n f).beat = s.beat := rfl
@[simp] theorem State.modStack_host : (s.modStack n f).host = s.host := rfl
@[simp] theorem State.modStack_power : (s.modStack n f).power = s.power := rfl
@[simp] theorem State.modStack_keeper : (s.modStack n f).keeper = s.keeper := rfl
@[simp] theorem State.modStack_sw : (s.modStack n f).sw = s.sw := rfl
@[simp] theorem State.modStack_ports : (s.modStack n f).ports = s.ports := rfl
@[simp] theorem State.modStack_hostMem : (s.modStack n f).hostMem = s.hostMem := rfl
@[simp] theorem State.modStack_out : (s.modStack n f).out = s.out := rfl
@[simp] theorem State.modStack_free : (s.modStack n f).free = s.free := rfl
@[simp] theorem State.modStack_nextId : (s.modStack n f).nextId = s.nextId := rfl
@[simp] theorem State.modStack_pending : (s.modStack n f).pending = s.pending := rfl
end

section
variable (s : State) (n b : Nat) (x : Bench)
@[simp] theorem State.setBench_now : (s.setBench n b x).now = s.now := rfl
@[simp] theorem State.setBench_variant : (s.setBench n b x).variant = s.variant := rfl
@[simp] theorem State.setBench_regs : (s.setBench n b x).regs = s.regs := rfl
@[simp] theorem State.setBench_latches : (s.setBench n b x).latches = s.latches := rfl
@[simp] theorem State.setBench_boot : (s.setBench n b x).boot = s.boot := rfl
@[simp] theorem State.setBench_beat : (s.setBench n b x).beat = s.beat := rfl
@[simp] theorem State.setBench_host : (s.setBench n b x).host = s.host := rfl
@[simp] theorem State.setBench_power : (s.setBench n b x).power = s.power := rfl
@[simp] theorem State.setBench_keeper : (s.setBench n b x).keeper = s.keeper := rfl
@[simp] theorem State.setBench_sw : (s.setBench n b x).sw = s.sw := rfl
@[simp] theorem State.setBench_ports : (s.setBench n b x).ports = s.ports := rfl
@[simp] theorem State.setBench_hostMem : (s.setBench n b x).hostMem = s.hostMem := rfl
@[simp] theorem State.setBench_out : (s.setBench n b x).out = s.out := rfl
@[simp] theorem State.setBench_free : (s.setBench n b x).free = s.free := rfl
@[simp] theorem State.setBench_nextId : (s.setBench n b x).nextId = s.nextId := rfl
@[simp] theorem State.setBench_pending : (s.setBench n b x).pending = s.pending := rfl
end

section
variable (s : State) (n b : Nat) (f : Bench → Bench)
@[simp] theorem State.modBench_now : (s.modBench n b f).now = s.now := rfl
@[simp] theorem State.modBench_variant : (s.modBench n b f).variant = s.variant := rfl
@[simp] theorem State.modBench_regs : (s.modBench n b f).regs = s.regs := rfl
@[simp] theorem State.modBench_latches : (s.modBench n b f).latches = s.latches := rfl
@[simp] theorem State.modBench_boot : (s.modBench n b f).boot = s.boot := rfl
@[simp] theorem State.modBench_beat : (s.modBench n b f).beat = s.beat := rfl
@[simp] theorem State.modBench_host : (s.modBench n b f).host = s.host := rfl
@[simp] theorem State.modBench_power : (s.modBench n b f).power = s.power := rfl
@[simp] theorem State.modBench_keeper : (s.modBench n b f).keeper = s.keeper := rfl
@[simp] theorem State.modBench_sw : (s.modBench n b f).sw = s.sw := rfl
@[simp] theorem State.modBench_ports : (s.modBench n b f).ports = s.ports := rfl
@[simp] theorem State.modBench_hostMem : (s.modBench n b f).hostMem = s.hostMem := rfl
@[simp] theorem State.modBench_out : (s.modBench n b f).out = s.out := rfl
@[simp] theorem State.modBench_free : (s.modBench n b f).free = s.free := rfl
@[simp] theorem State.modBench_nextId : (s.modBench n b f).nextId = s.nextId := rfl
@[simp] theorem State.modBench_pending : (s.modBench n b f).pending = s.pending := rfl
end

section
variable (s : State) (c : CtxId) (y : Ctx)
@[simp] theorem State.setCtx_now : (s.setCtx c y).now = s.now := rfl
@[simp] theorem State.setCtx_variant : (s.setCtx c y).variant = s.variant := rfl
@[simp] theorem State.setCtx_regs : (s.setCtx c y).regs = s.regs := rfl
@[simp] theorem State.setCtx_latches : (s.setCtx c y).latches = s.latches := rfl
@[simp] theorem State.setCtx_boot : (s.setCtx c y).boot = s.boot := rfl
@[simp] theorem State.setCtx_beat : (s.setCtx c y).beat = s.beat := rfl
@[simp] theorem State.setCtx_host : (s.setCtx c y).host = s.host := rfl
@[simp] theorem State.setCtx_power : (s.setCtx c y).power = s.power := rfl
@[simp] theorem State.setCtx_keeper : (s.setCtx c y).keeper = s.keeper := rfl
@[simp] theorem State.setCtx_sw : (s.setCtx c y).sw = s.sw := rfl
@[simp] theorem State.setCtx_ports : (s.setCtx c y).ports = s.ports := rfl
@[simp] theorem State.setCtx_hostMem : (s.setCtx c y).hostMem = s.hostMem := rfl
@[simp] theorem State.setCtx_out : (s.setCtx c y).out = s.out := rfl
@[simp] theorem State.setCtx_free : (s.setCtx c y).free = s.free := rfl
@[simp] theorem State.setCtx_nextId : (s.setCtx c y).nextId = s.nextId := rfl
@[simp] theorem State.setCtx_pending : (s.setCtx c y).pending = s.pending := rfl
end

section
variable (s : State) (c : CtxId) (f : Ctx → Ctx)
@[simp] theorem State.modCtx_now : (s.modCtx c f).now = s.now := rfl
@[simp] theorem State.modCtx_variant : (s.modCtx c f).variant = s.variant := rfl
@[simp] theorem State.modCtx_regs : (s.modCtx c f).regs = s.regs := rfl
@[simp] theorem State.modCtx_latches : (s.modCtx c f).latches = s.latches := rfl
@[simp] theorem State.modCtx_boot : (s.modCtx c f).boot = s.boot := rfl
@[simp] theorem State.modCtx_beat : (s.modCtx c f).beat = s.beat := rfl
@[simp] theorem State.modCtx_host : (s.modCtx c f).host = s.host := rfl
@[simp] theorem State.modCtx_power : (s.modCtx c f).power = s.power := rfl
@[simp] theorem State.modCtx_keeper : (s.modCtx c f).keeper = s.keeper := rfl
@[simp] theorem State.modCtx_sw : (s.modCtx c f).sw = s.sw := rfl
@[simp] theorem State.modCtx_ports : (s.modCtx c f).ports = s.ports := rfl
@[simp] theorem State.modCtx_hostMem : (s.modCtx c f).hostMem = s.hostMem := rfl
@[simp] theorem State.modCtx_out : (s.modCtx c f).out = s.out := rfl
@[simp] theorem State.modCtx_free : (s.modCtx c f).free = s.free := rfl
@[simp] theorem State.modCtx_nextId : (s.modCtx c f).nextId = s.nextId := rfl
@[simp] theorem State.modCtx_pending : (s.modCtx c f).pending = s.pending := rfl
end

section
variable (s : State) (p : Nat) (x : Port)
@[simp] theorem State.setPort_now : (s.setPort p x).now = s.now := rfl
@[simp] theorem State.setPort_variant : (s.setPort p x).variant = s.variant := rfl
@[simp] theorem State.setPort_regs : (s.setPort p x).regs = s.regs := rfl
@[simp] theorem State.setPort_latches : (s.setPort p x).latches = s.latches := rfl
@[simp] theorem State.setPort_boot : (s.setPort p x).boot = s.boot := rfl
@[simp] theorem State.setPort_beat : (s.setPort p x).beat = s.beat := rfl
@[simp] theorem State.setPort_host : (s.setPort p x).host = s.host := rfl
@[simp] theorem State.setPort_power : (s.setPort p x).power = s.power := rfl
@[simp] theorem State.setPort_keeper : (s.setPort p x).keeper = s.keeper := rfl
@[simp] theorem State.setPort_sw : (s.setPort p x).sw = s.sw := rfl
@[simp] theorem State.setPort_stacks : (s.setPort p x).stackTab = s.stackTab := rfl
@[simp] theorem State.setPort_hostMem : (s.setPort p x).hostMem = s.hostMem := rfl
@[simp] theorem State.setPort_out : (s.setPort p x).out = s.out := rfl
@[simp] theorem State.setPort_free : (s.setPort p x).free = s.free := rfl
@[simp] theorem State.setPort_nextId : (s.setPort p x).nextId = s.nextId := rfl
@[simp] theorem State.setPort_pending : (s.setPort p x).pending = s.pending := rfl
end

section
variable (s : State) (p : Nat) (f : Port → Port)
@[simp] theorem State.modPort_now : (s.modPort p f).now = s.now := rfl
@[simp] theorem State.modPort_variant : (s.modPort p f).variant = s.variant := rfl
@[simp] theorem State.modPort_regs : (s.modPort p f).regs = s.regs := rfl
@[simp] theorem State.modPort_latches : (s.modPort p f).latches = s.latches := rfl
@[simp] theorem State.modPort_boot : (s.modPort p f).boot = s.boot := rfl
@[simp] theorem State.modPort_beat : (s.modPort p f).beat = s.beat := rfl
@[simp] theorem State.modPort_host : (s.modPort p f).host = s.host := rfl
@[simp] theorem State.modPort_power : (s.modPort p f).power = s.power := rfl
@[simp] theorem State.modPort_keeper : (s.modPort p f).keeper = s.keeper := rfl
@[simp] theorem State.modPort_sw : (s.modPort p f).sw = s.sw := rfl
@[simp] theorem State.modPort_stacks : (s.modPort p f).stackTab = s.stackTab := rfl
@[simp] theorem State.modPort_hostMem : (s.modPort p f).hostMem = s.hostMem := rfl
@[simp] theorem State.modPort_out : (s.modPort p f).out = s.out := rfl
@[simp] theorem State.modPort_free : (s.modPort p f).free = s.free := rfl
@[simp] theorem State.modPort_nextId : (s.modPort p f).nextId = s.nextId := rfl
@[simp] theorem State.modPort_pending : (s.modPort p f).pending = s.pending := rfl
end

section
variable (s : State) (o : Output)
@[simp] theorem State.emit_now : (s.emit o).now = s.now := rfl
@[simp] theorem State.emit_variant : (s.emit o).variant = s.variant := rfl
@[simp] theorem State.emit_regs : (s.emit o).regs = s.regs := rfl
@[simp] theorem State.emit_latches : (s.emit o).latches = s.latches := rfl
@[simp] theorem State.emit_boot : (s.emit o).boot = s.boot := rfl
@[simp] theorem State.emit_beat : (s.emit o).beat = s.beat := rfl
@[simp] theorem State.emit_host : (s.emit o).host = s.host := rfl
@[simp] theorem State.emit_power : (s.emit o).power = s.power := rfl
@[simp] theorem State.emit_keeper : (s.emit o).keeper = s.keeper := rfl
@[simp] theorem State.emit_sw : (s.emit o).sw = s.sw := rfl
@[simp] theorem State.emit_ports : (s.emit o).ports = s.ports := rfl
@[simp] theorem State.emit_stacks : (s.emit o).stackTab = s.stackTab := rfl
@[simp] theorem State.emit_hostMem : (s.emit o).hostMem = s.hostMem := rfl
@[simp] theorem State.emit_free : (s.emit o).free = s.free := rfl
@[simp] theorem State.emit_nextId : (s.emit o).nextId = s.nextId := rfl
@[simp] theorem State.emit_pending : (s.emit o).pending = s.pending := rfl
end

section
variable (s : State) (f : Switch → Switch)
@[simp] theorem State.modSw_now : (s.modSw f).now = s.now := rfl
@[simp] theorem State.modSw_variant : (s.modSw f).variant = s.variant := rfl
@[simp] theorem State.modSw_regs : (s.modSw f).regs = s.regs := rfl
@[simp] theorem State.modSw_latches : (s.modSw f).latches = s.latches := rfl
@[simp] theorem State.modSw_boot : (s.modSw f).boot = s.boot := rfl
@[simp] theorem State.modSw_beat : (s.modSw f).beat = s.beat := rfl
@[simp] theorem State.modSw_host : (s.modSw f).host = s.host := rfl
@[simp] theorem State.modSw_power : (s.modSw f).power = s.power := rfl
@[simp] theorem State.modSw_keeper : (s.modSw f).keeper = s.keeper := rfl
@[simp] theorem State.modSw_ports : (s.modSw f).ports = s.ports := rfl
@[simp] theorem State.modSw_hostMem : (s.modSw f).hostMem = s.hostMem := rfl
@[simp] theorem State.modSw_out : (s.modSw f).out = s.out := rfl
@[simp] theorem State.modSw_free : (s.modSw f).free = s.free := rfl
@[simp] theorem State.modSw_nextId : (s.modSw f).nextId = s.nextId := rfl
@[simp] theorem State.modSw_pending : (s.modSw f).pending = s.pending := rfl
@[simp] theorem State.modSw_stacks : (s.modSw f).stackTab = s.stackTab := rfl
@[simp] theorem State.modSw_sw : (s.modSw f).sw = f s.sw := rfl
end

end Sys2Proof.Machine
end

