-- ==== Sys2Proof/Laws/Units.lean ====
section
/-! SUPPORT. A stack, a bench, a context, a port or a register after an update of one of them. -/

namespace Sys2Proof.Machine

@[simp] theorem State.stack_setStack (s : State) (n : Nat) (k : Stack) (m : Nat) :
    (s.setStack n k).stack m = if m = n then k else s.stack m := by
  simp [State.stack, State.setStack]

@[simp] theorem State.stack_modStack (s : State) (n : Nat) (f : Stack → Stack) (m : Nat) :
    (s.modStack n f).stack m = if m = n then f (s.stack n) else s.stack m := by
  simp [State.modStack]

@[simp] theorem Stack.bench_setBench (k : Stack) (b : Nat) (x : Bench) (d : Nat) :
    (k.setBench b x).bench d = if d = b then x else k.bench d := by
  simp [Stack.bench, Stack.setBench]

@[simp] theorem Bench.ctx_setCtx (x : Bench) (c : Nat) (y : Ctx) (d : Nat) :
    (x.setCtx c y).ctx d = if d = c then y else x.ctx d := by
  simp [Bench.ctx, Bench.setCtx]

/-- A change of one bench of one stack. -/
theorem State.stack_modBench (s : State) (n b : Nat) (f : Bench → Bench) (m : Nat) :
    (s.modBench n b f).stack m =
      if m = n then (s.stack n).setBench b (f (s.bench n b)) else s.stack m := by
  simp [State.modBench, State.setBench]

@[simp] theorem State.bench_modBench (s : State) (n b : Nat) (f : Bench → Bench) (m d : Nat) :
    (s.modBench n b f).bench m d = if m = n ∧ d = b then f (s.bench n b) else s.bench m d := by
  rw [State.bench, State.stack_modBench]
  by_cases hm : m = n
  · subst hm; by_cases hd : d = b <;> simp [hd, State.bench]
  · simp [hm, State.bench]

/-- A change of one context. -/
theorem State.stack_modCtx (s : State) (c : CtxId) (f : Ctx → Ctx) (m : Nat) :
    (s.modCtx c f).stack m =
      if m = c.stack then
        (s.stack c.stack).setBench c.bench ((s.bench c.stack c.bench).setCtx c.ctx (f (s.ctx c)))
      else s.stack m := by
  simp [State.modCtx, State.setCtx, State.stack_modBench]

@[simp] theorem State.bench_modCtx (s : State) (c : CtxId) (f : Ctx → Ctx) (m d : Nat) :
    (s.modCtx c f).bench m d =
      if m = c.stack ∧ d = c.bench then (s.bench c.stack c.bench).setCtx c.ctx (f (s.ctx c))
      else s.bench m d := by
  simp [State.modCtx, State.setCtx]

@[simp] theorem State.ctx_modCtx (s : State) (c : CtxId) (f : Ctx → Ctx) (d : CtxId) :
    (s.modCtx c f).ctx d = if d = c then f (s.ctx c) else s.ctx d := by
  obtain ⟨n, b, i⟩ := c
  obtain ⟨m, e, j⟩ := d
  by_cases h : m = n ∧ e = b
  · obtain ⟨rfl, rfl⟩ := h
    by_cases hj : j = i
    · subst hj; simp [State.ctx]
    · simp [State.ctx, hj]
  · have : ¬((⟨m, e, j⟩ : CtxId) = ⟨n, b, i⟩) := by
      intro he; injection he with h1 h2 h3; exact h ⟨h1, h2⟩
    simp [State.ctx, h, this]

/-- A change of a stack that leaves its benches as they are leaves every context as it is. -/
theorem State.ctx_modStack (s : State) (n : Nat) (f : Stack → Stack)
    (hf : (f (s.stack n)).benches = (s.stack n).benches) (d : CtxId) :
    (s.modStack n f).ctx d = s.ctx d := by
  by_cases h : d.stack = n
  · subst h; simp [State.ctx, State.bench, Stack.bench, hf]
  · simp [State.ctx, State.bench, h]

@[simp] theorem State.port_setPort (s : State) (p : Nat) (x : Port) (q : Nat) :
    (s.setPort p x).port q = if q = p then x else s.port q := by
  simp [State.port, State.setPort]

@[simp] theorem State.port_modPort (s : State) (p : Nat) (f : Port → Port) (q : Nat) :
    (s.modPort p f).port q = if q = p then f (s.port p) else s.port q := by
  simp [State.modPort]

/-! ### Registers -/

theorem regLookup_regStore (v : Variant) (l : List (Reg × Word)) (r : Reg) (w : Word) (q : Reg) :
    regLookup v (regStore l r w) q = if q = r then w else regLookup v l q := by
  induction l with
  | nil => by_cases h : r = q <;> simp [regStore, regLookup, h, eq_comm]
  | cons p t ih =>
    obtain ⟨a, x⟩ := p
    by_cases ha : a = r
    · subst ha
      by_cases h : q = a <;> simp [regStore, regLookup, h, eq_comm]
    · by_cases h : a = q
      · subst h; simp [regStore, regLookup, ha]
      · simp [regStore, regLookup, ha, h, ih]

/-- A register reads what was stored in it, and every other register as before. -/
@[simp] theorem State.reg_setReg (s : State) (r : Reg) (w : Word) (q : Reg) :
    (s.setReg r w).reg q = if q = r then w else s.reg q := by
  simp [State.reg, State.setReg, regLookup_regStore]

/-- The bits of a field's mask. -/
theorem Field.getLsbD_mask (f : Field) (_h : f.lo ≤ f.hi) (h64 : f.hi < 64) (i : Nat) :
    f.mask.getLsbD i = (decide (f.lo ≤ i) && decide (i ≤ f.hi)) := by
  rw [Field.mask, BitVec.getLsbD_shiftLeft, BitVec.getLsbD_ushiftRight, BitVec.getLsbD_allOnes]
  by_cases h1 : f.lo ≤ i <;> by_cases h2 : i ≤ f.hi <;> simp [h1, h2] <;> omega

/-- A field set to a value holds its low bits. -/
theorem getF_setF (w : Word) (f : Field) (v : Nat) (h : f.lo ≤ f.hi) (h64 : f.hi < 64) :
    getF (setF w f v) f = v % 2 ^ (f.hi + 1 - f.lo) := by
  have : (setF w f v).extractLsb' f.lo (f.hi + 1 - f.lo) = BitVec.ofNat (f.hi + 1 - f.lo) v := by
    apply BitVec.eq_of_getLsbD_eq
    intro i hi
    have h1 : f.lo + i < 64 := by omega
    have h2 : f.lo + i ≤ f.hi := by omega
    simp only [setF, BitVec.getLsbD_extractLsb', hi, decide_true, Bool.true_and, BitVec.getLsbD_or,
      BitVec.getLsbD_and, BitVec.getLsbD_not, Field.getLsbD_mask f h h64, BitVec.getLsbD_shiftLeft,
      BitVec.getLsbD_ofNat]
    simp [h1, h2, (by omega : i < 64)]
  rw [getF, this, BitVec.toNat_ofNat]

/-- Setting a field leaves a field that it does not overlap as it was. -/
theorem getF_setF_other (w : Word) (f g : Field) (v : Nat) (h : f.lo ≤ f.hi) (h64 : f.hi < 64)
    (hg : g.hi < f.lo ∨ f.hi < g.lo) : getF (setF w f v) g = getF w g := by
  have : (setF w f v).extractLsb' g.lo (g.hi + 1 - g.lo) = w.extractLsb' g.lo (g.hi + 1 - g.lo) := by
    apply BitVec.eq_of_getLsbD_eq
    intro i hi
    have h2 : (decide (f.lo ≤ g.lo + i) && decide (g.lo + i ≤ f.hi)) = false := by
      rcases hg with hg | hg <;> simp <;> omega
    simp only [setF, BitVec.getLsbD_extractLsb', hi, decide_true, Bool.true_and, BitVec.getLsbD_or,
      BitVec.getLsbD_and, BitVec.getLsbD_not, Field.getLsbD_mask f h h64, h2]
    by_cases hb : g.lo + i < 64
    · simp [hb]
    · simp [BitVec.getLsbD_of_ge _ _ (by omega : 64 ≤ g.lo + i)]
  rw [getF, this, getF]

theorem State.fld_setFld (s : State) (r : Reg) (f : Field) (v : Nat) (h : f.lo ≤ f.hi) (h64 : f.hi < 64) :
    (s.setFld r f v).fld r f = v % 2 ^ (f.hi + 1 - f.lo) := by
  simp [State.fld, State.setFld, getF_setF _ f v h h64]

theorem State.fld_setFld_other (s : State) (r : Reg) (f g : Field) (v : Nat) (h : f.lo ≤ f.hi)
    (h64 : f.hi < 64) (hg : g.hi < f.lo ∨ f.hi < g.lo) : (s.setFld r f v).fld r g = s.fld r g := by
  simp [State.fld, State.setFld, getF_setF_other _ f g v h h64 hg]

@[simp] theorem State.fld_setFld_reg (s : State) (r q : Reg) (f g : Field) (v : Nat) (h : q ≠ r) :
    (s.setFld r f v).fld q g = s.fld q g := by
  simp [State.fld, State.setFld, h]

end Sys2Proof.Machine
end

