-- ==== Sys2Proof/Laws/Frames.lean ====
section
/-! SUPPORT. What the shared operations of a bench context change: the frames that the statements about
bench instructions are made of. -/

namespace Sys2Proof.Machine

/-! ### Frames -/

theorem SameOutsideCtx.refl (c : CtxId) (s : State) : SameOutsideCtx c s s :=
  ⟨rfl, fun _ _ => rfl, rfl, fun _ _ => rfl, rfl, fun _ _ => rfl⟩

theorem SameOutsideCtx.trans {c : CtxId} {s t u : State} (h : SameOutsideCtx c s t)
    (h' : SameOutsideCtx c t u) : SameOutsideCtx c s u := by
  obtain ⟨a1, a2, a3, a4, a5, a6⟩ := h
  obtain ⟨b1, b2, b3, b4, b5, b6⟩ := h'
  refine ⟨?_, fun n hn => (b2 n hn).trans (a2 n hn), ?_, fun b hb => (b4 b hb).trans (a4 b hb), ?_,
    fun j hj => (b6 j hj).trans (a6 j hj)⟩
  · rw [← a1, ← b1]
  · rw [← a3, ← b3]
  · rw [← a5, ← b5]

/-- A change of the context itself. -/
theorem SameOutsideCtx.modCtx (c : CtxId) (s : State) (g : Ctx → Ctx) :
    SameOutsideCtx c s (s.modCtx c g) := by
  obtain ⟨n, b, i⟩ := c
  refine ⟨rfl, fun m hm => ?_, ?_, fun d hd => ?_, ?_, fun j hj => ?_⟩
  · simp [State.stack_modCtx, show m ≠ n from hm]
  · simp [State.stack_modCtx, Stack.setBench]
  · simp [show d ≠ b from hd]
  · simp [Bench.setCtx]
  · simp [show j ≠ i from hj]

@[simp] theorem State.reqs_modCtx (s : State) (c : CtxId) (g : Ctx → Ctx) (n : Nat) :
    ((s.modCtx c g).stack n).reqs = (s.stack n).reqs := by
  by_cases h : n = c.stack
  · subst h; simp [State.stack_modCtx, Stack.setBench]
  · simp [State.stack_modCtx, h]

/-- A change of the requests of the context's stack. -/
theorem SameOutsideCtx.modReqs (c : CtxId) (s : State) (g : Stack → Stack)
    (hg : ∀ k, { g k with reqs := k.reqs } = k) : SameOutsideCtx c s (s.modStack c.stack g) := by
  have hb : ∀ k, (g k).benches = k.benches := by
    intro k
    have := congrArg Stack.benches (hg k)
    exact this
  have hk : ∀ d, (g (s.stack c.stack)).bench d = (s.stack c.stack).bench d := by
    intro d; simp [Stack.bench, hb]
  refine ⟨rfl, fun m hm => by simp [hm], ?_, fun b hb' => ?_, ?_, fun j hj => ?_⟩
  · simp only [State.stack_modStack, if_true]
    conv => rhs; rw [← hg (s.stack c.stack)]
    simp [hb]
  · simp [State.bench, hk]
  · simp [State.bench, hk]
  · simp [State.ctx, State.bench, hk]

/-! ### The state that a context shows -/

/-- `refresh` changes at most the state that a context in a live state shows, and its timer. -/
theorem State.refresh_cases (s : State) (c : CtxId) (h : (s.ctx c).st ≠ .hung) :
    s.refresh c = s ∨ ∃ st, s.refresh c = s.modCtx c (fun x => x.enter s.now st) := by
  unfold State.refresh
  split
  any_goals (split)
  all_goals first
    | exact .inl rfl
    | exact .inr ⟨_, rfl⟩
    | (rename_i hh; exact absurd hh h)

/-- A context is changed by `g`, which leaves the state that it shows, and then shows what it waits for. -/
theorem CtxBecomes.of_modCtx_refresh (s : State) (c : CtxId) (g : Ctx → Ctx) (hr : (s.ctx c).st = .run)
    (hg : (g (s.ctx c)).st = (s.ctx c).st ∧ (g (s.ctx c)).timerAcc = (s.ctx c).timerAcc
      ∧ (g (s.ctx c)).timerFrom = (s.ctx c).timerFrom) :
    CtxBecomes c g s ((s.modCtx c g).refresh c) := by
  have hst : ((s.modCtx c g).ctx c).st ≠ .hung := by simp [hg.1, hr]
  rcases State.refresh_cases (s.modCtx c g) c hst with h | ⟨st, h⟩
  · rw [h]
    refine ⟨?_, SameOutsideCtx.modCtx c s g, by simp⟩
    simp [← hg.1, ← hg.2.1, ← hg.2.2]
  · rw [h]
    refine ⟨?_, (SameOutsideCtx.modCtx c s g).trans (SameOutsideCtx.modCtx c _ _), by simp⟩
    simp [Ctx.enter, ← hg.1, ← hg.2.1, ← hg.2.2]

/-! ### Events of one step, and single-bit errors -/

/-- Fewer than two events, and none that found no room, stand in their order already. -/
theorem State.orderEvents_of_few {s old : State} {n : Nat} (h : s.newEvents old n < 2)
    (hu : (s.stack n).unposted = (old.stack n).unposted) : s.orderEvents old n = s := by
  simp [State.orderEvents, h, hu]

/-- A step that posts fewer than two events to each stack, with room for each, ends as it stands. -/
theorem inOrder_of_few {s t : State} (h : ∀ n < 8, t.newEvents s n < 2 ∧ (t.stack n).unposted = (s.stack n).unposted) :
    inOrder s (.next t) = .next t := by
  have : ∀ l : List Nat, (∀ n ∈ l, n < 8) → l.foldl (fun u n => u.orderEvents s n) t = t := by
    intro l
    induction l with
    | nil => intro _; rfl
    | cons n l ih =>
      intro hl
      rw [List.foldl_cons, State.orderEvents_of_few (h n (hl n (by simp))).1 (h n (hl n (by simp))).2]
      exact ih (fun m hm => hl m (by simp [hm]))
  simp only [inOrder, this (List.range 8) (fun n hn => List.mem_range.1 hn)]

/-- An access to drawer words without a single-bit error corrects nothing. -/
theorem State.correct_of_clean {s : State} {n b a len : Nat}
    (h : touched (s.stack n).drawerSoft (drawerKey b a) (drawerKey b a + len) = []) : s.correct n b a len = s := by
  simp [State.correct, h]

end Sys2Proof.Machine
end

