-- ==== Sys2Proof/Laws/Memory.lean ====
section
/-! SUPPORT. The canonical form of the memories: what keeps it, whatever else it changes. -/

namespace Sys2Proof.Machine

/-! ### The predicate -/

@[simp] theorem State.memWf_mk (a b c d e f g h i j k l m n o p q) :
    State.memWf (State.mk a b c d e f g h i j k l m n o p q) = memsWf m l := rfl

@[simp] theorem memsWf_fold (s : State) : memsWf s.hostMem s.stackTab = State.memWf s := rfl

@[simp] theorem Stack.memWf_mk (a0 a1 a2 a3 a4 a5 a6 a7 a8 a9 a10 a11 a12 a13 a14 a15 a16 a17 a18 a19 a20 a21 a22 a23 a24 a25 a26 a27 a28 a29
      a30 a31 a32 a33 a34 a35 a36 a37 a38 a39 a40 a41 a42 a43 a44 a45 a46 a47 a48 a49 a50 a51 a52 a53 a54 a55 a56 a57
      a58 a59 a60 a61 a62 a63 a64 a65 a66 a67) :
    Stack.memWf (Stack.mk a0 a1 a2 a3 a4 a5 a6 a7 a8 a9 a10 a11 a12 a13 a14 a15 a16 a17 a18 a19 a20 a21 a22 a23 a24 a25 a26 a27 a28 a29
      a30 a31 a32 a33 a34 a35 a36 a37 a38 a39 a40 a41 a42 a43 a44 a45 a46 a47 a48 a49 a50 a51 a52 a53 a54 a55 a56 a57
      a58 a59 a60 a61 a62 a63 a64 a65 a66 a67) =
      (Mem.wf a6 && Mem.wf a7 && Mem.wf a1 && Mem.wf a5) := rfl

@[simp] theorem Stack.memWf_fold (k : Stack) :
    (Mem.wf k.near && Mem.wf k.far && Mem.wf k.drawer && Mem.wf k.sram) = k.memWf := rfl

theorem Stack.memWf_reset : Stack.reset.memWf = true := rfl

theorem State.memWf.stack {s : State} (h : s.memWf) (n : Nat) : (s.stack n).memWf = true := h.2 n

theorem State.memWf.host {s : State} (h : s.memWf) : Mem.wf s.hostMem = true := h.1

theorem memsWf_put {m : Mem} {t : Tab Stack} {n : Nat} {k : Stack} (h : memsWf m t) (hk : k.memWf = true) :
    memsWf m (Tab.put t n k) := by
  refine ⟨h.1, fun j => ?_⟩
  rw [Tab.get_put]
  split
  · exact hk
  · exact h.2 j

theorem memsWf_host {m m' : Mem} {t : Tab Stack} (h : memsWf m t) (hm : Mem.wf m' = true) : memsWf m' t := ⟨hm, h.2⟩

@[simp] theorem State.setStack_memWf {s : State} (h : s.memWf) (n : Nat) {k : Stack} (hk : k.memWf = true) :
    (s.setStack n k).memWf := memsWf_put h hk

theorem State.modStack_memWf {s : State} (h : s.memWf) (n : Nat) {f : Stack → Stack}
    (hf : ∀ k : Stack, k.memWf = true → (f k).memWf = true) : (s.modStack n f).memWf :=
  memsWf_put h (hf _ (h.2 n))

/-- A change of a stack that leaves its memories alone. -/
def KeepsMem (f : Stack → Stack) : Prop := ∀ k : Stack, (f k).memWf = k.memWf

@[simp] theorem KeepsMem_iff (f : Stack → Stack) : KeepsMem f ↔ ∀ k : Stack, (f k).memWf = k.memWf := Iff.rfl

@[simp] theorem State.modStack_memWf_same {s : State} (h : s.memWf) (n : Nat) {f : Stack → Stack} (hf : KeepsMem f) :
    (s.modStack n f).memWf :=
  s.modStack_memWf h n (fun k hk => (hf k).trans hk)

@[simp] theorem memWf_ite {c : Prop} [Decidable c] {a b : State} (ha : a.memWf) (hb : b.memWf) :
    (if c then a else b).memWf := by split <;> assumption

theorem memWf_foldl {α : Type} {f : State → α → State} (hf : ∀ s a, s.memWf → (f s a).memWf) (l : List α)
    {s : State} (h : s.memWf) : (l.foldl f s).memWf := by
  induction l generalizing s with
  | nil => exact h
  | cons x t ih => exact ih (hf s x h)

/-! ### Answers -/

/-- Where the answer is a next state, its memories are in their canonical form. -/
def ResWf (r : Res) : Prop := ∀ t, r = .next t → t.memWf

@[simp] theorem ResWf_next (s : State) : ResWf (.next s) ↔ s.memWf :=
  ⟨fun h => h s rfl, fun h t e => by cases e; exact h⟩

@[simp] theorem ResWf_noUnit : ResWf noUnit := fun t e => by cases e

@[simp] theorem ResWf_ite {c : Prop} [Decidable c] {a b : Res} (ha : ResWf a) (hb : ResWf b) :
    ResWf (if c then a else b) := by split <;> assumption

@[simp] theorem ResWf_whenOk (b : Bool) {s t : State} (hs : s.memWf) (ht : t.memWf) : ResWf (whenOk b s t) := by
  simp only [whenOk, ResWf_next]; split <;> assumption

@[simp] theorem ResWf_onStack (n : Nat) {r : Res} (h : ResWf r) : ResWf (onStack n r) := by simp [onStack, h]
@[simp] theorem ResWf_onBench (n b : Nat) {r : Res} (h : ResWf r) : ResWf (onBench n b r) := by simp [onBench, h]
@[simp] theorem ResWf_onCtx (c : CtxId) {r : Res} (h : ResWf r) : ResWf (onCtx c r) := by simp [onCtx, h]
@[simp] theorem ResWf_onPort (p : Nat) {r : Res} (h : ResWf r) : ResWf (onPort p r) := by simp [onPort, h]
@[simp] theorem ResWf_onRing (p : Nat) {r : Res} (h : ResWf r) : ResWf (onRing p r) := by simp [onRing, h]

end Sys2Proof.Machine
end

