-- ==== Sys2Proof/Laws/MemStacks.lean ====
section
/-! SUPPORT. The canonical form of a stack's memories (`Stack.memWf`), and of the module's
(`State.memWf`), through the updates every command is built from. -/
namespace Sys2Proof.Machine

@[simp] theorem Stack.untrack_memWf (k : Stack) (a) (b) : (k.untrack a b).memWf = k.memWf := rfl
@[simp] theorem Stack.forgetHolder_memWf (k : Stack) (a) : (k.forgetHolder a).memWf = k.memWf := by
  unfold Stack.forgetHolder
  generalize k.invals.filter _ = l
  induction l generalizing k with
  | nil => rfl
  | cons x t ih => exact (ih _).trans (Stack.untrack_memWf _ _ _)
@[simp] theorem Stack.record_memWf (k : Stack) (a) : (k.record a).memWf = k.memWf := rfl
@[simp] theorem Stack.closeFault_memWf (k : Stack) (a) : (k.closeFault a).memWf = k.memWf := rfl
@[simp] theorem Stack.leaveFaults_memWf (k : Stack) (a) (b) : (k.leaveFaults a b).memWf = k.memWf := rfl
@[simp] theorem Stack.setLineErr_memWf (k : Stack) (a) (b) (c) : (k.setLineErr a b c).memWf = k.memWf := by
  unfold Stack.setLineErr
  try dsimp only
  split <;> rfl
@[simp] theorem Stack.setMark_memWf (k : Stack) (a) (b) (c) : (k.setMark a b c).memWf = k.memWf := by
  unfold Stack.setMark
  try dsimp only
  split <;> rfl
@[simp] theorem Stack.fillTlb_memWf (k : Stack) (a) (b) : (k.fillTlb a b).memWf = k.memWf := by
  unfold Stack.fillTlb
  try dsimp only
  split <;> rfl
@[simp] theorem Stack.setBench_memWf (k : Stack) (a) (b) : (k.setBench a b).memWf = k.memWf := rfl
@[simp] theorem Stack.dropDest_memWf (k : Stack) (a) (b) (c) : (k.dropDest a b c).memWf = k.memWf := rfl
@[simp] theorem Stack.dropCtxReqs_memWf (k : Stack) (a) (b) : (k.dropCtxReqs a b).memWf = k.memWf := rfl
@[simp] theorem Stack.dropLeft_memWf (k : Stack) (a) (b) : (k.dropLeft a b).memWf = k.memWf := rfl
@[simp] theorem Stack.joinWalk_memWf (k : Stack) (a) (b) (c) : (k.joinWalk a b c).memWf = k.memWf := rfl
@[simp] theorem Stack.joinFault_memWf (k : Stack) (a) (b) (c) : (k.joinFault a b c).memWf = k.memWf := rfl
@[simp] theorem Stack.noteUser_memWf (k : Stack) (e) (src) : (k.noteUser e src).memWf = k.memWf := by
  unfold Stack.noteUser
  split
  · split <;> rfl
  all_goals rfl
@[simp] theorem Stack.dropUnsent_memWf (k : Stack) (a) : (k.dropUnsent a).memWf = k.memWf := rfl
@[simp] theorem Stack.killReqs_memWf (k : Stack) (a) (b) : (k.killReqs a b).memWf = k.memWf := rfl
@[simp] theorem Stack.released_memWf (k : Stack)  : k.released.memWf = k.memWf := rfl
@[simp] theorem Stack.lowerCause_memWf (k : Stack) (a) (b) : (k.lowerCause a b).memWf = k.memWf := rfl
@[simp] theorem Stack.track_memWf (k : Stack) (a) (b) : (k.track a b).memWf = k.memWf := by
  unfold Stack.track
  try dsimp only
  split <;> rfl
@[simp] theorem Stack.leaveMisses_memWf (k : Stack) (a) : (k.leaveMisses a).memWf = k.memWf := rfl
@[simp] theorem Stack.awaitWalker_memWf (k : Stack) (a) (b) : (k.awaitWalker a b).memWf = k.memWf := by
  unfold Stack.awaitWalker
  split <;> rfl
@[simp] theorem Stack.setMode_memWf (k : Stack) (a) (b) : (k.setMode a b).memWf = k.memWf := rfl
@[simp] theorem Stack.miss_memWf (k : Stack) (a) (b) (c) : (k.miss a b c).memWf = k.memWf := by
  unfold Stack.miss
  split
  · simp
  split
  · simp
  · rfl

theorem Stack.memWf_iff (k : Stack) : k.memWf = true ↔
    Mem.wf k.near = true ∧ Mem.wf k.far = true ∧ Mem.wf k.drawer = true ∧ Mem.wf k.sram = true := by
  unfold Stack.memWf
  simp only [Bool.and_eq_true, and_assoc]

@[simp] theorem Stack.zeroed_memWf {k : Stack} (h : k.memWf = true) : k.zeroed.memWf = true := by
  rw [Stack.memWf_iff] at *
  exact ⟨h.1, h.2.1, rfl, rfl⟩
@[simp] theorem Stack.blankTiers_memWf {k : Stack} (h : k.memWf = true) : k.blankTiers.memWf = true := by
  rw [Stack.memWf_iff] at *
  exact ⟨rfl, rfl, h.2.2⟩
@[simp] theorem Stack.cycled_memWf {k : Stack} (h : k.memWf = true) : k.cycled.memWf = true := by
  rw [Stack.memWf_iff] at *
  exact ⟨h.1, h.2.1, rfl, rfl⟩
@[simp] theorem Stack.setTier_memWf {k : Stack} (h : k.memWf = true) (far) {m} (hm : Mem.wf m = true) :
    (k.setTier far m).memWf = true := by
  unfold Stack.setTier
  rw [Stack.memWf_iff] at h
  split <;> rw [Stack.memWf_iff]
  · exact ⟨h.1, hm, h.2.2⟩
  · exact ⟨hm, h.2⟩
theorem Mem.wf_writeWhere (p : Nat → Bool) (bs : List Byte) (m : Mem) (a : Nat) (h : Mem.wf m = true) :
    Mem.wf (Mem.writeWhere p m a bs) = true := by
  induction bs generalizing m a with
  | nil => exact h
  | cons b bs ih =>
    refine ih _ _ ?_
    split
    · exact Mem.wf_write m a b h
    · exact h
theorem Stack.sram_wf {k : Stack} (h : k.memWf = true) : Mem.wf k.sram = true := ((Stack.memWf_iff k).1 h).2.2.2
theorem Stack.drawer_wf {k : Stack} (h : k.memWf = true) : Mem.wf k.drawer = true := ((Stack.memWf_iff k).1 h).2.2.1
theorem Stack.tier_wf {k : Stack} (h : k.memWf = true) (far) : Mem.wf (k.tier far) = true := by
  rw [Stack.memWf_iff] at h
  unfold Stack.tier
  split
  · exact h.2.1
  · exact h.1
theorem Stack.memWf_sram {k : Stack} (h : k.memWf = true) {m : Mem} (hm : Mem.wf m = true) :
    ({ k with sram := m } : Stack).memWf = true := by
  rw [Stack.memWf_iff] at *
  exact ⟨h.1, h.2.1, h.2.2.1, hm⟩
theorem Stack.memWf_drawer {k : Stack} (h : k.memWf = true) {m : Mem} (hm : Mem.wf m = true) :
    ({ k with drawer := m } : Stack).memWf = true := by
  rw [Stack.memWf_iff] at *
  exact ⟨h.1, h.2.1, hm, h.2.2.2⟩
@[simp] theorem Stack.putDrawer_memWf {k : Stack} (h : k.memWf = true) (b a bs) :
    (k.putDrawer b a bs).memWf = true := Stack.memWf_drawer h (Mem.wf_writeWhere _ _ _ _ (Stack.drawer_wf h))
@[simp] theorem Stack.poisonLine_memWf {k : Stack} (h : k.memWf = true) (far line) :
    (k.poisonLine far line).memWf = true :=
  Stack.setTier_memWf (by simpa using h) _ (Mem.wf_clear _ _ _ (Stack.tier_wf h _))
@[simp] theorem Stack.putLine_memWf {k : Stack} (h : k.memWf = true) (far line a bs) :
    (k.putLine far line a bs).memWf = true := by
  refine Stack.setTier_memWf (by simpa using h) _ (Mem.wf_writeBytes _ _ _ ?_)
  split
  · exact Mem.wf_clear _ _ _ (Stack.tier_wf h _)
  · exact Stack.tier_wf h _
@[simp] theorem Stack.writeBack_memWf {k : Stack} (h : k.memWf = true) (far blank bad line) :
    (k.writeBack far blank bad line).memWf = true := by
  unfold Stack.writeBack
  split
  · exact Stack.setTier_memWf (by simpa using h) _ (Mem.wf_clear _ _ _ (Stack.tier_wf h _))
  split
  · exact Stack.poisonLine_memWf h _ _
  · simpa using h
@[simp] theorem Stack.fixWords_memWf (k : Stack) (ws) : (k.fixWords ws).memWf = k.memWf := rfl
@[simp] theorem Stack.orderFound_memWf (k old : Stack) : (k.orderFound old).memWf = k.memWf := rfl
@[simp] theorem Stack.takeTurn_memWf (k : Stack) (line p) : (k.takeTurn line p).memWf = k.memWf := rfl
@[simp] theorem Stack.dropHold_memWf (k : Stack) (p) : (k.dropHold p).memWf = k.memWf := rfl
@[simp] theorem Stack.dueRow_memWf (k : Stack) (row) : (k.dueRow row).memWf = k.memWf := by
  unfold Stack.dueRow; split <;> rfl
@[simp] theorem Stack.goesWrong_memWf (k : Stack) (far line wrong) : (k.goesWrong far line wrong).memWf = k.memWf :=
  Stack.setLineErr_memWf k _ _ _
@[simp] theorem Stack.patrolled_memWf (k : Stack) (far line) : (k.patrolled far line).memWf = k.memWf := by
  unfold Stack.patrolled; split <;> rfl

theorem Tab.rising_append {α : Type} (s t : Tab α) (lo m : Nat) (hs : Tab.rising lo s = true) (hb : ∀ p ∈ s, p.1 < m)
    (hlo : lo ≤ m) (ht : Tab.rising m t = true) : Tab.rising lo (s ++ t) = true := by
  induction s generalizing lo with
  | nil => exact Tab.rising_mono _ hlo ht
  | cons q s ih =>
    obtain ⟨j, v⟩ := q
    have hj := hb (j, v) (by simp)
    simp only [Tab.rising, Bool.and_eq_true, List.cons_append] at hs ⊢
    exact ⟨hs.1, ih (j + 1) hs.2 (fun p hp => hb p (by simp [hp])) hj⟩

theorem Tab.rising_from {α : Type} (t : Tab α) (lo m : Nat) (h : Tab.rising lo t = true) :
    Tab.rising m (t.filter (fun p => decide (m ≤ p.1))) = true := by
  induction t generalizing lo with
  | nil => rfl
  | cons q t ih =>
    obtain ⟨j, v⟩ := q
    simp only [Tab.rising, Bool.and_eq_true] at h
    by_cases hj : m ≤ j
    · simp only [List.filter_cons, hj, decide_true, if_true, Tab.rising, Bool.and_eq_true, true_and]
      exact Tab.rising_filter t _ (j + 1) h.2
    · simp only [List.filter_cons, hj, decide_false]
      exact ih (j + 1) h.2

theorem Tab.rising_listed {α : Type} [DecidableEq α] (d : α) (l : List α) (k : Nat) :
    Tab.rising k (listed d k l) = true ∧ ∀ p ∈ listed d k l, p.1 < k + l.length ∧ p.2 ≠ d := by
  induction l generalizing k with
  | nil => exact ⟨rfl, fun p hp => by cases hp⟩
  | cons x l ih =>
    obtain ⟨h1, h2⟩ := ih (k + 1)
    unfold listed
    split
    · exact ⟨Tab.rising_mono _ (by omega) h1, fun p hp => ⟨by have := (h2 p hp).1; simp; omega, (h2 p hp).2⟩⟩
    · rename_i hx
      refine ⟨by simp [Tab.rising, h1], fun p hp => ?_⟩
      rcases List.mem_cons.1 hp with rfl | hp
      · exact ⟨by simp, hx⟩
      · exact ⟨by have := (h2 p hp).1; simp; omega, (h2 p hp).2⟩

theorem Mem.wf_splice (m : Mem) (k : Nat) (bs : List Byte) (h : Mem.wf m = true) :
    Mem.wf (Tab.splice Mem.unlisted m k bs) = true := by
  simp only [Mem.wf, Bool.and_eq_true, List.all_eq_true, decide_eq_true_eq] at *
  obtain ⟨h1, h2⟩ := Tab.rising_listed Mem.unlisted bs k
  refine ⟨?_, fun p hp => ?_⟩
  · refine Tab.rising_append _ _ 0 (k + bs.length) (Tab.rising_append _ _ 0 k (Tab.rising_filter m _ 0 h.1)
      (fun p hp => by simpa using (List.mem_filter.1 hp).2) (Nat.zero_le _) h1) (fun p hp => ?_) (Nat.zero_le _)
      (Tab.rising_from m 0 _ h.1)
    rcases List.mem_append.1 hp with hp | hp
    · have := (List.mem_filter.1 hp).2
      simp at this
      omega
    · exact (h2 p hp).1
  · rcases List.mem_append.1 hp with hp | hp
    · rcases List.mem_append.1 hp with hp | hp
      · exact h.2 p (List.mem_filter.1 hp).1
      · exact (h2 p hp).2
    · exact h.2 p (List.mem_filter.1 hp).1
theorem answer_foldl {α : Type} {f : Answer → α → Answer} (hf : ∀ a x, a.state.memWf → (f a x).state.memWf)
    (l : List α) {a : Answer} (h : a.state.memWf) : (l.foldl f a).state.memWf := by
  induction l generalizing a with
  | nil => exact h
  | cons x t ih => exact ih (hf a x h)
theorem memWf_foldl_fst {α β : Type} {f : State × β → α → State × β} (hf : ∀ p a, p.1.memWf → (f p a).1.memWf)
    (l : List α) {p : State × β} (h : p.1.memWf) : (l.foldl f p).1.memWf := by
  induction l generalizing p with
  | nil => exact h
  | cons x t ih => exact ih (hf p x h)

end Sys2Proof.Machine
end

