-- ==== Sys2Proof/Laws/MemCores.lean ====
section
/-! SUPPORT. Every operation and meaning of the stack instructions and what they share keeps the canonical
form of the memories (`State.memWf`): one lemma each, named `<definition>_memWf`. -/
namespace Sys2Proof.Machine

/-! #### Regs.lean -/

@[simp] theorem State.setReg_memWf {s : State} (h : s.memWf) (r : Reg) (w : Word) : (State.setReg s r w).memWf := by simp (maxDischargeDepth := 99) [State.setReg, h]

@[simp] theorem State.setFld_memWf {s : State} (h : s.memWf) (r : Reg) (f : Field) (v : Nat) : (State.setFld s r f v).memWf := by simp (maxDischargeDepth := 99) [State.setFld, h]

@[simp] theorem State.setBit_memWf {s : State} (h : s.memWf) (r : Reg) (f : Field) (b : Bool) : (State.setBit s r f b).memWf := by simp (maxDischargeDepth := 99) [State.setBit, h]

@[simp] theorem State.satFld_memWf {s : State} (h : s.memWf) (r : Reg) (f : Field) (n : Nat) : (State.satFld s r f n).memWf := by simp (maxDischargeDepth := 99) [State.satFld, h]

@[simp] theorem State.resetReg_memWf {s : State} (h : s.memWf) (r : Reg) : (State.resetReg s r).memWf := by simp (maxDischargeDepth := 99) [State.resetReg, h]

/-! #### Ops.lean -/

@[simp] theorem State.setBench_memWf {s : State} (h : s.memWf) (n : Nat) (b : Nat) (x3 : Bench) : (State.setBench s n b x3).memWf := by simp (maxDischargeDepth := 99) [State.setBench, h]

@[simp] theorem State.modBench_memWf {s : State} (h : s.memWf) (n : Nat) (b : Nat) (f : Bench → Bench) : (State.modBench s n b f).memWf := by simp (maxDischargeDepth := 99) [State.modBench, h]

@[simp] theorem State.setCtx_memWf {s : State} (h : s.memWf) (c : CtxId) (y : Ctx) : (State.setCtx s c y).memWf := by simp (maxDischargeDepth := 99) [State.setCtx, h]

@[simp] theorem State.modCtx_memWf {s : State} (h : s.memWf) (c : CtxId) (f : Ctx → Ctx) : (State.modCtx s c f).memWf := by simp (maxDischargeDepth := 99) [State.modCtx, h]

@[simp] theorem State.setPort_memWf {s : State} (h : s.memWf) (p : Nat) (x2 : Port) : (State.setPort s p x2).memWf := by simp (maxDischargeDepth := 99) [State.setPort, h]

@[simp] theorem State.modPort_memWf {s : State} (h : s.memWf) (p : Nat) (f : Port → Port) : (State.modPort s p f).memWf := by simp (maxDischargeDepth := 99) [State.modPort, h]

@[simp] theorem State.takeFree_memWf {s : State} (h : s.memWf)  : (State.takeFree s).2.memWf := by simp (maxDischargeDepth := 99) [State.takeFree, h]

@[simp] theorem State.emit_memWf {s : State} (h : s.memWf) (o : Output) : (State.emit s o).memWf := by simp (maxDischargeDepth := 99) [State.emit, h]

@[simp] theorem State.fresh_memWf {s : State} (h : s.memWf)  : (State.fresh s).2.memWf := by simp (maxDischargeDepth := 99) [State.fresh, h]

@[simp] theorem State.quiet_memWf {s : State} (h : s.memWf) (r : Nat) (k : Nat) : (State.quiet s r k).memWf := by simp (maxDischargeDepth := 99) [State.quiet, h]

@[simp] theorem State.event_memWf {s : State} (h : s.memWf) (n : Nat) (code : Nat) (bench : Nat) (ctx : Nat) (detail : Nat) : (State.event s n code bench ctx detail).memWf := by
  unfold State.event
  dsimp only
  split
  · exact h
  split
  · exact State.satFld_memWf h _ _ _
  split
  · exact State.satFld_memWf (State.setBit_memWf (State.modStack_memWf_same h n (by intro k; rfl)) _ _ _) _ _ _
  · exact State.setFld_memWf (State.modStack_memWf h n (fun _ hk => Stack.memWf_sram hk (Mem.wf_writeBytes _ _ _ (Stack.sram_wf hk)))) _ _ _

theorem Mem.wf_foldPut {α : Type} (a : α → Nat) (b : α → List Byte) (l : List α) (m : Mem) (h : Mem.wf m = true) :
    Mem.wf (l.foldl (fun m x => Mem.writeBytes m (a x) (b x)) m) = true := by
  induction l generalizing m with
  | nil => exact h
  | cons x t ih => exact ih _ (Mem.wf_writeBytes _ _ _ h)

@[simp] theorem State.orderEvents_memWf {s : State} (h : s.memWf) (old : State) (n : Nat) :
    (State.orderEvents s old n).memWf := by
  unfold State.orderEvents
  dsimp only
  split
  · split
    · exact h
    · exact State.modStack_memWf_same h _ (by intro k; rfl)
  · refine State.modStack_memWf h _ (fun k hk => ?_)
    rw [Stack.memWf_iff] at *
    exact ⟨hk.1, hk.2.1, hk.2.2.1, Mem.wf_foldPut _ _ _ _ hk.2.2.2⟩

theorem inOrder_memWf {s : State} {r : Res} (h : ResWf r) : ResWf (inOrder s r) := by
  intro t e
  cases r with
  | next u =>
    have hu : u.memWf := h _ rfl
    simp only [inOrder] at e
    injection e with e
    subst e
    refine memWf_foldl ?_ _ hu
    intro a n ha
    exact State.orderEvents_memWf ha _ _
  | fault f => exact h _ e
  | refused f => exact h _ e

@[simp] theorem State.eventAll_memWf {s : State} (h : s.memWf) (code : Nat) (detail : Nat) : (State.eventAll s code detail).memWf := by
  unfold State.eventAll
  repeat' first
    | assumption
    | with_reducible apply State.event_memWf
    | with_reducible apply memWf_foldl
    | with_reducible apply memWf_foldl_fst
    | (intro _ _ _)
    | split
    | dsimp only

@[simp] theorem State.msix_memWf {s : State} (h : s.memWf) (v : Nat) : (State.msix s v).memWf := by
  unfold State.msix
  dsimp only
  repeat' split
  all_goals simp (maxDischargeDepth := 99) [h]

@[simp] theorem State.notify_memWf {s : State} (h : s.memWf) (f : Field) : (State.notify s f).memWf := by simp (maxDischargeDepth := 99) [State.notify, h]

@[simp] theorem State.modSw_memWf {s : State} (h : s.memWf) (f : Switch → Switch) : (State.modSw s f).memWf := by simp (maxDischargeDepth := 99) [State.modSw, h]

@[simp] theorem State.arrive_memWf {s : State} (h : s.memWf) (port : Nat) (p : Packet) : (State.arrive s port p).memWf := by simp (maxDischargeDepth := 99) [State.arrive, h]

@[simp] theorem State.sendMgmt_memWf {s : State} (h : s.memWf) (src : BitVec 16) (dst : BitVec 16) (type : Nat) (fields : List Byte) : (State.sendMgmt s src dst type fields).memWf := by simp (maxDischargeDepth := 99) [State.sendMgmt, h]

@[simp] theorem State.mgmtTo_memWf {s : State} (h : s.memWf) (src : BitVec 16) (dst : BitVec 16) (type : Nat) (fields : List Byte) : (State.mgmtTo s src dst type fields).memWf := by simp (maxDischargeDepth := 99) [State.mgmtTo, h]

@[simp] theorem State.mgmt_memWf {s : State} (h : s.memWf) (src : BitVec 16) (type : Nat) (fields : List Byte) : (State.mgmt s src type fields).memWf := by simp (maxDischargeDepth := 99) [State.mgmt, h]

@[simp] theorem State.notice_memWf {s : State} (h : s.memWf) (cause : Nat) (stack : Nat) (fields : List Byte) : (State.notice s cause stack fields).memWf := by
  unfold State.notice
  repeat' first
    | assumption
    | with_reducible apply State.mgmt_memWf
    | with_reducible apply State.notify_memWf
    | with_reducible apply State.satFld_memWf
    | with_reducible apply State.setFld_memWf
    | split
    | dsimp only

/-! #### Operands.lean -/

@[simp] theorem State.dropDest_memWf {s : State} (h : s.memWf) (c : CtxId) (key : Nat) : (State.dropDest s c key).memWf := by simp (maxDischargeDepth := 99) [State.dropDest, h]

@[simp] theorem State.writeS_memWf {s : State} (h : s.memWf) (c : CtxId) (r : Nat) (v : Word) : (State.writeS s c r v).memWf := by simp (maxDischargeDepth := 99) [State.writeS, h]

@[simp] theorem State.writeV_memWf {s : State} (h : s.memWf) (c : CtxId) (v : Nat) (ls : List Lane) : (State.writeV s c v ls).memWf := by simp (maxDischargeDepth := 99) [State.writeV, h]

@[simp] theorem State.writeK_memWf {s : State} (h : s.memWf) (c : CtxId) (k : Nat) (m : Word) : (State.writeK s c k m).memWf := by simp (maxDischargeDepth := 99) [State.writeK, h]

@[simp] theorem State.enter_memWf {s : State} (h : s.memWf) (c : CtxId) (st : CtxSt) : (State.enter s c st).memWf := by simp (maxDischargeDepth := 99) [State.enter, h]

@[simp] theorem State.stop_memWf {s : State} (h : s.memWf) (c : CtxId) (cause : Nat) : (State.stop s c cause).memWf := by simp (maxDischargeDepth := 99) [State.stop, h]

@[simp] theorem State.correct_memWf {s : State} (h : s.memWf) (n : Nat) (b : Nat) (a : Nat) (len : Nat) : (State.correct s n b a len).memWf := by
  unfold State.correct
  repeat' split
  all_goals simp (maxDischargeDepth := 99) [h]

@[simp] theorem State.quietBy_memWf {s : State} (h : s.memWf) (r : Nat) (k : Nat) (n : Nat) : (State.quietBy s r k n).memWf := by simp (maxDischargeDepth := 99) [State.quietBy, h]

@[simp] theorem State.storeDrawer_memWf {s : State} (h : s.memWf) (n b a : Nat) (bs : List Byte) :
    (s.storeDrawer n b a bs).memWf :=
  State.quietBy_memWf (State.modStack_memWf h _ (fun _ hk => Stack.putDrawer_memWf hk _ _ _)) _ _ _

@[simp] theorem State.ctxCorrect_memWf {s : State} (h : s.memWf) (c : CtxId) (a : Nat) (len : Nat) : (State.ctxCorrect s c a len).memWf := by simp (maxDischargeDepth := 99) [State.ctxCorrect, h]

/-! #### Contexts.lean -/

@[simp] theorem State.refresh_memWf {s : State} (h : s.memWf) (c : CtxId) : (State.refresh s c).memWf := by
  unfold State.refresh
  repeat' split
  all_goals simp (maxDischargeDepth := 99) [h]

@[simp] theorem State.endWait_memWf {s : State} (h : s.memWf) (c : CtxId) (p : Wait → Bool) : (State.endWait s c p).memWf := by simp (maxDischargeDepth := 99) [State.endWait, h]

@[simp] theorem State.addWait_memWf {s : State} (h : s.memWf) (c : CtxId) (w : Wait) : (State.addWait s c w).memWf := by simp (maxDischargeDepth := 99) [State.addWait, h]

theorem lone_memWf {s : State} {c : CtxId} {ok : Bool} {eff : Ctx → State → State} (h : s.memWf)
    (he : (eff (s.ctx c) s).memWf) : ResWf (lone s c ok eff) :=
  ResWf_onCtx _ (ResWf_whenOk _ h (State.refresh_memWf he _))

@[simp] theorem State.enterHalted_memWf {s : State} (h : s.memWf) (c : CtxId) : (State.enterHalted s c).memWf := by simp (maxDischargeDepth := 99) [State.enterHalted, h]

/-! #### Scalar.lean -/

@[simp] theorem alu_memWf {s : State} (h : s.memWf) (g : Word → Word → Word → Word) (c : CtxId) (f : SForm) (old : Ctx) : (alu g c f old s).memWf := by simp (maxDischargeDepth := 99) [alu, h]

@[simp] theorem effSli_memWf {s : State} (h : s.memWf) (c : CtxId) (f : SForm) (_old : Ctx) : (effSli c f _old s).memWf := by simp (maxDischargeDepth := 99) [effSli, h]

@[simp] theorem effSlih_memWf {s : State} (h : s.memWf) (c : CtxId) (f : SForm) (old : Ctx) : (effSlih c f old s).memWf := by simp (maxDischargeDepth := 99) [effSlih, h]

@[simp] theorem effSadd_memWf {s : State} (h : s.memWf) (c : CtxId) (f : SForm) (old : Ctx) : (effSadd c f old s).memWf := by simp (maxDischargeDepth := 99) [effSadd, h]

@[simp] theorem effSaddi_memWf {s : State} (h : s.memWf) (c : CtxId) (f : SForm) (old : Ctx) : (effSaddi c f old s).memWf := by simp (maxDischargeDepth := 99) [effSaddi, h]

@[simp] theorem effSsub_memWf {s : State} (h : s.memWf) (c : CtxId) (f : SForm) (old : Ctx) : (effSsub c f old s).memWf := by simp (maxDischargeDepth := 99) [effSsub, h]

@[simp] theorem effSmul_memWf {s : State} (h : s.memWf) (c : CtxId) (f : SForm) (old : Ctx) : (effSmul c f old s).memWf := by simp (maxDischargeDepth := 99) [effSmul, h]

@[simp] theorem effSand_memWf {s : State} (h : s.memWf) (c : CtxId) (f : SForm) (old : Ctx) : (effSand c f old s).memWf := by simp (maxDischargeDepth := 99) [effSand, h]

@[simp] theorem effSor_memWf {s : State} (h : s.memWf) (c : CtxId) (f : SForm) (old : Ctx) : (effSor c f old s).memWf := by simp (maxDischargeDepth := 99) [effSor, h]

@[simp] theorem effSxor_memWf {s : State} (h : s.memWf) (c : CtxId) (f : SForm) (old : Ctx) : (effSxor c f old s).memWf := by simp (maxDischargeDepth := 99) [effSxor, h]

@[simp] theorem effSshl_memWf {s : State} (h : s.memWf) (c : CtxId) (f : SForm) (old : Ctx) : (effSshl c f old s).memWf := by simp (maxDischargeDepth := 99) [effSshl, h]

@[simp] theorem effSshr_memWf {s : State} (h : s.memWf) (c : CtxId) (f : SForm) (old : Ctx) : (effSshr c f old s).memWf := by simp (maxDischargeDepth := 99) [effSshr, h]

@[simp] theorem effScmplt_memWf {s : State} (h : s.memWf) (c : CtxId) (f : SForm) (old : Ctx) : (effScmplt c f old s).memWf := by simp (maxDischargeDepth := 99) [effScmplt, h]

@[simp] theorem State.goTo_memWf {s : State} (h : s.memWf) (c : CtxId) (target : Nat) : (State.goTo s c target).memWf := by simp (maxDischargeDepth := 99) [State.goTo, h]

@[simp] theorem effJmp_memWf {s : State} (h : s.memWf) (c : CtxId) (f : SForm) (_old : Ctx) : (effJmp c f _old s).memWf := by simp (maxDischargeDepth := 99) [effJmp, h]

@[simp] theorem effBrz_memWf {s : State} (h : s.memWf) (c : CtxId) (f : SForm) (old : Ctx) : (effBrz c f old s).memWf := by simp (maxDischargeDepth := 99) [effBrz, h]

@[simp] theorem effBrnz_memWf {s : State} (h : s.memWf) (c : CtxId) (f : SForm) (old : Ctx) : (effBrnz c f old s).memWf := by simp (maxDischargeDepth := 99) [effBrnz, h]

@[simp] theorem effWaitf_memWf {s : State} (h : s.memWf) (c : CtxId) (f : SForm) (old : Ctx) : (effWaitf c f old s).memWf := by
  unfold effWaitf
  dsimp only
  repeat' split
  all_goals simp (maxDischargeDepth := 99) [h]

@[simp] theorem effWaitb_memWf {s : State} (h : s.memWf) (c : CtxId) (f : SForm) (old : Ctx) : (effWaitb c f old s).memWf := by simp (maxDischargeDepth := 99) [effWaitb, h]

@[simp] theorem effGetf_memWf {s : State} (h : s.memWf) (c : CtxId) (f : SForm) (old : Ctx) : (effGetf c f old s).memWf := by simp (maxDischargeDepth := 99) [effGetf, h]

@[simp] theorem effGetid_memWf {s : State} (h : s.memWf) (c : CtxId) (f : SForm) (_old : Ctx) : (effGetid c f _old s).memWf := by simp (maxDischargeDepth := 99) [effGetid, h]

@[simp] theorem effYield_memWf {s : State} (h : s.memWf) (c : CtxId) (_f : SForm) (_old : Ctx) : (effYield c _f _old s).memWf := by simp (maxDischargeDepth := 99) [effYield, h]

@[simp] theorem effHalt_memWf {s : State} (h : s.memWf) (c : CtxId) (_f : SForm) (_old : Ctx) : (effHalt c _f _old s).memWf := by simp (maxDischargeDepth := 99) [effHalt, h]

theorem execNop_memWf {s : State} (h : s.memWf) (c : CtxId) : ResWf (execNop c s) := by
  unfold execNop
  repeat' first
    | assumption
    | with_reducible apply lone_memWf

theorem execSli_memWf {s : State} (h : s.memWf) (c : CtxId) (f : SForm) : ResWf (execSli c f s) := by
  unfold execSli
  repeat' first
    | assumption
    | with_reducible apply lone_memWf
    | with_reducible apply effSli_memWf

theorem execSlih_memWf {s : State} (h : s.memWf) (c : CtxId) (f : SForm) : ResWf (execSlih c f s) := by
  unfold execSlih
  repeat' first
    | assumption
    | with_reducible apply lone_memWf
    | with_reducible apply effSlih_memWf

theorem execSadd_memWf {s : State} (h : s.memWf) (c : CtxId) (f : SForm) : ResWf (execSadd c f s) := by
  unfold execSadd
  repeat' first
    | assumption
    | with_reducible apply lone_memWf
    | with_reducible apply effSadd_memWf

theorem execSaddi_memWf {s : State} (h : s.memWf) (c : CtxId) (f : SForm) : ResWf (execSaddi c f s) := by
  unfold execSaddi
  repeat' first
    | assumption
    | with_reducible apply lone_memWf
    | with_reducible apply effSaddi_memWf

theorem execSsub_memWf {s : State} (h : s.memWf) (c : CtxId) (f : SForm) : ResWf (execSsub c f s) := by
  unfold execSsub
  repeat' first
    | assumption
    | with_reducible apply lone_memWf
    | with_reducible apply effSsub_memWf

theorem execSmul_memWf {s : State} (h : s.memWf) (c : CtxId) (f : SForm) : ResWf (execSmul c f s) := by
  unfold execSmul
  repeat' first
    | assumption
    | with_reducible apply lone_memWf
    | with_reducible apply effSmul_memWf

theorem execSand_memWf {s : State} (h : s.memWf) (c : CtxId) (f : SForm) : ResWf (execSand c f s) := by
  unfold execSand
  repeat' first
    | assumption
    | with_reducible apply lone_memWf
    | with_reducible apply effSand_memWf

theorem execSor_memWf {s : State} (h : s.memWf) (c : CtxId) (f : SForm) : ResWf (execSor c f s) := by
  unfold execSor
  repeat' first
    | assumption
    | with_reducible apply lone_memWf
    | with_reducible apply effSor_memWf

theorem execSxor_memWf {s : State} (h : s.memWf) (c : CtxId) (f : SForm) : ResWf (execSxor c f s) := by
  unfold execSxor
  repeat' first
    | assumption
    | with_reducible apply lone_memWf
    | with_reducible apply effSxor_memWf

theorem execSshl_memWf {s : State} (h : s.memWf) (c : CtxId) (f : SForm) : ResWf (execSshl c f s) := by
  unfold execSshl
  repeat' first
    | assumption
    | with_reducible apply lone_memWf
    | with_reducible apply effSshl_memWf

theorem execSshr_memWf {s : State} (h : s.memWf) (c : CtxId) (f : SForm) : ResWf (execSshr c f s) := by
  unfold execSshr
  repeat' first
    | assumption
    | with_reducible apply lone_memWf
    | with_reducible apply effSshr_memWf

theorem execScmplt_memWf {s : State} (h : s.memWf) (c : CtxId) (f : SForm) : ResWf (execScmplt c f s) := by
  unfold execScmplt
  repeat' first
    | assumption
    | with_reducible apply lone_memWf
    | with_reducible apply effScmplt_memWf

theorem execJmp_memWf {s : State} (h : s.memWf) (c : CtxId) (f : SForm) : ResWf (execJmp c f s) := by
  unfold execJmp
  repeat' first
    | assumption
    | with_reducible apply lone_memWf
    | with_reducible apply effJmp_memWf

theorem execBrz_memWf {s : State} (h : s.memWf) (c : CtxId) (f : SForm) : ResWf (execBrz c f s) := by
  unfold execBrz
  repeat' first
    | assumption
    | with_reducible apply lone_memWf
    | with_reducible apply effBrz_memWf

theorem execBrnz_memWf {s : State} (h : s.memWf) (c : CtxId) (f : SForm) : ResWf (execBrnz c f s) := by
  unfold execBrnz
  repeat' first
    | assumption
    | with_reducible apply lone_memWf
    | with_reducible apply effBrnz_memWf

theorem execWaitf_memWf {s : State} (h : s.memWf) (c : CtxId) (f : SForm) : ResWf (execWaitf c f s) := by
  unfold execWaitf
  repeat' first
    | assumption
    | with_reducible apply lone_memWf
    | with_reducible apply effWaitf_memWf

theorem execWaitb_memWf {s : State} (h : s.memWf) (c : CtxId) (f : SForm) : ResWf (execWaitb c f s) := by
  unfold execWaitb
  repeat' first
    | assumption
    | with_reducible apply lone_memWf
    | with_reducible apply effWaitb_memWf

theorem execGetf_memWf {s : State} (h : s.memWf) (c : CtxId) (f : SForm) : ResWf (execGetf c f s) := by
  unfold execGetf
  repeat' first
    | assumption
    | with_reducible apply lone_memWf
    | with_reducible apply effGetf_memWf

theorem execGetid_memWf {s : State} (h : s.memWf) (c : CtxId) (f : SForm) : ResWf (execGetid c f s) := by
  unfold execGetid
  repeat' first
    | assumption
    | with_reducible apply lone_memWf
    | with_reducible apply effGetid_memWf

theorem execYield_memWf {s : State} (h : s.memWf) (c : CtxId) (f : SForm) : ResWf (execYield c f s) := by
  unfold execYield
  repeat' first
    | assumption
    | with_reducible apply lone_memWf
    | with_reducible apply effYield_memWf

theorem execHalt_memWf {s : State} (h : s.memWf) (c : CtxId) (f : SForm) : ResWf (execHalt c f s) := by
  unfold execHalt
  repeat' first
    | assumption
    | with_reducible apply lone_memWf
    | with_reducible apply effHalt_memWf

theorem execWaitfRelease_memWf {s : State} (h : s.memWf) (c : CtxId) : ResWf (execWaitfRelease c s) := by
  unfold execWaitfRelease
  repeat' split
  all_goals simp (maxDischargeDepth := 99) [h]

theorem execWaitbRelease_memWf {s : State} (h : s.memWf) (c : CtxId) : ResWf (execWaitbRelease c s) := by
  unfold execWaitbRelease
  repeat' split
  all_goals simp (maxDischargeDepth := 99) [h]

@[simp] theorem State.stopBeatWaits_memWf {s : State} (h : s.memWf) : (State.stopBeatWaits s).memWf := by
  refine memWf_foldl (fun t n ht => memWf_foldl (fun u c hu => ?_) _ ht) _ h
  split
  · exact State.stop_memWf hu _ _
  · exact hu

theorem execHaltComplete_memWf {s : State} (h : s.memWf) (c : CtxId) : ResWf (execHaltComplete c s) := by simp (maxDischargeDepth := 99) [execHaltComplete, h]

/-! #### Vector.lean -/

@[simp] theorem State.draw_memWf {s : State} (h : s.memWf) (c : CtxId) (sr : Bool) : (State.draw s c sr).memWf := by simp (maxDischargeDepth := 99) [State.draw, h]

@[simp] theorem vResult_memWf {s : State} (h : s.memWf) (c : CtxId) (f : VForm) (old : Ctx) (g : Nat → Rounded) : (vResult c f old g s).memWf := by simp (maxDischargeDepth := 99) [vResult, h]

@[simp] theorem effArith2_memWf {s : State} (h : s.memWf) (op : Arith2) (c : CtxId) (f : VForm) (old : Ctx) : (effArith2 op c f old s).memWf := by simp (maxDischargeDepth := 99) [effArith2, h]

@[simp] theorem effVfma_memWf {s : State} (h : s.memWf) (c : CtxId) (f : VForm) (old : Ctx) : (effVfma c f old s).memWf := by simp (maxDischargeDepth := 99) [effVfma, h]

@[simp] theorem effVsqrt_memWf {s : State} (h : s.memWf) (c : CtxId) (f : VForm) (old : Ctx) : (effVsqrt c f old s).memWf := by simp (maxDischargeDepth := 99) [effVsqrt, h]

@[simp] theorem effMap1_memWf {s : State} (h : s.memWf) (g : Nat → Nat) (c : CtxId) (f : VForm) (old : Ctx) : (effMap1 g c f old s).memWf := by simp (maxDischargeDepth := 99) [effMap1, h]

@[simp] theorem effMap2_memWf {s : State} (h : s.memWf) (g : Nat → Nat → Nat) (c : CtxId) (f : VForm) (old : Ctx) : (effMap2 g c f old s).memWf := by simp (maxDischargeDepth := 99) [effMap2, h]

@[simp] theorem effVabs_memWf {s : State} (h : s.memWf) (c : CtxId) (f : VForm) (old : Ctx) : (effVabs c f old s).memWf := by simp (maxDischargeDepth := 99) [effVabs, h]

@[simp] theorem effVneg_memWf {s : State} (h : s.memWf) (c : CtxId) (f : VForm) (old : Ctx) : (effVneg c f old s).memWf := by simp (maxDischargeDepth := 99) [effVneg, h]

@[simp] theorem effVand_memWf {s : State} (h : s.memWf) (c : CtxId) (f : VForm) (old : Ctx) : (effVand c f old s).memWf := by simp (maxDischargeDepth := 99) [effVand, h]

@[simp] theorem effVor_memWf {s : State} (h : s.memWf) (c : CtxId) (f : VForm) (old : Ctx) : (effVor c f old s).memWf := by simp (maxDischargeDepth := 99) [effVor, h]

@[simp] theorem effVxor_memWf {s : State} (h : s.memWf) (c : CtxId) (f : VForm) (old : Ctx) : (effVxor c f old s).memWf := by simp (maxDischargeDepth := 99) [effVxor, h]

@[simp] theorem effVshl_memWf {s : State} (h : s.memWf) (c : CtxId) (f : VForm) (old : Ctx) : (effVshl c f old s).memWf := by simp (maxDischargeDepth := 99) [effVshl, h]

@[simp] theorem effVshr_memWf {s : State} (h : s.memWf) (c : CtxId) (f : VForm) (old : Ctx) : (effVshr c f old s).memWf := by simp (maxDischargeDepth := 99) [effVshr, h]

@[simp] theorem effCmp_memWf {s : State} (h : s.memWf) (op : Cmp) (c : CtxId) (f : VForm) (old : Ctx) : (effCmp op c f old s).memWf := by simp (maxDischargeDepth := 99) [effCmp, h]

@[simp] theorem effVsel_memWf {s : State} (h : s.memWf) (c : CtxId) (f : VForm) (old : Ctx) : (effVsel c f old s).memWf := by simp (maxDischargeDepth := 99) [effVsel, h]

@[simp] theorem effVmovs_memWf {s : State} (h : s.memWf) (c : CtxId) (f : VForm) (old : Ctx) : (effVmovs c f old s).memWf := by simp (maxDischargeDepth := 99) [effVmovs, h]

@[simp] theorem effVperm_memWf {s : State} (h : s.memWf) (c : CtxId) (f : VForm) (old : Ctx) : (effVperm c f old s).memWf := by simp (maxDischargeDepth := 99) [effVperm, h]

@[simp] theorem effVbcast_memWf {s : State} (h : s.memWf) (c : CtxId) (f : VForm) (old : Ctx) : (effVbcast c f old s).memWf := by simp (maxDischargeDepth := 99) [effVbcast, h]

@[simp] theorem effVrsum_memWf {s : State} (h : s.memWf) (c : CtxId) (f : VForm) (old : Ctx) : (effVrsum c f old s).memWf := by simp (maxDischargeDepth := 99) [effVrsum, h]

@[simp] theorem effVrmax_memWf {s : State} (h : s.memWf) (c : CtxId) (f : VForm) (old : Ctx) : (effVrmax c f old s).memWf := by simp (maxDischargeDepth := 99) [effVrmax, h]

@[simp] theorem effApprox_memWf {s : State} (h : s.memWf) (op : Approx) (c : CtxId) (f : VForm) (old : Ctx) : (effApprox op c f old s).memWf := by simp (maxDischargeDepth := 99) [effApprox, h]

@[simp] theorem effVext_memWf {s : State} (h : s.memWf) (c : CtxId) (f : VForm) (old : Ctx) : (effVext c f old s).memWf := by simp (maxDischargeDepth := 99) [effVext, h]

@[simp] theorem effCvt_memWf {s : State} (h : s.memWf) (c : CtxId) (f : VForm) (old : Ctx) : (effCvt c f old s).memWf := by simp (maxDischargeDepth := 99) [effCvt, h]

@[simp] theorem effCvtb_memWf {s : State} (h : s.memWf) (c : CtxId) (f : VForm) (old : Ctx) : (effCvtb c f old s).memWf := by simp (maxDischargeDepth := 99) [effCvtb, h]

@[simp] theorem effCvtu_memWf {s : State} (h : s.memWf) (c : CtxId) (f : VForm) (old : Ctx) : (effCvtu c f old s).memWf := by simp (maxDischargeDepth := 99) [effCvtu, h]

theorem loneV_memWf {s : State} {op : Nat} {c : CtxId} {f : VForm} {eff : Ctx → State → State} (h : s.memWf)
    (he : (eff (s.ctx c) s).memWf) : ResWf (loneV op c f s eff) := lone_memWf h he

theorem execVadd_memWf {s : State} (h : s.memWf) (c : CtxId) (f : VForm) : ResWf (execVadd c f s) := by
  unfold execVadd
  repeat' first
    | assumption
    | with_reducible apply loneV_memWf
    | with_reducible apply effArith2_memWf

theorem execVsub_memWf {s : State} (h : s.memWf) (c : CtxId) (f : VForm) : ResWf (execVsub c f s) := by
  unfold execVsub
  repeat' first
    | assumption
    | with_reducible apply loneV_memWf
    | with_reducible apply effArith2_memWf

theorem execVmul_memWf {s : State} (h : s.memWf) (c : CtxId) (f : VForm) : ResWf (execVmul c f s) := by
  unfold execVmul
  repeat' first
    | assumption
    | with_reducible apply loneV_memWf
    | with_reducible apply effArith2_memWf

theorem execVfma_memWf {s : State} (h : s.memWf) (c : CtxId) (f : VForm) : ResWf (execVfma c f s) := by
  unfold execVfma
  repeat' first
    | assumption
    | with_reducible apply loneV_memWf
    | with_reducible apply effVfma_memWf

theorem execVdiv_memWf {s : State} (h : s.memWf) (c : CtxId) (f : VForm) : ResWf (execVdiv c f s) := by
  unfold execVdiv
  repeat' first
    | assumption
    | with_reducible apply loneV_memWf
    | with_reducible apply effArith2_memWf

theorem execVsqrt_memWf {s : State} (h : s.memWf) (c : CtxId) (f : VForm) : ResWf (execVsqrt c f s) := by
  unfold execVsqrt
  repeat' first
    | assumption
    | with_reducible apply loneV_memWf
    | with_reducible apply effVsqrt_memWf

theorem execVmin_memWf {s : State} (h : s.memWf) (c : CtxId) (f : VForm) : ResWf (execVmin c f s) := by
  unfold execVmin
  repeat' first
    | assumption
    | with_reducible apply loneV_memWf
    | with_reducible apply effArith2_memWf

theorem execVmax_memWf {s : State} (h : s.memWf) (c : CtxId) (f : VForm) : ResWf (execVmax c f s) := by
  unfold execVmax
  repeat' first
    | assumption
    | with_reducible apply loneV_memWf
    | with_reducible apply effArith2_memWf

theorem execVcmpeq_memWf {s : State} (h : s.memWf) (c : CtxId) (f : VForm) : ResWf (execVcmpeq c f s) := by
  unfold execVcmpeq
  repeat' first
    | assumption
    | with_reducible apply loneV_memWf
    | with_reducible apply effCmp_memWf

theorem execVcmplt_memWf {s : State} (h : s.memWf) (c : CtxId) (f : VForm) : ResWf (execVcmplt c f s) := by
  unfold execVcmplt
  repeat' first
    | assumption
    | with_reducible apply loneV_memWf
    | with_reducible apply effCmp_memWf

theorem execVcmple_memWf {s : State} (h : s.memWf) (c : CtxId) (f : VForm) : ResWf (execVcmple c f s) := by
  unfold execVcmple
  repeat' first
    | assumption
    | with_reducible apply loneV_memWf
    | with_reducible apply effCmp_memWf

theorem execVsel_memWf {s : State} (h : s.memWf) (c : CtxId) (f : VForm) : ResWf (execVsel c f s) := by
  unfold execVsel
  repeat' first
    | assumption
    | with_reducible apply loneV_memWf
    | with_reducible apply effVsel_memWf

theorem execVabs_memWf {s : State} (h : s.memWf) (c : CtxId) (f : VForm) : ResWf (execVabs c f s) := by
  unfold execVabs
  repeat' first
    | assumption
    | with_reducible apply loneV_memWf
    | with_reducible apply effVabs_memWf

theorem execVneg_memWf {s : State} (h : s.memWf) (c : CtxId) (f : VForm) : ResWf (execVneg c f s) := by
  unfold execVneg
  repeat' first
    | assumption
    | with_reducible apply loneV_memWf
    | with_reducible apply effVneg_memWf

theorem execVand_memWf {s : State} (h : s.memWf) (c : CtxId) (f : VForm) : ResWf (execVand c f s) := by
  unfold execVand
  repeat' first
    | assumption
    | with_reducible apply loneV_memWf
    | with_reducible apply effVand_memWf

theorem execVor_memWf {s : State} (h : s.memWf) (c : CtxId) (f : VForm) : ResWf (execVor c f s) := by
  unfold execVor
  repeat' first
    | assumption
    | with_reducible apply loneV_memWf
    | with_reducible apply effVor_memWf

theorem execVxor_memWf {s : State} (h : s.memWf) (c : CtxId) (f : VForm) : ResWf (execVxor c f s) := by
  unfold execVxor
  repeat' first
    | assumption
    | with_reducible apply loneV_memWf
    | with_reducible apply effVxor_memWf

theorem execVshl_memWf {s : State} (h : s.memWf) (c : CtxId) (f : VForm) : ResWf (execVshl c f s) := by
  unfold execVshl
  repeat' first
    | assumption
    | with_reducible apply loneV_memWf
    | with_reducible apply effVshl_memWf

theorem execVshr_memWf {s : State} (h : s.memWf) (c : CtxId) (f : VForm) : ResWf (execVshr c f s) := by
  unfold execVshr
  repeat' first
    | assumption
    | with_reducible apply loneV_memWf
    | with_reducible apply effVshr_memWf

theorem execVmovs_memWf {s : State} (h : s.memWf) (c : CtxId) (f : VForm) : ResWf (execVmovs c f s) := by
  unfold execVmovs
  repeat' first
    | assumption
    | with_reducible apply loneV_memWf
    | with_reducible apply effVmovs_memWf

theorem execVperm_memWf {s : State} (h : s.memWf) (c : CtxId) (f : VForm) : ResWf (execVperm c f s) := by
  unfold execVperm
  repeat' first
    | assumption
    | with_reducible apply loneV_memWf
    | with_reducible apply effVperm_memWf

theorem execVbcast_memWf {s : State} (h : s.memWf) (c : CtxId) (f : VForm) : ResWf (execVbcast c f s) := by
  unfold execVbcast
  repeat' first
    | assumption
    | with_reducible apply loneV_memWf
    | with_reducible apply effVbcast_memWf

theorem execVrsum_memWf {s : State} (h : s.memWf) (c : CtxId) (f : VForm) : ResWf (execVrsum c f s) := by
  unfold execVrsum
  repeat' first
    | assumption
    | with_reducible apply loneV_memWf
    | with_reducible apply effVrsum_memWf

theorem execVrmax_memWf {s : State} (h : s.memWf) (c : CtxId) (f : VForm) : ResWf (execVrmax c f s) := by
  unfold execVrmax
  repeat' first
    | assumption
    | with_reducible apply loneV_memWf
    | with_reducible apply effVrmax_memWf

theorem execCvt_memWf {s : State} (h : s.memWf) (c : CtxId) (f : VForm) : ResWf (execCvt c f s) := by
  unfold execCvt
  repeat' first
    | assumption
    | with_reducible apply loneV_memWf
    | with_reducible apply effCvt_memWf

theorem execCvtb_memWf {s : State} (h : s.memWf) (c : CtxId) (f : VForm) : ResWf (execCvtb c f s) := by
  unfold execCvtb
  repeat' first
    | assumption
    | with_reducible apply loneV_memWf
    | with_reducible apply effCvtb_memWf

theorem execCvtu_memWf {s : State} (h : s.memWf) (c : CtxId) (f : VForm) : ResWf (execCvtu c f s) := by
  unfold execCvtu
  repeat' first
    | assumption
    | with_reducible apply loneV_memWf
    | with_reducible apply effCvtu_memWf

theorem execVexp2_memWf {s : State} (h : s.memWf) (c : CtxId) (f : VForm) : ResWf (execVexp2 c f s) := by
  unfold execVexp2
  repeat' first
    | assumption
    | with_reducible apply loneV_memWf
    | with_reducible apply effApprox_memWf

theorem execVlog2_memWf {s : State} (h : s.memWf) (c : CtxId) (f : VForm) : ResWf (execVlog2 c f s) := by
  unfold execVlog2
  repeat' first
    | assumption
    | with_reducible apply loneV_memWf
    | with_reducible apply effApprox_memWf

theorem execVrcpa_memWf {s : State} (h : s.memWf) (c : CtxId) (f : VForm) : ResWf (execVrcpa c f s) := by
  unfold execVrcpa
  repeat' first
    | assumption
    | with_reducible apply loneV_memWf
    | with_reducible apply effApprox_memWf

theorem execVrsqa_memWf {s : State} (h : s.memWf) (c : CtxId) (f : VForm) : ResWf (execVrsqa c f s) := by
  unfold execVrsqa
  repeat' first
    | assumption
    | with_reducible apply loneV_memWf
    | with_reducible apply effApprox_memWf

theorem execVtanh_memWf {s : State} (h : s.memWf) (c : CtxId) (f : VForm) : ResWf (execVtanh c f s) := by
  unfold execVtanh
  repeat' first
    | assumption
    | with_reducible apply loneV_memWf
    | with_reducible apply effApprox_memWf

theorem execVsigm_memWf {s : State} (h : s.memWf) (c : CtxId) (f : VForm) : ResWf (execVsigm c f s) := by
  unfold execVsigm
  repeat' first
    | assumption
    | with_reducible apply loneV_memWf
    | with_reducible apply effApprox_memWf

theorem execVext_memWf {s : State} (h : s.memWf) (c : CtxId) (f : VForm) : ResWf (execVext c f s) := by
  unfold execVext
  repeat' first
    | assumption
    | with_reducible apply loneV_memWf
    | with_reducible apply effVext_memWf

/-! #### Array.lean -/

@[simp] theorem State.ammaCorrect_memWf {s : State} (h : s.memWf) (c : CtxId) (m : AmmaArea) : (State.ammaCorrect s c m).memWf := by simp (maxDischargeDepth := 99) [State.ammaCorrect, h]

@[simp] theorem effAmma_memWf {s : State} (h : s.memWf) (c : CtxId) (f : AForm) (old : Ctx) : (effAmma c f old s).memWf := by
  unfold effAmma
  dsimp only
  repeat' split
  all_goals simp (maxDischargeDepth := 99) [h]

@[simp] theorem effAzero_memWf {s : State} (h : s.memWf) (c : CtxId) (_f : AForm) (_old : Ctx) : (effAzero c _f _old s).memWf := by simp (maxDischargeDepth := 99) [effAzero, h]

@[simp] theorem effAdrain_memWf {s : State} (h : s.memWf) (c : CtxId) (f : AForm) (old : Ctx) : (effAdrain c f old s).memWf := by
  unfold effAdrain
  dsimp only
  repeat' split
  all_goals simp (maxDischargeDepth := 99) [h]

@[simp] theorem effAload_memWf {s : State} (h : s.memWf) (c : CtxId) (f : AForm) (old : Ctx) : (effAload c f old s).memWf := by
  unfold effAload
  repeat' split
  all_goals simp (maxDischargeDepth := 99) [h]

theorem loneA_memWf {s : State} {op : Nat} {c : CtxId} {f : AForm} {eff : Ctx → State → State} (h : s.memWf)
    (he : (eff (s.ctx c) s).memWf) : ResWf (loneA op c f s eff) := lone_memWf h he

theorem execAzero_memWf {s : State} (h : s.memWf) (c : CtxId) (f : AForm) : ResWf (execAzero c f s) := by
  unfold execAzero
  repeat' first
    | assumption
    | with_reducible apply loneA_memWf
    | with_reducible apply effAzero_memWf

theorem execAmma_memWf {s : State} (h : s.memWf) (c : CtxId) (f : AForm) : ResWf (execAmma c f s) := by
  unfold execAmma
  repeat' first
    | assumption
    | with_reducible apply loneA_memWf
    | with_reducible apply effAmma_memWf

theorem execAdrain_memWf {s : State} (h : s.memWf) (c : CtxId) (f : AForm) : ResWf (execAdrain c f s) := by
  unfold execAdrain
  repeat' first
    | assumption
    | with_reducible apply loneA_memWf
    | with_reducible apply effAdrain_memWf

theorem execAload_memWf {s : State} (h : s.memWf) (c : CtxId) (f : AForm) : ResWf (execAload c f s) := by
  unfold execAload
  repeat' first
    | assumption
    | with_reducible apply loneA_memWf
    | with_reducible apply effAload_memWf

/-! #### Tiers.lean -/

@[simp] theorem State.memError_memWf {s : State} (h : s.memWf) (n : Nat) (far : Bool) (line : Nat) (kind : Nat) : (State.memError s n far line kind).memWf := by simp (maxDischargeDepth := 99) [State.memError, h]

@[simp] theorem State.rowReached_memWf {s : State} (h : s.memWf) (n : Nat) (far : Bool) (line : Nat) : (State.rowReached s n far line).memWf := by simp (maxDischargeDepth := 99) [State.rowReached, h]

@[simp] theorem State.rowRead_memWf {s : State} (h : s.memWf) (n : Nat) (far : Bool) (line : Nat) : (State.rowRead s n far line).memWf := by simp (maxDischargeDepth := 99) [State.rowRead, h]

@[simp] theorem State.sense_memWf {s : State} (h : s.memWf) (n : Nat) (far : Bool) (line : Nat) : (State.sense s n far line).memWf := by
  unfold State.sense
  dsimp only
  split
  · exact h
  · exact State.rowRead_memWf (State.satFld_memWf (State.modStack_memWf_same h _ (fun k => Stack.setLineErr_memWf k _ _ _)) _ _ _) _ _ _
  · refine State.memError_memWf (State.satFld_memWf (State.modStack_memWf ?_ _ ?_) _ _ _) _ _ _ _
    · split
      · exact State.takeFree_memWf h
      · exact h
    · intro k hk
      simpa using Stack.poisonLine_memWf hk far line
  · refine State.modStack_memWf (State.takeFree_memWf h) _ (fun k hk => ?_)
    exact Stack.setTier_memWf (by simpa using hk) _ (Mem.wf_writeBytes _ _ _ (Stack.tier_wf hk _))

@[simp] theorem State.senseAll_memWf {s : State} (h : s.memWf) (n : Nat) (far : Bool) (lines : List Nat) : (State.senseAll s n far lines).memWf := by
  unfold State.senseAll
  repeat' first
    | assumption
    | with_reducible apply State.sense_memWf
    | with_reducible apply memWf_foldl
    | (intro _ _ _)

@[simp] theorem State.poisonHit_memWf {s : State} (h : s.memWf) (n : Nat) : (State.poisonHit s n).memWf := by simp (maxDischargeDepth := 99) [State.poisonHit, h]

@[simp] theorem State.loadTier_memWf {s : State} (h : s.memWf) (n : Nat) (far : Bool) (off : Nat) (len : Nat) : (State.loadTier s n far off len).state.memWf := by
  unfold State.loadTier
  dsimp only
  repeat' split
  all_goals simp (maxDischargeDepth := 99) [h]

@[simp] theorem State.storeLine_memWf {s : State} (h : s.memWf) (n : Nat) (far : Bool) (line : Nat) (at_ : Nat) (bs : List Byte) : (State.storeLine s n far line at_ bs).1.memWf := by
  unfold State.storeLine
  repeat' first
    | assumption
    | with_reducible apply State.sense_memWf
    | with_reducible apply State.modStack_memWf
    | with_reducible refine State.modStack_memWf ?_ _ ?_
    | split
    | dsimp only
    | (intro _ _)
  all_goals first
    | assumption
    | (simp (maxDischargeDepth := 99) [*])

theorem State.overLines_memWf {s : State} (h : s.memWf) (off : Nat) (bs : List Byte)
    (f : State → Nat → Nat → List Byte → State × Bool) (hf : ∀ t l a x, State.memWf t → (f t l a x).1.memWf) :
    (State.overLines s off bs f).1.memWf := by
  unfold State.overLines
  refine memWf_foldl_fst (fun p l hp => ?_) _ h
  exact hf _ _ _ _ hp

@[simp] theorem State.countPoison_memWf {s : State} (h : s.memWf) (n : Nat) (met : Bool) : (State.countPoison s n met).memWf := by simp (maxDischargeDepth := 99) [State.countPoison, h]

@[simp] theorem State.storeTier_memWf {s : State} (h : s.memWf) (n : Nat) (far : Bool) (off : Nat) (bs : List Byte) :
    (State.storeTier s n far off bs).memWf :=
  State.countPoison_memWf (State.overLines_memWf h _ _ _ (fun _ _ _ _ ht => State.storeLine_memWf ht _ _ _ _ _)) _ _

@[simp] theorem State.accumLine_memWf {s : State} (h : s.memWf) (n : Nat) (far : Bool) (fmt : Nat) (op : Nat) (line : Nat) (at_ : Nat) (bs : List Byte) : (State.accumLine s n far fmt op line at_ bs).1.memWf := by
  unfold State.accumLine
  repeat' first
    | assumption
    | with_reducible apply State.sense_memWf
    | with_reducible apply State.modStack_memWf
    | with_reducible refine State.modStack_memWf ?_ _ ?_
    | split
    | dsimp only
    | (intro _ _)
  all_goals first
    | assumption
    | (simp (maxDischargeDepth := 99) [*])

@[simp] theorem State.accumTier_memWf {s : State} (h : s.memWf) (n : Nat) (far : Bool) (fmt op off : Nat) (bs : List Byte) :
    (State.accumTier s n far fmt op off bs).memWf :=
  State.countPoison_memWf (State.overLines_memWf h _ _ _ (fun _ _ _ _ ht => State.accumLine_memWf ht _ _ _ _ _ _ _)) _ _

@[simp] theorem State.atomicTier_memWf {s : State} (h : s.memWf) (n : Nat) (far : Bool) (sub : Nat) (size : Nat) (off : Nat) (opnd : Nat) (cmp : Nat) : (State.atomicTier s n far sub size off opnd cmp).state.memWf := by
  unfold State.atomicTier
  repeat' first
    | assumption
    | with_reducible apply State.poisonHit_memWf
    | with_reducible apply State.sense_memWf
    | with_reducible apply State.modStack_memWf
    | with_reducible refine State.modStack_memWf ?_ _ ?_
    | split
    | dsimp only
    | (intro _ _)
  all_goals first
    | assumption
    | (simp (maxDischargeDepth := 99) [*])

@[simp] theorem State.accumDrawer_memWf {s : State} (h : s.memWf) (n fmt op b a : Nat) (bs : List Byte) :
    (State.accumDrawer s n fmt op b a bs).memWf :=
  State.quietBy_memWf (State.modStack_memWf (State.correct_memWf h _ _ _ _) _
    (fun _ hk => Stack.memWf_drawer hk (Mem.wf_writeWhere _ _ _ _ (Stack.drawer_wf hk)))) _ _ _

@[simp] theorem State.atomicDrawer_memWf {s : State} (h : s.memWf) (n b sub size a opnd cmp : Nat) :
    (State.atomicDrawer s n b sub size a opnd cmp).state.memWf := by
  unfold State.atomicDrawer
  dsimp only
  split
  · exact State.correct_memWf h _ _ _ _
  · exact State.modStack_memWf (State.correct_memWf h _ _ _ _) _
      (fun _ hk => Stack.memWf_drawer hk (Mem.wf_writeBytes _ _ _ (Stack.drawer_wf hk)))

theorem State.overDrawers_memWf {s : State} (h : s.memWf) (n a len : Nat) (f : State → Nat → Nat → Nat → Nat → State)
    (hf : ∀ t b x i l, State.memWf t → (f t b x i l).memWf) : (State.overDrawers s n a len f).memWf := by
  unfold State.overDrawers
  split
  · exact memWf_foldl (fun t p ht => hf _ _ _ _ _ ht) _ h
  · exact State.quiet_memWf h _ _

theorem State.loadDrawers_state (s : State) (n a len : Nat) :
    (s.loadDrawers n a len).state = s.overDrawers n a len (fun t b x _ l => t.correct n b x l) := by
  simp only [State.loadDrawers]
  split
  · split <;> rfl
  · rfl

@[simp] theorem State.loadDrawers_memWf {s : State} (h : s.memWf) (n a len : Nat) : (State.loadDrawers s n a len).state.memWf := by
  rw [State.loadDrawers_state]
  exact State.overDrawers_memWf h _ _ _ _ (fun _ _ _ _ _ ht => State.correct_memWf ht _ _ _ _)

@[simp] theorem State.storeDrawers_memWf {s : State} (h : s.memWf) (n a : Nat) (bs : List Byte) : (State.storeDrawers s n a bs).memWf :=
  State.overDrawers_memWf h _ _ _ _ (fun _ _ _ _ _ ht => State.storeDrawer_memWf ht _ _ _ _)

@[simp] theorem State.accumDrawers_memWf {s : State} (h : s.memWf) (n fmt op a : Nat) (bs : List Byte) : (State.accumDrawers s n fmt op a bs).memWf :=
  State.overDrawers_memWf h _ _ _ _ (fun _ _ _ _ _ ht => State.accumDrawer_memWf ht _ _ _ _ _ _)

@[simp] theorem State.atomicDrawers_memWf {s : State} (h : s.memWf) (n : Nat) (sub : Nat) (size : Nat) (a : Nat) (opnd : Nat) (cmp : Nat) : (State.atomicDrawers s n sub size a opnd cmp).state.memWf := by
  unfold State.atomicDrawers
  repeat' split
  all_goals simp (maxDischargeDepth := 99) [h]

@[simp] theorem State.loadAt_memWf {s : State} (h : s.memWf) (n : Nat) (off : Nat) (len : Nat) : (State.loadAt s n off len).state.memWf := by
  unfold State.loadAt
  repeat' first
    | assumption
    | with_reducible apply State.loadDrawers_memWf
    | with_reducible apply State.loadTier_memWf
    | with_reducible apply State.quiet_memWf
    | split
    | dsimp only

@[simp] theorem State.storeAt_memWf {s : State} (h : s.memWf) (n : Nat) (off : Nat) (bs : List Byte) : (State.storeAt s n off bs).memWf := by
  unfold State.storeAt
  repeat' split
  all_goals simp (maxDischargeDepth := 99) [h]

@[simp] theorem State.accumAt_memWf {s : State} (h : s.memWf) (n : Nat) (fmt : Nat) (op : Nat) (off : Nat) (bs : List Byte) : (State.accumAt s n fmt op off bs).memWf := by
  unfold State.accumAt
  repeat' split
  all_goals simp (maxDischargeDepth := 99) [h]

@[simp] theorem State.atomicAt_memWf {s : State} (h : s.memWf) (n : Nat) (sub : Nat) (size : Nat) (off : Nat) (opnd : Nat) (cmp : Nat) : (State.atomicAt s n sub size off opnd cmp).state.memWf := by
  unfold State.atomicAt
  repeat' split
  all_goals simp (maxDischargeDepth := 99) [h]

/-! #### Translate.lean -/

@[simp] theorem State.walkFrom_memWf {s : State} (h : s.memWf) (n ctx va level table : Nat) :
    (State.walkFrom s n ctx va level table).1.memWf := by
  have h' : ∀ {t : State} (_ : t.memWf) (i w : Nat), (t.loadTier n false (table + 8 * levelIndex i va) w).state.memWf :=
    fun ht _ _ => State.loadTier_memWf ht _ _ _ _
  induction level generalizing s table with
  | zero =>
    unfold State.walkFrom
    dsimp only
    have := State.loadTier_memWf h n false (table + 8 * levelIndex 0 va) 8
    repeat' split
    all_goals exact this
  | succ level ih =>
    unfold State.walkFrom
    dsimp only
    have := State.loadTier_memWf h n false (table + 8 * levelIndex (level + 1) va) 8
    repeat' split
    any_goals exact this
    exact ih this _ (fun ht _ _ => State.loadTier_memWf ht _ _ _ _)

@[simp] theorem State.walk_memWf {s : State} (h : s.memWf) (n : Nat) (ctx : Nat) (va : Nat) : (State.walk s n ctx va).1.memWf := by
  unfold State.walk
  repeat' first
    | assumption
    | with_reducible apply State.walkFrom_memWf
    | with_reducible refine State.modStack_memWf_same ?_ _ (by simp; done)
    | split
    | dsimp only

@[simp] theorem State.writeFault_memWf {s : State} (h : s.memWf) (n : Nat) (f : Fault8) : (State.writeFault s n f).1.memWf := by
  unfold State.writeFault
  repeat' first
    | assumption
    | with_reducible apply State.setFld_memWf
    | with_reducible apply State.event_memWf
    | with_reducible refine State.modStack_memWf ?_ _ ?_
    | with_reducible apply Stack.memWf_sram
    | with_reducible apply Mem.wf_writeBytes
    | with_reducible apply Stack.sram_wf
    | split
    | dsimp only
    | (intro _ _)

@[simp] theorem State.fqOverflow_memWf {s : State} (h : s.memWf) (n : Nat) : (State.fqOverflow s n).memWf := by simp (maxDischargeDepth := 99) [State.fqOverflow, h]

@[simp] theorem State.flushHeld_memWf (fuel : Nat) {s : State} (h : s.memWf) (n : Nat) :
    (State.flushHeld fuel s n).memWf := by
  induction fuel generalizing s with
  | zero => exact h
  | succ fuel ih =>
    unfold State.flushHeld
    dsimp only
    split
    · exact h
    · split
      · exact ih (State.modStack_memWf_same (State.writeFault_memWf h _ _) _ (fun _ => rfl))
      · exact h

@[simp] theorem State.openFault_memWf {s : State} (h : s.memWf) (n : Nat) (ctx : Nat) (page : Nat) (cause : Nat) (level : Nat) (access : Nat) (entry : Word) (ws : List Waiter) : (State.openFault s n ctx page cause level access entry ws).memWf := by
  unfold State.openFault
  repeat' first
    | assumption
    | with_reducible apply ResWf_noUnit
    | with_reducible apply State.flushHeld_memWf
    | with_reducible apply State.writeFault_memWf
    | with_reducible apply State.fqOverflow_memWf
    | with_reducible refine State.modStack_memWf_same ?_ _ (by simp; done)
    | split

@[simp] theorem State.writeFound_memWf {s : State} (h : s.memWf) (old : State) (n : Nat) : (State.writeFound s old n).memWf := by
  unfold State.writeFound
  dsimp only
  have h' := State.flushHeld_memWf (s.stack n).faults.length
    (State.modStack_memWf_same h n (f := fun k => k.orderFound (old.stack n)) (by intro k; rfl)) n
  split
  · refine State.orderEvents_memWf ?_ _ _
    split
    · exact State.fqOverflow_memWf h' _
    · exact h'
  · exact h

/-! #### Shadow.lean -/

@[simp] theorem State.shadowReport_memWf {s : State} (h : s.memWf) (n : Nat) (step : Nat) (result : Nat) : (State.shadowReport s n step result).memWf := by simp (maxDischargeDepth := 99) [State.shadowReport, h]

@[simp] theorem State.setMatches_memWf {s : State} (h : s.memWf) (n : Nat) (v : Nat) : (State.setMatches s n v).memWf := by simp (maxDischargeDepth := 99) [State.setMatches, h]

@[simp] theorem State.compareStep_memWf {s : State} (h : s.memWf) (n : Nat) (step : BitVec 32) (equal : Bool) : (State.compareStep s n step equal).memWf := by simp (maxDischargeDepth := 99) [State.compareStep, h]

@[simp] theorem State.compareSteps_memWf {s : State} (h : s.memWf) (n : Nat) : (State.compareSteps s n).memWf := by
  unfold State.compareSteps
  repeat' first
    | assumption
    | with_reducible apply State.compareStep_memWf
    | with_reducible apply State.setMatches_memWf
    | with_reducible apply State.shadowReport_memWf
    | with_reducible apply State.modStack_memWf_same
    | with_reducible apply memWf_foldl
    | (intro _ _ _)
    | split
    | dsimp only
    | simp (maxDischargeDepth := 99) [h]

@[simp] theorem State.closeStep_memWf {s : State} (h : s.memWf) (n : Nat) : (State.closeStep s n).memWf := by simp (maxDischargeDepth := 99) [State.closeStep, h]

@[simp] theorem State.takeLate_memWf (fuel : Nat) {s : State} (h : s.memWf) (n but : Nat) :
    (State.takeLate fuel s n but).memWf := by
  induction fuel generalizing s with
  | zero => exact h
  | succ fuel ih =>
    unfold State.takeLate
    split
    · exact h
    · split
      · exact h
      · refine ih ?_
        split
        · exact State.closeStep_memWf (State.modStack_memWf_same h n (by intro k; rfl)) n
        · exact State.modStack_memWf_same h n (by intro k; rfl)

@[simp] theorem State.noteOutput_memWf {s : State} (h : s.memWf) (n : Nat) (r : Req) (node : BitVec 16) (offset : Nat) : (State.noteOutput s n r node offset).memWf := by
  unfold State.noteOutput
  repeat' split
  all_goals simp (maxDischargeDepth := 99) [h]

@[simp] theorem State.settleLate_memWf {s : State} (h : s.memWf) (n : Nat) : (State.settleLate s n).memWf := by simp (maxDischargeDepth := 99) [State.settleLate, h]

/-! #### Source.lean -/

@[simp] theorem State.placeReq_memWf {s : State} (h : s.memWf) (n : Nat) (r : Req) (e : TlbEntry) : (State.placeReq s n r e).1.memWf := by
  unfold State.placeReq
  dsimp only
  repeat' split
  all_goals simp (maxDischargeDepth := 99) [h]

@[simp] theorem State.resolve_memWf (fuel : Nat) {s : State} (h : s.memWf) (n : Nat) (r : Req) :
    (State.resolve fuel s n r).1.memWf := by
  induction fuel generalizing s r with
  | zero => exact h
  | succ fuel ih =>
    unfold State.resolve
    split
    · exact State.quiet_memWf h _ _
    · split
      · exact h
      · exact State.modStack_memWf_same h _ (fun k => Stack.miss_memWf k _ _ _)
    · rename_i e _
      have h' := State.noteOutput_memWf (State.modStack_memWf_same h n (fun k => Stack.noteUser_memWf k e r.src)) n r
        e.node (e.offset r.va)
      dsimp only
      split
      · exact State.placeReq_memWf h' _ _ _
      · exact ih (State.placeReq_memWf (State.fresh_memWf h') _ _ _) _

@[simp] theorem State.access_memWf {s : State} (h : s.memWf) (c : CtxId) (op : BitVec 8) (param : BitVec 8) (va : Word) (len : Nat) (payload : List Byte) (dest : Nat) (bad : Bool) : (State.access s c op param va len payload dest bad).memWf := by
  unfold State.access
  repeat' first
    | assumption
    | with_reducible apply State.resolve_memWf
    | with_reducible refine State.modStack_memWf_same ?_ _ (by simp; done)

@[simp] theorem State.retryReq_memWf {s : State} (h : s.memWf) (n : Nat) (id : Nat) : (State.retryReq s n id).memWf := by
  unfold State.retryReq
  repeat' split
  all_goals simp (maxDischargeDepth := 99) [h]

/-! #### Memory.lean -/

@[simp] theorem State.drawerViolation_memWf {s : State} (h : s.memWf) (c : CtxId) : (State.drawerViolation s c).memWf := by simp (maxDischargeDepth := 99) [State.drawerViolation, h]

@[simp] theorem effVld_memWf {s : State} (h : s.memWf) (c : CtxId) (f : MForm) (old : Ctx) : (effVld c f old s).memWf := by
  unfold effVld
  dsimp only
  repeat' split
  all_goals simp (maxDischargeDepth := 99) [h]

@[simp] theorem effVst_memWf {s : State} (h : s.memWf) (c : CtxId) (f : MForm) (old : Ctx) : (effVst c f old s).memWf := by
  unfold effVst
  dsimp only
  repeat' split
  all_goals simp (maxDischargeDepth := 99) [h]

@[simp] theorem effSld_memWf {s : State} (h : s.memWf) (c : CtxId) (f : MForm) (old : Ctx) : (effSld c f old s).memWf := by
  unfold effSld
  repeat' split
  all_goals simp (maxDischargeDepth := 99) [h]

@[simp] theorem effSst_memWf {s : State} (h : s.memWf) (c : CtxId) (f : MForm) (old : Ctx) : (effSst c f old s).memWf := by
  unfold effSst
  repeat' split
  all_goals simp (maxDischargeDepth := 99) [h]

@[simp] theorem State.leaves_memWf {s : State} (h : s.memWf) (c : CtxId) : (State.leaves s c).memWf := by simp (maxDischargeDepth := 99) [State.leaves, h]

@[simp] theorem effFld_memWf {s : State} (h : s.memWf) (c : CtxId) (f : MForm) (old : Ctx) : (effFld c f old s).memWf := by simp (maxDischargeDepth := 99) [effFld, h]

theorem drawerOperand_memWf {s : State} (h : s.memWf) (c : CtxId) (f : MForm) (old : Ctx) (t : State)
    (e : drawerOperand c f old s = .none t ∨ ∃ l, drawerOperand c f old s = .bytes t l) : t.memWf := by
  unfold drawerOperand at e
  dsimp only at e
  split at e
  · rcases e with e | ⟨_, e⟩ <;> cases e
    exact h
  split at e
  · rcases e with e | ⟨_, e⟩ <;> cases e
    exact State.quiet_memWf h _ _
  split at e
  · rcases e with e | ⟨_, e⟩ <;> cases e
    exact State.quiet_memWf h _ _
  split at e
  · rcases e with e | ⟨_, e⟩ <;> cases e
    exact State.stop_memWf (State.ctxCorrect_memWf h _ _ _) _ _
  · rcases e with e | ⟨_, e⟩ <;> cases e
    exact State.ctxCorrect_memWf h _ _ _

@[simp] theorem effFst_memWf {s : State} (h : s.memWf) (c : CtxId) (f : MForm) (old : Ctx) : (effFst c f old s).memWf := by
  have h' := State.leaves_memWf h c
  unfold effFst
  dsimp only
  split
  · exact drawerOperand_memWf h' _ _ _ _ (.inl ‹_›)
  · exact State.access_memWf (drawerOperand_memWf h' _ _ _ _ (.inr ⟨_, ‹_›⟩)) _ _ _ _ _ _ _ _

@[simp] theorem effFstk_memWf {s : State} (h : s.memWf) (c : CtxId) (f : MForm) (old : Ctx) : (effFstk c f old s).memWf := by simp (maxDischargeDepth := 99) [effFstk, h]

@[simp] theorem effFatom_memWf {s : State} (h : s.memWf) (c : CtxId) (f : MForm) (old : Ctx) : (effFatom c f old s).memWf := by simp (maxDischargeDepth := 99) [effFatom, h]

@[simp] theorem effFacc_memWf {s : State} (h : s.memWf) (c : CtxId) (f : MForm) (old : Ctx) : (effFacc c f old s).memWf := by
  have h' := State.leaves_memWf h c
  unfold effFacc
  dsimp only
  split
  · exact drawerOperand_memWf h' _ _ _ _ (.inl ‹_›)
  · exact State.access_memWf (drawerOperand_memWf h' _ _ _ _ (.inr ⟨_, ‹_›⟩)) _ _ _ _ _ _ _ _

@[simp] theorem effFfence_memWf {s : State} (h : s.memWf) (c : CtxId) (_f : MForm) (_old : Ctx) : (effFfence c _f _old s).memWf := by simp (maxDischargeDepth := 99) [effFfence, h]

theorem loneM_memWf {s : State} {op : Nat} {c : CtxId} {f : MForm} {eff : Ctx → State → State} (h : s.memWf)
    (he : (eff (s.ctx c) s).memWf) : ResWf (loneM op c f s eff) := lone_memWf h he

theorem loneF_memWf {s : State} {op : Nat} {c : CtxId} {f : MForm} {eff : Ctx → State → State} (h : s.memWf)
    (he : (eff (s.ctx c) s).memWf) : ResWf (loneF op c f s eff) := lone_memWf h he

theorem execVld_memWf {s : State} (h : s.memWf) (c : CtxId) (f : MForm) : ResWf (execVld c f s) := by
  unfold execVld
  repeat' first
    | assumption
    | with_reducible apply loneM_memWf
    | with_reducible apply effVld_memWf

theorem execVst_memWf {s : State} (h : s.memWf) (c : CtxId) (f : MForm) : ResWf (execVst c f s) := by
  unfold execVst
  repeat' first
    | assumption
    | with_reducible apply loneM_memWf
    | with_reducible apply effVst_memWf

theorem execSld_memWf {s : State} (h : s.memWf) (c : CtxId) (f : MForm) : ResWf (execSld c f s) := by
  unfold execSld
  repeat' first
    | assumption
    | with_reducible apply loneM_memWf
    | with_reducible apply effSld_memWf

theorem execSst_memWf {s : State} (h : s.memWf) (c : CtxId) (f : MForm) : ResWf (execSst c f s) := by
  unfold execSst
  repeat' first
    | assumption
    | with_reducible apply loneM_memWf
    | with_reducible apply effSst_memWf

theorem execFld_memWf {s : State} (h : s.memWf) (c : CtxId) (f : MForm) : ResWf (execFld c f s) := by
  unfold execFld
  repeat' first
    | assumption
    | with_reducible apply loneF_memWf
    | with_reducible apply effFld_memWf

theorem execFst_memWf {s : State} (h : s.memWf) (c : CtxId) (f : MForm) : ResWf (execFst c f s) := by
  unfold execFst
  repeat' first
    | assumption
    | with_reducible apply loneF_memWf
    | with_reducible apply effFst_memWf

theorem execFstk_memWf {s : State} (h : s.memWf) (c : CtxId) (f : MForm) : ResWf (execFstk c f s) := by
  unfold execFstk
  repeat' first
    | assumption
    | with_reducible apply loneF_memWf
    | with_reducible apply effFstk_memWf

theorem execFatom_memWf {s : State} (h : s.memWf) (c : CtxId) (f : MForm) : ResWf (execFatom c f s) := by
  unfold execFatom
  repeat' first
    | assumption
    | with_reducible apply loneF_memWf
    | with_reducible apply effFatom_memWf

theorem execFacc_memWf {s : State} (h : s.memWf) (c : CtxId) (f : MForm) : ResWf (execFacc c f s) := by
  unfold execFacc
  repeat' first
    | assumption
    | with_reducible apply loneF_memWf
    | with_reducible apply effFacc_memWf

theorem execFfence_memWf {s : State} (h : s.memWf) (c : CtxId) (f : MForm) : ResWf (execFfence c f s) := by
  unfold execFfence
  repeat' first
    | assumption
    | with_reducible apply loneM_memWf
    | with_reducible apply effFfence_memWf

theorem execFfenceComplete_memWf {s : State} (h : s.memWf) (c : CtxId) : ResWf (execFfenceComplete c s) := by simp (maxDischargeDepth := 99) [execFfenceComplete, h]

/-! #### Links.lean -/

@[simp] theorem State.closedUse_memWf {s : State} (h : s.memWf) (n : Nat) (b : Nat) (link : Nat) : (State.closedUse s n b link).memWf := by simp (maxDischargeDepth := 99) [State.closedUse, h]

@[simp] theorem State.setWait_memWf {s : State} (h : s.memWf) (c : CtxId) (p : Wait → Bool) (w : Wait) : (State.setWait s c p w).memWf := by simp (maxDischargeDepth := 99) [State.setWait, h]

@[simp] theorem State.ownTx_memWf {s : State} (h : s.memWf) (c : CtxId) (link : Nat) : (State.ownTx s c link).memWf := by simp (maxDischargeDepth := 99) [State.ownTx, h]

@[simp] theorem State.leaveTx_memWf {s : State} (h : s.memWf) (c : CtxId) (link : Nat) : (State.leaveTx s c link).memWf := by simp (maxDischargeDepth := 99) [State.leaveTx, h]

@[simp] theorem State.ownRx_memWf {s : State} (h : s.memWf) (c : CtxId) (link : Nat) : (State.ownRx s c link).memWf := by simp (maxDischargeDepth := 99) [State.ownRx, h]

@[simp] theorem State.leaveRx_memWf {s : State} (h : s.memWf) (c : CtxId) (link : Nat) : (State.leaveRx s c link).memWf := by simp (maxDischargeDepth := 99) [State.leaveRx, h]

theorem State.sendOne_memWf {s : State} (h : s.memWf) (n : Nat) (b : Nat) (link : Nat) : ∀ t, (State.sendOne s n b link) = some t → t.memWf := by
  unfold State.sendOne
  dsimp only
  repeat' split
  all_goals simp (maxDischargeDepth := 99) [h]

@[simp] theorem State.freeEntry_memWf {s : State} (h : s.memWf) (n : Nat) (b : Nat) (link : Nat) : (State.freeEntry s n b link).memWf := by
  unfold State.freeEntry
  dsimp only
  repeat' split
  all_goals simp (maxDischargeDepth := 99) [h]

@[simp] theorem State.readyIn_memWf {s : State} (h : s.memWf) (c : CtxId) (key : Nat) (lat : Nat) : (State.readyIn s c key lat).memWf := by simp (maxDischargeDepth := 99) [State.readyIn, h]

theorem State.recvOne_memWf {s : State} (h : s.memWf) (n : Nat) (b : Nat) (link : Nat) : ∀ t, (State.recvOne s n b link) = some t → t.memWf := by
  unfold State.recvOne
  dsimp only
  repeat' split
  all_goals simp (maxDischargeDepth := 99) [h]

theorem pump_memWf {f : State → Option State} (hf : ∀ s t : State, s.memWf → f s = some t → t.memWf) (fuel : Nat)
    {s : State} (h : s.memWf) : (pump f fuel s).memWf := by
  induction fuel generalizing s with
  | zero => exact h
  | succ fuel ih =>
    unfold pump
    split
    · exact h
    · exact ih (hf _ _ h ‹_›)

@[simp] theorem State.pumpTx_memWf {s : State} (h : s.memWf) (n b link : Nat) : (s.pumpTx n b link).memWf :=
  pump_memWf (fun _ _ ht e => State.sendOne_memWf ht _ _ _ _ e) _ h

@[simp] theorem State.pumpRx_memWf {s : State} (h : s.memWf) (n b link : Nat) : (s.pumpRx n b link).memWf :=
  pump_memWf (fun _ _ ht e => State.recvOne_memWf ht _ _ _ _ e) _ h

@[simp] theorem State.queueTx_memWf {s : State} (h : s.memWf) (c : CtxId) (link : Nat) (w : Wait) : (State.queueTx s c link w).memWf := by simp (maxDischargeDepth := 99) [State.queueTx, h]

@[simp] theorem State.queueRx_memWf {s : State} (h : s.memWf) (c : CtxId) (link : Nat) (w : Wait) : (State.queueRx s c link w).memWf := by simp (maxDischargeDepth := 99) [State.queueRx, h]

@[simp] theorem effLsend_memWf {s : State} (h : s.memWf) (c : CtxId) (f : MForm) (old : Ctx) : (effLsend c f old s).memWf := by simp (maxDischargeDepth := 99) [effLsend, h]

@[simp] theorem effLrecv_memWf {s : State} (h : s.memWf) (c : CtxId) (f : MForm) (_old : Ctx) : (effLrecv c f _old s).memWf := by simp (maxDischargeDepth := 99) [effLrecv, h]

@[simp] theorem State.linkBlock_memWf {s : State} (h : s.memWf) (c : CtxId) (f : MForm) (old : Ctx) : (State.linkBlock s c f old).1.memWf := by
  unfold State.linkBlock
  dsimp only
  repeat' split
  all_goals simp (maxDischargeDepth := 99) [h]

@[simp] theorem effLsendd_memWf {s : State} (h : s.memWf) (c : CtxId) (f : MForm) (old : Ctx) : (effLsendd c f old s).memWf := by
  have hb := State.linkBlock_memWf h c f old
  unfold effLsendd
  split
  all_goals
    rename_i e
    rw [e] at hb
    simp at hb
    simp (maxDischargeDepth := 99) [hb]

@[simp] theorem effLrecvd_memWf {s : State} (h : s.memWf) (c : CtxId) (f : MForm) (old : Ctx) : (effLrecvd c f old s).memWf := by
  have hb := State.linkBlock_memWf h c f old
  unfold effLrecvd
  split
  all_goals
    rename_i e
    rw [e] at hb
    simp at hb
    simp (maxDischargeDepth := 99) [hb]

theorem execLsend_memWf {s : State} (h : s.memWf) (c : CtxId) (f : MForm) : ResWf (execLsend c f s) := by
  unfold execLsend
  repeat' first
    | assumption
    | with_reducible refine (ResWf_next _).2 ?_
    | with_reducible apply effLsend_memWf
    | with_reducible apply loneM_memWf
    | with_reducible apply inOrder_memWf
    | split
    | dsimp only

theorem execLrecv_memWf {s : State} (h : s.memWf) (c : CtxId) (f : MForm) : ResWf (execLrecv c f s) := by
  unfold execLrecv
  repeat' first
    | assumption
    | with_reducible refine (ResWf_next _).2 ?_
    | with_reducible apply effLrecv_memWf
    | with_reducible apply loneM_memWf
    | with_reducible apply inOrder_memWf
    | split
    | dsimp only

theorem execLsendd_memWf {s : State} (h : s.memWf) (c : CtxId) (f : MForm) : ResWf (execLsendd c f s) := by
  unfold execLsendd
  repeat' first
    | assumption
    | with_reducible refine (ResWf_next _).2 ?_
    | with_reducible apply effLsendd_memWf
    | with_reducible apply loneM_memWf
    | with_reducible apply inOrder_memWf
    | split
    | dsimp only

theorem execLrecvd_memWf {s : State} (h : s.memWf) (c : CtxId) (f : MForm) : ResWf (execLrecvd c f s) := by
  unfold execLrecvd
  repeat' first
    | assumption
    | with_reducible refine (ResWf_next _).2 ?_
    | with_reducible apply effLrecvd_memWf
    | with_reducible apply loneM_memWf
    | with_reducible apply inOrder_memWf
    | split
    | dsimp only

theorem execGranuleArrive_memWf {s : State} (h : s.memWf) (stack : Nat) (bench : Nat) (link : Nat) (bad : Bool) : ResWf (execGranuleArrive stack bench link bad s) := by
  unfold execGranuleArrive
  repeat' first
    | assumption
    | with_reducible refine (ResWf_next _).2 ?_
    | with_reducible apply ResWf_onBench
    | with_reducible apply ResWf_ite
    | with_reducible apply State.pumpRx_memWf
    | with_reducible apply inOrder_memWf
    | with_reducible apply State.modBench_memWf
    | split
    | dsimp only

theorem execCreditReturn_memWf {s : State} (h : s.memWf) (stack : Nat) (bench : Nat) (link : Nat) : ResWf (execCreditReturn stack bench link s) := by
  unfold execCreditReturn
  repeat' first
    | assumption
    | with_reducible refine (ResWf_next _).2 ?_
    | with_reducible apply ResWf_onBench
    | with_reducible apply ResWf_whenOk
    | with_reducible apply State.pumpTx_memWf
    | with_reducible apply inOrder_memWf
    | with_reducible apply State.modBench_memWf
    | split
    | dsimp only

@[simp] theorem State.emptyLink_memWf {s : State} (h : s.memWf) (n : Nat) (b : Nat) (link : Nat) : (State.emptyLink s n b link).memWf := by
  unfold State.emptyLink
  dsimp only
  repeat' split
  all_goals simp (maxDischargeDepth := 99) [h]

@[simp] theorem State.emptyLinks_memWf {s : State} (h : s.memWf) (n : Nat) (b : Nat) : (State.emptyLinks s n b).memWf := by
  unfold State.emptyLinks
  repeat' first
    | assumption
    | with_reducible apply State.emptyLink_memWf
    | with_reducible apply memWf_foldl
    | (intro _ _ _)

@[simp] theorem State.releaseLinks_memWf {s : State} (h : s.memWf) (c : CtxId) : (s.releaseLinks c).memWf := by
  unfold State.releaseLinks
  refine memWf_foldl (fun t l ht => State.pumpRx_memWf (State.pumpTx_memWf (State.modBench_memWf ?_ _ _ _) _ _ _) _ _ _) _ h
  split
  · refine State.modBench_memWf ?_ _ _ _
    split
    · exact State.modBench_memWf ht _ _ _
    · exact ht
  · split
    · exact State.modBench_memWf ht _ _ _
    · exact ht

/-! #### Sequencer.lean -/

@[simp] theorem slotEffect_memWf {s : State} (h : s.memWf) (slot : Nat) (w : Word) (c : CtxId) (old : Ctx) : (slotEffect slot w c old s).memWf := by
  unfold slotEffect
  dsimp only
  repeat' split
  all_goals simp (maxDischargeDepth := 99) [h]

@[simp] theorem State.issue_memWf {s : State} (h : s.memWf) (c : CtxId) : (State.issue s c).memWf := by
  unfold State.issue
  repeat' first
    | assumption
    | with_reducible apply State.modCtx_memWf
    | with_reducible apply State.modBench_memWf
    | with_reducible apply slotEffect_memWf
    | with_reducible apply State.refresh_memWf
    | with_reducible apply memWf_foldl
    | (intro _ _ _)
    | split

@[simp] theorem State.stopPast_memWf {s : State} (h : s.memWf) (n b : Nat) : (s.stopPast n b).memWf := by
  unfold State.stopPast
  refine memWf_foldl (fun t ci ht => ?_) _ h
  dsimp only
  split
  · exact State.stop_memWf ht _ _
  · exact ht

theorem execBundleIssue_memWf {s : State} (h : s.memWf) (stack : Nat) (bench : Nat) : ResWf (execBundleIssue stack bench s) := by
  refine inOrder_memWf (ResWf_onBench _ _ ?_)
  dsimp only
  have h' : (s.stopPast stack bench).memWf := State.stopPast_memWf h _ _
  split
  · exact (ResWf_next _).2 (State.modBench_memWf h' _ _ _)
  · exact (ResWf_next _).2 (State.modBench_memWf (State.issue_memWf h' _) _ _ _)

end Sys2Proof.Machine
end

