-- ==== Sys2Proof/Laws/MemHost.lean ====
section
/-! SUPPORT. Every operation and meaning of the register, host, descriptor, fault and cell commands keeps the canonical
form of the memories (`State.memWf`): one lemma each, named `<definition>_memWf`. -/
namespace Sys2Proof.Machine

/-! #### Access.lean -/

@[simp] theorem State.countAt_memWf {s : State} (h : s.memWf) (r : Reg) : (State.countAt s r).memWf := by simp (maxDischargeDepth := 99) [State.countAt, h]

theorem State.onWrite_memWf {s : State} {who : Requester} {r : Reg} {eff : State → State} (h : s.memWf)
    (he : (eff s).memWf) : (s.onWrite who r eff).memWf := by
  unfold State.onWrite
  split
  · exact he
  · exact h
  · exact State.countAt_memWf h _

@[simp] theorem State.dropLatch_memWf {s : State} (h : s.memWf) (who : Requester) (o : Nat) : (State.dropLatch s who o).memWf := by simp (maxDischargeDepth := 99) [State.dropLatch, h]

@[simp] theorem State.setLatch_memWf {s : State} (h : s.memWf) (who : Requester) (o : Nat) (v : BitVec 32) : (State.setLatch s who o v).memWf := by simp (maxDischargeDepth := 99) [State.setLatch, h]

theorem State.onWord_memWf {s : State} {who : Requester} {r : Reg} {eff : State → State} (h : s.memWf)
    (he : (eff (s.dropLatch who r.offset)).memWf) : (s.onWord who r eff).memWf :=
  State.onWrite_memWf (State.dropLatch_memWf h _ _) he

@[simp] theorem State.plainWrite_memWf {s : State} (h : s.memWf) (r : Reg) (v : Word) (live : Word) : (State.plainWrite s r v live).memWf := by simp (maxDischargeDepth := 99) [State.plainWrite, h]

theorem stackWrite_memWf {s : State} (h : s.memWf) (n : Nat) (who : Requester) (r : Reg) {eff : State → State}
    (he : (eff (s.dropLatch who r.offset)).memWf) : ResWf (stackWrite n who r s eff) :=
  ResWf_onStack _ ((ResWf_next _).2 (State.onWord_memWf h he))

/-! #### Control.lean -/

@[simp] theorem State.hang_memWf {s : State} (h : s.memWf) (c : CtxId) : (State.hang s c).memWf := by simp (maxDischargeDepth := 99) [State.hang, h]

theorem execCtxWatchdogExpire_memWf {s : State} (h : s.memWf) (c : CtxId) : ResWf (execCtxWatchdogExpire c s) := by simp (maxDischargeDepth := 99) [execCtxWatchdogExpire, h]

@[simp] theorem State.wrWdogCfg_memWf {s : State} (h : s.memWf) (n : Nat) (v : Word) (live : Word) : (State.wrWdogCfg n v live s).memWf := by
  unfold State.wrWdogCfg
  repeat' first
    | assumption
    | with_reducible apply State.hang_memWf
    | with_reducible apply memWf_foldl
    | (intro _ _ _)
    | split

theorem execWdogIntervalWrite_memWf {s : State} (h : s.memWf) (who : Requester) (stack : Nat) (value : Word) : ResWf (execWdogIntervalWrite who stack value s) := by
  unfold execWdogIntervalWrite
  repeat' first
    | assumption
    | with_reducible apply stackWrite_memWf
    | with_reducible apply State.wrWdogCfg_memWf

@[simp] theorem State.resumeCtx_memWf {s : State} (h : s.memWf) (c : CtxId) : (State.resumeCtx s c).memWf := by simp (maxDischargeDepth := 99) [State.resumeCtx, h]

@[simp] theorem State.dbgGo_memWf {s : State} (h : s.memWf) (c : CtxId) : (State.dbgGo s c).memWf := by simp (maxDischargeDepth := 99) [State.dbgGo, h]

@[simp] theorem State.killCtx_memWf {s : State} (h : s.memWf) (c : CtxId) (torn : Bool) : (State.killCtx s c torn).memWf := by simp (maxDischargeDepth := 99) [State.killCtx, h]

@[simp] theorem State.wrCtxCtrl_memWf {s : State} (h : s.memWf) (c : CtxId) (v : Word) (live : Word) : (State.wrCtxCtrl c v live s).memWf := by simp (maxDischargeDepth := 99) [State.wrCtxCtrl, h]

theorem execResume_memWf {s : State} (h : s.memWf) (who : Requester) (c : CtxId) : ResWf (execResume who c s) := by
  unfold execResume
  repeat' first
    | assumption
    | with_reducible refine (ResWf_next _).2 ?_
    | with_reducible apply ResWf_onCtx
    | with_reducible apply ResWf_ite
    | with_reducible apply State.onWord_memWf
    | with_reducible apply State.onWrite_memWf
    | with_reducible apply State.wrCtxCtrl_memWf
    | with_reducible apply State.onWord_memWf
    | split
    | dsimp only

theorem execKill_memWf {s : State} (h : s.memWf) (who : Requester) (c : CtxId) : ResWf (execKill who c s) := by
  unfold execKill
  repeat' first
    | assumption
    | with_reducible refine (ResWf_next _).2 ?_
    | with_reducible apply ResWf_onCtx
    | with_reducible apply ResWf_ite
    | with_reducible apply State.onWord_memWf
    | with_reducible apply State.onWrite_memWf
    | with_reducible apply State.wrCtxCtrl_memWf
    | with_reducible apply State.onWord_memWf
    | split
    | dsimp only

theorem execKilledDrained_memWf {s : State} (h : s.memWf) (c : CtxId) : ResWf (execKilledDrained c s) := by simp (maxDischargeDepth := 99) [execKilledDrained, h]

theorem execFabricReplyToContext_memWf {s : State} (h : s.memWf) (stack : Nat) (req : Nat) : ResWf (execFabricReplyToContext stack req s) := by
  unfold execFabricReplyToContext
  dsimp only
  repeat' split
  all_goals simp (maxDischargeDepth := 99) [h]

@[simp] theorem State.setJob_memWf {s : State} (h : s.memWf) (n : Nat) (b : Nat) (job : Nat) : (State.setJob s n b job).memWf := by simp (maxDischargeDepth := 99) [State.setJob, h]

@[simp] theorem State.wrBenchCfg_memWf {s : State} (h : s.memWf) (n : Nat) (b : Nat) (v : Word) (live : Word) : (State.wrBenchCfg n b v live s).memWf := by simp (maxDischargeDepth := 99) [State.wrBenchCfg, h]

theorem execJobWrite_memWf {s : State} (h : s.memWf) (who : Requester) (stack : Nat) (bench : Nat) (value : Word) : ResWf (execJobWrite who stack bench value s) := by
  unfold execJobWrite
  repeat' first
    | assumption
    | with_reducible refine (ResWf_next _).2 ?_
    | with_reducible apply ResWf_onBench
    | with_reducible apply ResWf_ite
    | with_reducible apply State.onWord_memWf
    | with_reducible apply State.onWrite_memWf
    | with_reducible apply State.wrBenchCfg_memWf
    | with_reducible apply State.onWord_memWf
    | split
    | dsimp only

/-! #### Clocking.lean -/

@[simp] theorem State.evalClock_memWf {s : State} (h : s.memWf) (temps : List Nat) : (State.evalClock s temps).memWf := by
  unfold State.evalClock
  repeat' first
    | assumption
    | with_reducible apply State.modStack_memWf_same
    | with_reducible apply memWf_foldl
    | (intro _ _ _)
    | simp (maxDischargeDepth := 99) [h]

theorem execClockEvaluation_memWf {s : State} (h : s.memWf) (temps : List Nat) : ResWf (execClockEvaluation temps s) := by simp (maxDischargeDepth := 99) [execClockEvaluation, h]

@[simp] theorem State.noteThrottle_memWf {s : State} (h : s.memWf) : (State.noteThrottle s).memWf := by simp (maxDischargeDepth := 99) [State.noteThrottle, h]

theorem execApplyClockStep_memWf {s : State} (h : s.memWf) (stack : Nat) : ResWf (execApplyClockStep stack s) := by
  unfold execApplyClockStep
  repeat' first
    | assumption
    | with_reducible refine (ResWf_next _).2 ?_
    | with_reducible apply ResWf_noUnit
    | with_reducible apply ResWf_onStack
    | with_reducible apply State.event_memWf
    | with_reducible refine State.modStack_memWf_same ?_ _ (by simp; done)
    | split
    | simp only [State.memWf_mk, memsWf_fold]

@[simp] theorem State.wrReseat_memWf {s : State} (h : s.memWf) (n : Nat) (v : Word) (live : Word) : (State.wrReseat n v live s).memWf := by simp (maxDischargeDepth := 99) [State.wrReseat, h]

theorem execReseatGo_memWf {s : State} (h : s.memWf) (who : Requester) (stack : Nat) : ResWf (execReseatGo who stack s) := by
  unfold execReseatGo
  repeat' first
    | assumption
    | with_reducible apply stackWrite_memWf
    | with_reducible apply State.wrReseat_memWf

@[simp] theorem State.clearBench_memWf {s : State} (h : s.memWf) (n b : Nat) : (s.clearBench n b).memWf := by
  refine State.emptyLinks_memWf (State.modStack_memWf h _ (fun k hk => ?_)) _ _
  rw [Stack.memWf_iff] at hk ⊢
  exact ⟨hk.1, hk.2.1, Mem.wf_clear _ _ _ hk.2.2.1, hk.2.2.2⟩

@[simp] theorem State.moveRow_memWf {s : State} (h : s.memWf) (n : Nat) (row : Nat × Nat) : (State.moveRow s n row).memWf := by
  unfold State.moveRow
  repeat' first
    | assumption
    | with_reducible apply State.clearBench_memWf
    | with_reducible apply memWf_foldl
    | (intro _ _ _)

theorem execReseatDone_memWf {s : State} (h : s.memWf) (stack : Nat) : ResWf (execReseatDone stack s) := by
  unfold execReseatDone
  repeat' first
    | assumption
    | with_reducible apply ResWf_onStack
    | with_reducible apply ResWf_whenOk
    | with_reducible apply State.event_memWf
    | with_reducible apply State.setFld_memWf
    | with_reducible apply State.setBit_memWf
    | with_reducible apply State.moveRow_memWf
    | with_reducible apply State.modStack_memWf_same
    | with_reducible apply memWf_foldl
    | (intro _ _ _)
    | simp (maxDischargeDepth := 99) [h]

/-! #### Cores.lean -/

@[simp] theorem State.wrBoot_memWf {s : State} (h : s.memWf) (n : Nat) (v : Word) (live : Word) : (State.wrBoot n v live s).memWf := by simp (maxDischargeDepth := 99) [State.wrBoot, h]

theorem execRuntimeGo_memWf {s : State} (h : s.memWf) (who : Requester) (stack : Nat) (value : Word) : ResWf (execRuntimeGo who stack value s) := by
  unfold execRuntimeGo
  repeat' first
    | assumption
    | with_reducible apply stackWrite_memWf
    | with_reducible apply State.wrBoot_memWf

@[simp] theorem State.startCore_memWf {s : State} (h : s.memWf) (n : Nat) (c : Nat) (x : CoreStart) : (State.startCore s n c x).memWf := by simp (maxDischargeDepth := 99) [State.startCore, h]

theorem execRuntimeCopyDone_memWf {s : State} (h : s.memWf) (stack : Nat) : ResWf (execRuntimeCopyDone stack s) := by
  unfold execRuntimeCopyDone
  refine ResWf_onStack _ ?_
  split
  · exact (ResWf_next _).2 h
  split
  · exact (ResWf_next _).2 h
  rename_i addr pages _ _
  have h1 : (s.loadTier stack false addr (pages * pageSize)).state.memWf := State.loadTier_memWf h _ _ _ _
  have h2 := State.modStack_memWf_same h1 stack (f := fun k => { k with booting := none }) (by intro k; rfl)
  dsimp only
  split
  · exact (ResWf_next _).2 h2
  have h3 := State.setBit_memWf (State.modStack_memWf h2 stack
    (f := fun k => { k with
      sram := Tab.splice Mem.unlisted k.sram 0 (s.loadTier stack false addr (pages * pageSize)).bytes
      measCore := extendBy k.measCore (bootRecord (s.loadTier stack false addr (pages * pageSize)).bytes pages) })
    (fun _ hk => Stack.memWf_sram hk (Mem.wf_splice _ _ _ (Stack.sram_wf hk)))) (.HCORE_BOOT stack) HCORE_BOOT_RUNNING true
  split
  · exact (ResWf_next _).2 (State.startCore_memWf h3 _ _ _)
  · exact (ResWf_next _).2 h3

@[simp] theorem State.tellNoCore_memWf {s : State} (h : s.memWf) (n : Nat) : (State.tellNoCore s n).memWf := by simp (maxDischargeDepth := 99) [State.tellNoCore, h]

theorem execHartStart_memWf {s : State} (h : s.memWf) (stack : Nat) (core : Nat) (args : HartArgs) : ResWf (execHartStart stack core args s) := by
  unfold execHartStart
  repeat' split
  all_goals simp (maxDischargeDepth := 99) [h]

@[simp] theorem State.hangCore_memWf {s : State} (h : s.memWf) (n : Nat) (c : Nat) : (State.hangCore s n c).memWf := by simp (maxDischargeDepth := 99) [State.hangCore, h]

theorem execCoreWdogWarn_memWf {s : State} (h : s.memWf) (stack : Nat) (core : Nat) : ResWf (execCoreWdogWarn stack core s) := by simp (maxDischargeDepth := 99) [execCoreWdogWarn, h]

theorem execCoreWdogHung_memWf {s : State} (h : s.memWf) (stack : Nat) (core : Nat) : ResWf (execCoreWdogHung stack core s) := by simp (maxDischargeDepth := 99) [execCoreWdogHung, h]

@[simp] theorem State.restartCore_memWf {s : State} (h : s.memWf) (n : Nat) (c : Nat) : (State.restartCore s n c).memWf := by simp (maxDischargeDepth := 99) [State.restartCore, h]

@[simp] theorem State.kickCore_memWf {s : State} (h : s.memWf) (n : Nat) (c : Nat) : (State.kickCore s n c).memWf := by simp (maxDischargeDepth := 99) [State.kickCore, h]

@[simp] theorem State.wrCore_memWf {s : State} (h : s.memWf) (n : Nat) (c : Nat) (v : Word) (live : Word) : (State.wrCore n c v live s).memWf := by simp (maxDischargeDepth := 99) [State.wrCore, h]

theorem execKick_memWf {s : State} (h : s.memWf) (who : Requester) (stack : Nat) (core : Nat) : ResWf (execKick who stack core s) := by
  unfold execKick
  repeat' first
    | assumption
    | with_reducible apply ResWf_noUnit
    | with_reducible apply stackWrite_memWf
    | with_reducible apply State.wrCore_memWf
    | split

theorem execRestart_memWf {s : State} (h : s.memWf) (who : Requester) (stack : Nat) (core : Nat) : ResWf (execRestart who stack core s) := by
  unfold execRestart
  repeat' first
    | assumption
    | with_reducible apply ResWf_noUnit
    | with_reducible apply stackWrite_memWf
    | with_reducible apply State.wrCore_memWf
    | split

@[simp] theorem State.wrDringCfg_memWf {s : State} (h : s.memWf) (n : Nat) (r : Nat) (v : Word) (live : Word) : (State.wrDringCfg n r v live s).memWf := by simp (maxDischargeDepth := 99) [State.wrDringCfg, h]

theorem execDringCfgWrite_memWf {s : State} (h : s.memWf) (who : Requester) (stack : Nat) (ring : Nat) (value : Word) : ResWf (execDringCfgWrite who stack ring value s) := by
  unfold execDringCfgWrite
  repeat' first
    | assumption
    | with_reducible apply ResWf_noUnit
    | with_reducible apply stackWrite_memWf
    | with_reducible apply State.wrDringCfg_memWf
    | split

@[simp] theorem State.wrDringIdx_memWf {s : State} (h : s.memWf) (n : Nat) (r : Nat) (v : Word) (live : Word) : (State.wrDringIdx n r v live s).memWf := by simp (maxDischargeDepth := 99) [State.wrDringIdx, h]

theorem execDringDoorbell_memWf {s : State} (h : s.memWf) (who : Requester) (stack : Nat) (ring : Nat) (value : Word) : ResWf (execDringDoorbell who stack ring value s) := by
  unfold execDringDoorbell
  repeat' first
    | assumption
    | with_reducible apply ResWf_noUnit
    | with_reducible apply stackWrite_memWf
    | split

/-! #### Descriptors.lean -/

@[simp] theorem State.setDescs_memWf {s : State} (h : s.memWf) (l : List Desc) : (State.setDescs s l).memWf := by simp (maxDischargeDepth := 99) [State.setDescs, h]

@[simp] theorem State.modDesc_memWf {s : State} (h : s.memWf) (h0 : Nat) (f : Desc → Desc) : (State.modDesc s h0 f).memWf := by simp (maxDischargeDepth := 99) [State.modDesc, h]

@[simp] theorem State.modRing_memWf {s : State} (h : s.memWf) (r : Nat) (f : Ring → Ring) : (State.modRing s r f).memWf := by simp (maxDischargeDepth := 99) [State.modRing, h]

@[simp] theorem State.transRange_memWf (fuel : Nat) {s : State} (h : s.memWf) (n ctx : Nat) (w : Waiter)
    (code word va left : Nat) (acc : List Seg) : (s.transRange fuel n ctx w code word va left acc).1.memWf := by
  induction fuel generalizing s va left acc with
  | zero => exact h
  | succ fuel ih =>
    unfold State.transRange
    dsimp only
    split
    · exact h
    split
    · exact h
    split
    · exact h
    · exact ih h _ _ _
    split
    · exact State.modStack_memWf_same h _ (by intro k; rfl)
    split
    · exact State.modStack_memWf_same h _ (by intro k; rfl)
    split
    · exact h
    split
    · exact State.modStack_memWf_same h _ (by intro k; rfl)
    have h' := State.walk_memWf h n ctx va
    split
    · exact ih h' _ _ _
    · exact State.openFault_memWf h' _ _ _ _ _ _ _ _

@[simp] theorem State.transAll_memWf (l : List (Nat × Nat × Nat)) {s : State} (h : s.memWf) (d : Desc) (acc : List Seg) :
    (State.transAll l s d acc).1.memWf := by
  induction l generalizing s acc with
  | nil => exact h
  | cons x l ih =>
    have h' := State.transRange_memWf (x.2.2 / 4096 + 2) h d.stack d.xctx (.desc d.ring d.handle x.1)
      (operandAccess d.opcode x.1) x.1 x.2.1 x.2.2 acc
    unfold State.transAll
    dsimp only
    split
    · split
      · exact h'
      · exact ih h' _
    · exact h'

@[simp] theorem State.prepare_memWf {s : State} (h : s.memWf) (d : Desc) : (State.prepare s d).1.memWf := by
  unfold State.prepare
  dsimp only
  repeat' split
  all_goals simp (maxDischargeDepth := 99) [h]

@[simp] theorem State.addReqs_memWf {s : State} (h : s.memWf) (n : Nat) (rs : List Req) : (State.addReqs s n rs).memWf := by simp (maxDischargeDepth := 99) [State.addReqs, h]

@[simp] theorem State.readSeg_memWf {s : State} (h : s.memWf) (d : Desc) (x2 : Seg) : (State.readSeg s d x2).memWf := by
  unfold State.readSeg
  repeat' first
    | assumption
    | with_reducible apply State.quiet_memWf
    | with_reducible apply State.addReqs_memWf
    | with_reducible apply memWf_foldl
    | (intro _ _ _)
    | split

@[simp] theorem State.readOperand_memWf {s : State} (h : s.memWf) (d : Desc) (word : Nat) (from_ : Nat) : (State.readOperand s d word from_).memWf := by
  unfold State.readOperand
  repeat' first
    | assumption
    | with_reducible apply State.readSeg_memWf
    | with_reducible apply memWf_foldl
    | (intro _ _ _)

@[simp] theorem State.writeSeg_memWf {s : State} (h : s.memWf) (d : Desc) (op : BitVec 8) (x3 : Seg) (bs : List Byte) : (State.writeSeg s d op x3 bs).memWf := by
  unfold State.writeSeg
  repeat' first
    | assumption
    | with_reducible apply State.addReqs_memWf
    | with_reducible apply memWf_foldl
    | (intro _ _ _)
    | split

@[simp] theorem State.writeOperand_memWf {s : State} (h : s.memWf) (d : Desc) (op : BitVec 8) (word : Nat)
    (bs : List Byte) : (s.writeOperand d op word bs).memWf :=
  memWf_foldl_fst (fun _ _ hp => State.writeSeg_memWf hp _ _ _ _) _ h

@[simp] theorem State.hostWrite_memWf {s : State} (h : s.memWf) (a : Nat) (bs : List Byte) : (s.hostWrite a bs).memWf :=
  ⟨Mem.wf_writeBytes _ _ _ h.1, h.2⟩

@[simp] theorem State.finishDesc_memWf {s : State} (h : s.memWf) (h0 : Nat) : (State.finishDesc s h0).memWf := by simp (maxDischargeDepth := 99) [State.finishDesc, h]

@[simp] theorem State.dropDescReqs_memWf {s : State} (h : s.memWf) (d : Desc) : (State.dropDescReqs s d).memWf := by simp (maxDischargeDepth := 99) [State.dropDescReqs, h]

@[simp] theorem State.takeImageHeader_memWf {s : State} (h : s.memWf) (n : Nat) : (State.takeImageHeader s n).memWf := by
  unfold State.takeImageHeader
  split
  · exact h
  dsimp only
  split
  · split
    · exact State.modDesc_memWf (State.dropDescReqs_memWf h _) _ _
    · exact State.modDesc_memWf (State.prepare_memWf (State.modDesc_memWf (State.dropDescReqs_memWf h _) _ _) _) _ _
  · exact h

@[simp] theorem State.prepared_memWf {s : State} (h : s.memWf) (d : Desc) : (State.prepared s d).memWf := by
  unfold State.prepared
  split
  · exact State.takeImageHeader_memWf (State.readOperand_memWf (State.modDesc_memWf h _ _) _ _ _) _
  · exact State.modDesc_memWf h _ _

@[simp] theorem State.failDesc_memWf {s : State} (h : s.memWf) (h0 : Nat) (status : Nat) (detail : Nat) : (State.failDesc s h0 status detail).memWf := by
  unfold State.failDesc
  dsimp only
  repeat' split
  all_goals simp (maxDischargeDepth := 99) [h]

@[simp] theorem State.leaveFaultsDesc_memWf {s : State} (h : s.memWf) (d : Desc) : (State.leaveFaultsDesc s d).memWf := by simp (maxDischargeDepth := 99) [State.leaveFaultsDesc, h]

/-! #### Rings.lean -/

@[simp] theorem State.enableRing_memWf {s : State} (h : s.memWf) (r : Nat) : (State.enableRing s r).memWf := by simp (maxDischargeDepth := 99) [State.enableRing, h]

@[simp] theorem State.disableRing_memWf {s : State} (h : s.memWf) (r : Nat) : (State.disableRing s r).memWf := by simp (maxDischargeDepth := 99) [State.disableRing, h]

@[simp] theorem State.wrRingCfg_memWf {s : State} (h : s.memWf) (r : Nat) (v : Word) (live : Word) : (State.wrRingCfg r v live s).memWf := by simp (maxDischargeDepth := 99) [State.wrRingCfg, h]

@[simp] theorem State.wrRingArea_memWf {s : State} (h : s.memWf) (q : Reg) (r : Nat) (v : Word) (live : Word) : (State.wrRingArea q r v live s).memWf := by simp (maxDischargeDepth := 99) [State.wrRingArea, h]

theorem execRingEnable_memWf {s : State} (h : s.memWf) (who : Requester) (ring : Nat) (value : Word) : ResWf (execRingEnable who ring value s) := by
  unfold execRingEnable
  repeat' first
    | assumption
    | with_reducible refine (ResWf_next _).2 ?_
    | with_reducible apply ResWf_onRing
    | with_reducible apply ResWf_ite
    | with_reducible apply State.onWord_memWf
    | with_reducible apply State.onWrite_memWf
    | with_reducible apply State.wrRingCfg_memWf
    | with_reducible apply State.onWord_memWf
    | split
    | dsimp only

theorem execRingDisable_memWf {s : State} (h : s.memWf) (who : Requester) (ring : Nat) (value : Word) : ResWf (execRingDisable who ring value s) := by
  unfold execRingDisable
  repeat' first
    | assumption
    | with_reducible refine (ResWf_next _).2 ?_
    | with_reducible apply ResWf_onRing
    | with_reducible apply ResWf_ite
    | with_reducible apply State.onWord_memWf
    | with_reducible apply State.onWrite_memWf
    | with_reducible apply State.wrRingCfg_memWf
    | with_reducible apply State.onWord_memWf
    | split
    | dsimp only

@[simp] theorem State.ringError_memWf {s : State} (h : s.memWf) (r : Nat) (code : Nat) : (State.ringError s r code).memWf := by simp (maxDischargeDepth := 99) [State.ringError, h]

theorem Mem.wf_foldWrite (l : List Host.Cell) (m : Mem) (hm : Mem.wf m = true) :
    Mem.wf (l.foldl (fun m c => Mem.write m c.1 c.2) m) = true := by
  induction l generalizing m with
  | nil => exact hm
  | cons c l ih => exact ih _ (Mem.wf_write _ _ _ hm)

theorem execDoorbellSnoop_memWf {s : State} (h : s.memWf) (ring : Nat) (written : List Host.Cell) :
    ResWf (execDoorbellSnoop ring written s) := by
  have h' : State.memWf { s with hostMem := written.foldl (fun m c => Mem.write m c.1 c.2) s.hostMem } :=
    ⟨Mem.wf_foldWrite _ _ h.1, h.2⟩
  unfold execDoorbellSnoop
  refine ResWf_onRing _ ((ResWf_next _).2 ?_)
  split
  · exact State.modRing_memWf h' _ _
  · exact h'

@[simp] theorem State.checkRoom_memWf {s : State} (h : s.memWf) (r : Nat) : (State.checkRoom s r).memWf := by simp (maxDischargeDepth := 99) [State.checkRoom, h]

@[simp] theorem State.takeDoorbell_memWf {s : State} (h : s.memWf) (r : Nat) : (State.takeDoorbell s r).memWf := by simp (maxDischargeDepth := 99) [State.takeDoorbell, h]

theorem execDoorbellReadDone_memWf {s : State} (h : s.memWf) (ring : Nat) (cxlErr : Bool) : ResWf (execDoorbellReadDone ring cxlErr s) := by simp (maxDischargeDepth := 99) [execDoorbellReadDone, h]

theorem execDoorbellPoll_memWf {s : State} (h : s.memWf) (ring : Nat) : ResWf (execDoorbellPoll ring s) := by simp (maxDischargeDepth := 99) [execDoorbellPoll, h]

@[simp] theorem State.tookRing_memWf {s : State} (h : s.memWf) (n : Nat) (q : RingId) : (State.tookRing s n q).memWf := by simp (maxDischargeDepth := 99) [State.tookRing, h]

@[simp] theorem State.takeDesc_memWf {s : State} (h : s.memWf) (q : RingId) (index : Nat) (bs : List Byte) (ok : Bool) :
    (s.takeDesc q index bs ok).memWf := by
  unfold State.takeDesc
  dsimp only
  split
  · exact State.writeFound_memWf (State.prepared_memWf (State.prepare_memWf (by exact h) _) _) _ _
  · exact h

@[simp] theorem State.fetchHost_memWf {s : State} (h : s.memWf) (r : Nat) : (s.fetchHost r).memWf := by
  unfold State.fetchHost
  dsimp only
  split
  · exact State.tookRing_memWf (State.setReg_memWf (State.setFld_memWf (State.takeDesc_memWf h _ _ _ _) _ _ _) _ _) _ _
  · exact State.satFld_memWf (State.tookRing_memWf (State.setReg_memWf (State.setFld_memWf
      (State.takeDesc_memWf h _ _ _ _) _ _ _) _ _) _ _) _ _ _

@[simp] theorem State.fetchDev_memWf {s : State} (h : s.memWf) (n r : Nat) : (s.fetchDev n r).memWf := by
  unfold State.fetchDev
  exact State.tookRing_memWf (State.setFld_memWf (State.takeDesc_memWf h _ _ _ _) _ _ _) _ _

theorem execDescriptorFetch_memWf {s : State} (h : s.memWf) (ring : RingId) (cxlErr : Bool) : ResWf (execDescriptorFetch ring cxlErr s) := by
  unfold execDescriptorFetch
  repeat' split
  all_goals simp (maxDischargeDepth := 99) [h]

theorem execDescriptorStart_memWf {s : State} (h : s.memWf) (desc : Nat) : ResWf (execDescriptorStart desc s) := by
  unfold execDescriptorStart
  repeat' split
  all_goals simp (maxDischargeDepth := 99) [h]

@[simp] theorem State.timeoutScheduled_memWf {s : State} (h : s.memWf) (detail : Nat) : (State.timeoutScheduled s detail).memWf := by
  unfold State.timeoutScheduled
  repeat' first
    | assumption
    | with_reducible apply State.failDesc_memWf
    | with_reducible apply State.leaveFaultsDesc_memWf
    | with_reducible apply memWf_foldl
    | (intro _ _ _)
    | split

@[simp] theorem State.completeHost_memWf {s : State} (h : s.memWf) (r : Nat) (d : Desc) (cxlErr : Bool) : (State.completeHost s r d cxlErr).memWf := by simp (maxDischargeDepth := 99) [State.completeHost, h]

@[simp] theorem State.completeDev_memWf {s : State} (h : s.memWf) (n : Nat) (r : Nat) (d : Desc) : (State.completeDev s n r d).memWf := by
  unfold State.completeDev
  repeat' first
    | assumption
    | with_reducible apply State.setFld_memWf
    | with_reducible apply State.event_memWf
    | with_reducible refine State.modStack_memWf ?_ _ ?_
    | with_reducible apply Stack.memWf_sram
    | with_reducible apply Mem.wf_writeBytes
    | with_reducible apply Stack.sram_wf
    | split
    | dsimp only
    | (intro _ _)

/-! #### Engines.lean -/

@[simp] theorem State.phase_memWf {s : State} (h : s.memWf) (h0 : Nat) (p : DescPhase) : (State.phase s h0 p).memWf := by simp (maxDischargeDepth := 99) [State.phase, h]

@[simp] theorem State.lastStore_memWf {s : State} (h : s.memWf) (d : Desc) (on : Bool) (op : BitVec 8) (word : Nat) (w : Word) : (State.lastStore s d on op word w).memWf := by simp (maxDischargeDepth := 99) [State.lastStore, h]

@[simp] theorem State.afterDest_memWf {s : State} (h : s.memWf) (d : Desc) : (State.afterDest s d).memWf := by simp (maxDischargeDepth := 99) [State.afterDest, h]

@[simp] theorem State.storeDest_memWf {s : State} (h : s.memWf) (d : Desc) : (State.storeDest s d).memWf := by
  unfold State.storeDest
  dsimp only
  repeat' split
  all_goals simp (maxDischargeDepth := 99) [h]

@[simp] theorem State.endBallast_memWf {s : State} (h : s.memWf) (n : Nat) (b : Nat) : (State.endBallast s n b).memWf := by simp (maxDischargeDepth := 99) [State.endBallast, h]

@[simp] theorem State.startBench_memWf {s : State} (h : s.memWf) (d : Desc) (b : Nat) : (State.startBench s d b).memWf := by
  unfold State.startBench
  repeat' first
    | assumption
    | with_reducible apply State.endBallast_memWf
    | with_reducible apply State.phase_memWf
    | with_reducible apply State.modDesc_memWf
    | with_reducible apply State.setCtx_memWf
    | with_reducible apply State.modBench_memWf
    | with_reducible apply memWf_foldl
    | with_reducible apply memWf_foldl_fst
    | (intro _ _ _)
    | split
    | dsimp only

@[simp] theorem State.startLaunch_memWf {s : State} (h : s.memWf) (d : Desc) : (State.startLaunch s d).memWf := by
  unfold State.startLaunch
  repeat' first
    | assumption
    | with_reducible apply State.startBench_memWf
    | with_reducible apply State.modDesc_memWf
    | with_reducible apply State.modStack_memWf_same
    | with_reducible apply memWf_foldl
    | (intro _ _ _)
    | simp (maxDischargeDepth := 99) [h]

@[simp] theorem State.readImage_memWf {s : State} (h : s.memWf) (d : Desc) : (State.readImage s d).memWf := by simp (maxDischargeDepth := 99) [State.readImage, h]

@[simp] theorem State.restOfImage_memWf {s : State} (h : s.memWf) (d : Desc) : (State.restOfImage s d).memWf := by
  unfold State.restOfImage
  dsimp only
  repeat' split
  all_goals simp (maxDischargeDepth := 99) [h]

@[simp] theorem State.checkImage_memWf {s : State} (h : s.memWf) (d : Desc) : (State.checkImage s d).memWf := by
  unfold State.checkImage
  repeat' split
  all_goals simp (maxDischargeDepth := 99) [h]

@[simp] theorem State.imageRead_memWf {s : State} (h : s.memWf) (d : Desc) : (State.imageRead s d).memWf := by
  unfold State.imageRead
  repeat' split
  all_goals simp (maxDischargeDepth := 99) [h]

@[simp] theorem State.phaseEnd_memWf {s : State} (h : s.memWf) (d : Desc) : (State.phaseEnd s d).memWf := by
  unfold State.phaseEnd
  dsimp only
  repeat' split
  all_goals simp (maxDischargeDepth := 99) [h]

@[simp] theorem State.moveDesc_memWf (fuel : Nat) {s : State} (h : s.memWf) (d : Nat) : (s.moveDesc fuel d).memWf := by
  induction fuel generalizing s with
  | zero => exact h
  | succ fuel ih =>
    unfold State.moveDesc
    split
    · exact h
    split
    · exact State.writeFound_memWf (State.takeImageHeader_memWf h _) _ _
    split
    · exact ih (State.phaseEnd_memWf h _)
    · exact h

@[simp] theorem State.beginRead_memWf {s : State} (h : s.memWf) (d : Desc) (p : DescPhase) (word : Nat) : (State.beginRead s d p word).memWf := by
  unfold State.beginRead
  repeat' first
    | assumption
    | with_reducible apply State.moveDesc_memWf
    | with_reducible apply State.readOperand_memWf

theorem onStarted_memWf {s : State} {h op : Nat} {f : Desc → State} (hs : s.memWf) (hf : ∀ d, (f d).memWf) :
    ResWf (onStarted s h op f) := by
  unfold onStarted
  split
  · exact (ResWf_next _).2 hs
  · exact ResWf_whenOk _ hs (hf _)

theorem execCopy_memWf {s : State} (h : s.memWf) (desc : Nat) : ResWf (execCopy desc s) := by
  unfold execCopy
  repeat' first
    | assumption
    | with_reducible apply onStarted_memWf
    | with_reducible apply State.afterDest_memWf
    | with_reducible apply State.storeDest_memWf
    | with_reducible apply State.beginRead_memWf
    | (intro _)
    | split

theorem execFill_memWf {s : State} (h : s.memWf) (desc : Nat) : ResWf (execFill desc s) := by
  unfold execFill
  repeat' first
    | with_reducible apply onStarted_memWf
    | simp (maxDischargeDepth := 99) [h]

theorem execKeystone_memWf {s : State} (h : s.memWf) (desc : Nat) : ResWf (execKeystone desc s) := by
  unfold execKeystone
  repeat' first
    | assumption
    | with_reducible apply onStarted_memWf
    | with_reducible apply State.lastStore_memWf
    | (intro _)

theorem execNopDescriptor_memWf {s : State} (h : s.memWf) (desc : Nat) : ResWf (execNopDescriptor desc s) := by
  unfold execNopDescriptor
  repeat' first
    | assumption
    | with_reducible apply onStarted_memWf
    | (intro _)

theorem execFence_memWf {s : State} (h : s.memWf) (desc : Nat) : ResWf (execFence desc s) := by
  unfold execFence
  repeat' first
    | assumption
    | with_reducible apply onStarted_memWf
    | (intro _)
    | split
    | dsimp only

@[simp] theorem State.arm_memWf {s : State} (h : s.memWf) (h0 : Nat) : (State.arm s h0).memWf := by simp (maxDischargeDepth := 99) [State.arm, h]

theorem execWaitBeat_memWf {s : State} (h : s.memWf) (desc : Nat) : ResWf (execWaitBeat desc s) := by
  unfold execWaitBeat
  repeat' first
    | assumption
    | with_reducible apply onStarted_memWf
    | (intro _)

theorem execAtBeat_memWf {s : State} (h : s.memWf) (desc : Nat) : ResWf (execAtBeat desc s) := by
  unfold execAtBeat
  repeat' first
    | assumption
    | with_reducible apply onStarted_memWf
    | (intro _)

theorem onFire_memWf {s : State} {h op : Nat} {f : Desc → State} (hs : s.memWf) (hf : ∀ d, (f d).memWf) :
    ResWf (onFire s h op f) := by
  unfold onFire
  split
  · exact (ResWf_next _).2 hs
  · exact ResWf_whenOk _ hs (hf _)

theorem execWaitBeatRelease_memWf {s : State} (h : s.memWf) (desc : Nat) : ResWf (execWaitBeatRelease desc s) := by
  unfold execWaitBeatRelease
  repeat' first
    | assumption
    | with_reducible apply onFire_memWf
    | (intro _)

theorem execAtBeatRelease_memWf {s : State} (h : s.memWf) (desc : Nat) : ResWf (execAtBeatRelease desc s) := by
  unfold execAtBeatRelease
  repeat' first
    | assumption
    | with_reducible apply onFire_memWf
    | with_reducible apply State.lastStore_memWf
    | (intro _)

theorem execSnapshot_memWf {s : State} (h : s.memWf) (desc : Nat) : ResWf (execSnapshot desc s) := by
  unfold execSnapshot
  repeat' first
    | assumption
    | with_reducible apply onStarted_memWf
    | (intro _)

theorem execSnapshotStart_memWf {s : State} (h : s.memWf) (desc : Nat) : ResWf (execSnapshotStart desc s) := by
  unfold execSnapshotStart
  repeat' first
    | assumption
    | with_reducible apply onFire_memWf
    | with_reducible apply State.afterDest_memWf
    | with_reducible apply State.beginRead_memWf
    | (intro _)
    | split

theorem execLaunch_memWf {s : State} (h : s.memWf) (desc : Nat) : ResWf (execLaunch desc s) := by
  unfold execLaunch
  repeat' first
    | assumption
    | with_reducible apply onStarted_memWf
    | with_reducible apply State.failDesc_memWf
    | with_reducible apply State.beginRead_memWf
    | (intro _)
    | split

@[simp] theorem State.endLaunch_memWf {s : State} (h : s.memWf) (d : Desc) : (State.endLaunch s d).memWf := by simp (maxDischargeDepth := 99) [State.endLaunch, h]

theorem execLaunchComplete_memWf {s : State} (h : s.memWf) (desc : Nat) : ResWf (execLaunchComplete desc s) := by
  unfold execLaunchComplete
  dsimp only
  repeat' split
  all_goals simp (maxDischargeDepth := 99) [h]

@[simp] theorem State.prepareAgain_memWf {s : State} (h : s.memWf) (d : Desc) : (State.prepareAgain s d).memWf := by
  unfold State.prepareAgain
  split
  · exact State.moveDesc_memWf _ (State.restOfImage_memWf h _) _
  have h' : (if d.st = .waitHeader then s.dropDescReqs d else s).memWf :=
    memWf_ite (State.dropDescReqs_memWf h _) h
  exact State.prepared_memWf (State.prepare_memWf h' _) _

@[simp] theorem State.retrySegs_memWf {s : State} (h : s.memWf) (n : Nat) : (State.retrySegs s n).memWf := by
  unfold State.retrySegs
  repeat' first
    | assumption
    | with_reducible apply State.prepareAgain_memWf
    | with_reducible apply memWf_foldl
    | (intro _ _ _)
    | split

theorem execCompletionWrite_memWf {s : State} (h : s.memWf) (desc : Nat) (cxlErr : Bool) : ResWf (execCompletionWrite desc cxlErr s) := by
  unfold execCompletionWrite
  dsimp only
  repeat' split
  all_goals simp (maxDischargeDepth := 99) [h]

/-! #### Faults.lean -/

@[simp] theorem State.refreshSrc_memWf {s : State} (h : s.memWf) (n : Nat) (r : Req) : (State.refreshSrc s n r).memWf := by
  unfold State.refreshSrc
  repeat' split
  all_goals simp (maxDischargeDepth := 99) [h]

@[simp] theorem State.startWalk_memWf {s : State} (h : s.memWf) (n : Nat) (r : Req) : (State.startWalk s n r).memWf := by
  unfold State.startWalk
  repeat' first
    | assumption
    | with_reducible apply State.refreshSrc_memWf
    | with_reducible apply State.access_memWf
    | with_reducible apply State.settleLate_memWf
    | with_reducible refine State.modStack_memWf ?_ _ ?_
    | split
    | dsimp only
    | (intro _ _)
  all_goals first
    | assumption
    | (simp (maxDischargeDepth := 99) [*])

@[simp] theorem State.startDescWalk_memWf {s : State} (h : s.memWf) (n : Nat) (x2 : Nat) : (State.startDescWalk s n x2).memWf := by
  unfold State.startDescWalk
  repeat' split
  all_goals simp (maxDischargeDepth := 99) [h]

theorem execWalkStart_memWf {s : State} (h : s.memWf) (stack : Nat) (req : Nat) : ResWf (execWalkStart stack req s) := by
  unfold execWalkStart
  dsimp only
  repeat' split
  all_goals simp (maxDischargeDepth := 99) [h]

@[simp] theorem State.refreshAll_memWf {s : State} (h : s.memWf) (cs : List CtxId) : (State.refreshAll s cs).memWf := by
  unfold State.refreshAll
  repeat' first
    | assumption
    | with_reducible apply State.refresh_memWf
    | with_reducible apply memWf_foldl
    | (intro _ _ _)

@[simp] theorem State.releaseWaiters_memWf {s : State} (h : s.memWf) (n : Nat) (ws : List Waiter) : (State.releaseWaiters s n ws).memWf := by
  unfold State.releaseWaiters
  repeat' first
    | assumption
    | with_reducible apply State.retryReq_memWf
    | with_reducible apply State.prepareAgain_memWf
    | with_reducible apply State.refreshAll_memWf
    | with_reducible apply memWf_foldl
    | (intro _ _ _)
    | split

@[simp] theorem State.endWalk_memWf {s : State} (h : s.memWf) (n : Nat) (w : Walk) : (State.endWalk s n w).memWf := by
  unfold State.endWalk
  dsimp only
  repeat' split
  all_goals simp (maxDischargeDepth := 99) [h]

theorem execWalkComplete_memWf {s : State} (h : s.memWf) (stack : Nat) (ctx : Nat) (page : Nat) : ResWf (execWalkComplete stack ctx page s) := by
  unfold execWalkComplete
  repeat' split
  all_goals simp (maxDischargeDepth := 99) [h]

theorem execHeldFaultWrite_memWf {s : State} (h : s.memWf) (stack : Nat) : ResWf (execHeldFaultWrite stack s) := by
  unfold execHeldFaultWrite
  dsimp only
  repeat' split
  all_goals simp (maxDischargeDepth := 99) [h]

@[simp] theorem State.retryFault_memWf {s : State} (h : s.memWf) (n : Nat) (f : Fault8) : (State.retryFault s n f).memWf := by simp (maxDischargeDepth := 99) [State.retryFault, h]

@[simp] theorem State.failWaiter_memWf {s : State} (h : s.memWf) (x1 : Nat) (word : Nat) : (State.failWaiter s x1 word).memWf := by
  unfold State.failWaiter
  repeat' split
  all_goals simp (maxDischargeDepth := 99) [h]

@[simp] theorem State.failFault_memWf {s : State} (h : s.memWf) (n : Nat) (f : Fault8) : (State.failFault s n f).memWf := by
  unfold State.failFault
  repeat' first
    | assumption
    | with_reducible apply State.failWaiter_memWf
    | with_reducible apply State.killCtx_memWf
    | with_reducible refine State.modStack_memWf ?_ _ ?_
    | with_reducible apply memWf_foldl
    | with_reducible apply memWf_foldl_fst
    | (intro _ _ _)
    | split
    | dsimp only
    | (intro _ _)
  all_goals first
    | assumption
    | (simp (maxDischargeDepth := 99) [*])

@[simp] theorem State.wrFqResolve_memWf {s : State} (h : s.memWf) (n : Nat) (v : Word) (live : Word) : (State.wrFqResolve n v live s).memWf := by
  unfold State.wrFqResolve
  repeat' split
  all_goals simp (maxDischargeDepth := 99) [h]

theorem execFaultRetry_memWf {s : State} (h : s.memWf) (who : Requester) (stack : Nat) (seq : BitVec 16) : ResWf (execFaultRetry who stack seq s) := by
  unfold execFaultRetry
  repeat' first
    | assumption
    | with_reducible apply stackWrite_memWf
    | with_reducible apply State.wrFqResolve_memWf

theorem execFaultFail_memWf {s : State} (h : s.memWf) (who : Requester) (stack : Nat) (seq : BitVec 16) : ResWf (execFaultFail who stack seq s) := by
  unfold execFaultFail
  repeat' first
    | assumption
    | with_reducible apply stackWrite_memWf
    | with_reducible apply State.wrFqResolve_memWf

@[simp] theorem State.wrXltCfg_memWf {s : State} (h : s.memWf) (n : Nat) (v : Word) (live : Word) : (State.wrXltCfg n v live s).memWf := by simp (maxDischargeDepth := 99) [State.wrXltCfg, h]

theorem execFqCfgWrite_memWf {s : State} (h : s.memWf) (who : Requester) (stack : Nat) (value : Word) : ResWf (execFqCfgWrite who stack value s) := by
  unfold execFqCfgWrite
  repeat' first
    | assumption
    | with_reducible apply stackWrite_memWf
    | with_reducible apply State.wrXltCfg_memWf

@[simp] theorem State.shoot_memWf {s : State} (h : s.memWf) (n : Nat) (ctx : Nat) (lo : Nat) (len : Nat) (asker : Option Nat) : (State.shoot s n ctx lo len asker).1.memWf := by
  unfold State.shoot
  repeat' first
    | assumption
    | with_reducible apply State.retrySegs_memWf
    | with_reducible apply State.prepareAgain_memWf
    | with_reducible apply State.leaveFaultsDesc_memWf
    | with_reducible apply State.writeFound_memWf
    | with_reducible apply State.fresh_memWf
    | with_reducible refine State.modStack_memWf ?_ _ ?_
    | with_reducible apply memWf_foldl
    | with_reducible apply memWf_foldl_fst
    | (intro _ _ _)
    | split
    | dsimp only
    | (intro _ _)
  all_goals first
    | assumption
    | (simp (maxDischargeDepth := 99) [*])

@[simp] theorem State.shootAnswered_memWf {s : State} (h : s.memWf) (h0 : Nat) (id : Nat) : (State.shootAnswered s h0 id).memWf := by
  unfold State.shootAnswered
  dsimp only
  repeat' split
  all_goals simp (maxDischargeDepth := 99) [h]

theorem execShootdownDrainDone_memWf {s : State} (h : s.memWf) (stack : Nat) (id : Nat) : ResWf (execShootdownDrainDone stack id s) := by
  unfold execShootdownDrainDone
  dsimp only
  repeat' split
  all_goals simp (maxDischargeDepth := 99) [h]

@[simp] theorem State.wrXltCtx_memWf {s : State} (h : s.memWf) (n : Nat) (c : Nat) (v : Word) (live : Word) : (State.wrXltCtx n c v live s).memWf := by simp (maxDischargeDepth := 99) [State.wrXltCtx, h]

theorem execContextWrite_memWf {s : State} (h : s.memWf) (who : Requester) (stack : Nat) (ctx : Nat) (value : Word) : ResWf (execContextWrite who stack ctx value s) := by
  unfold execContextWrite
  repeat' first
    | assumption
    | with_reducible apply ResWf_noUnit
    | with_reducible apply stackWrite_memWf
    | with_reducible apply State.wrXltCtx_memWf
    | split

theorem execInvalidate_memWf {s : State} (h : s.memWf) (desc : Nat) : ResWf (execInvalidate desc s) := by
  unfold execInvalidate
  repeat' first
    | assumption
    | with_reducible apply onStarted_memWf
    | with_reducible apply State.shoot_memWf
    | with_reducible apply State.modDesc_memWf
    | with_reducible apply memWf_foldl
    | (intro _)
    | split

/-! #### Teardown.lean -/

@[simp] theorem State.modSpan_memWf {s : State} (h : s.memWf) (n : Nat) (id : BitVec 16) (f : SpanOut → SpanOut) : (State.modSpan s n id f).memWf := by simp (maxDischargeDepth := 99) [State.modSpan, h]

@[simp] theorem State.spanRelease_memWf {s : State} (h : s.memWf) (n : Nat) (id : BitVec 16) : (State.spanRelease s n id).memWf := by simp (maxDischargeDepth := 99) [State.spanRelease, h]

@[simp] theorem State.dropSpan_memWf {s : State} (h : s.memWf) (n : Nat) (x2 : SpanOut) : (State.dropSpan s n x2).memWf := by
  unfold State.dropSpan
  repeat' first
    | assumption
    | with_reducible apply memWf_foldl
    | (intro _ _ _)
    | simp (maxDischargeDepth := 99) [h]

@[simp] theorem State.deadDesc_memWf {s : State} (h : s.memWf) (h0 : Nat) (status : Nat) (node : BitVec 16) : (State.deadDesc s h0 status node).memWf := by
  unfold State.deadDesc
  repeat' first
    | assumption
    | with_reducible apply State.moveDesc_memWf
    | with_reducible apply State.failDesc_memWf

@[simp] theorem State.deadFences_memWf {s : State} (h : s.memWf) (n : Nat) (accs : List Nat) (status : Nat) (node : BitVec 16) : (State.deadFences s n accs status node).memWf := by simp (maxDischargeDepth := 99) [State.deadFences, h]

@[simp] theorem State.tellIssuers_memWf {s : State} (h : s.memWf) (n : Nat) (gone : List Req) (status : Nat) (node : BitVec 16) : (State.tellIssuers s n gone status node).memWf := by
  unfold State.tellIssuers
  repeat' first
    | assumption
    | with_reducible apply State.deadDesc_memWf
    | with_reducible apply State.modStack_memWf_same
    | with_reducible apply memWf_foldl
    | (intro _ _ _)
    | split
    | simp (maxDischargeDepth := 99) [h]

@[simp] theorem State.abandon_memWf {s : State} (h : s.memWf) (n : Nat) (p : Req → Bool) (status : Nat) (node : BitVec 16) : (State.abandon s n p status node).1.memWf := by simp (maxDischargeDepth := 99) [State.abandon, h]

@[simp] theorem State.dropColl_memWf {s : State} (h : s.memWf) (n : Nat) (h0 : Nat) : (State.dropColl s n h0).memWf := by simp (maxDischargeDepth := 99) [State.dropColl, h]

@[simp] theorem State.tearDesc_memWf {s : State} (h : s.memWf) (n : Nat) (job : Nat) (d : Desc) : (State.tearDesc s n job d).memWf := by
  unfold State.tearDesc
  repeat' first
    | assumption
    | with_reducible apply State.moveDesc_memWf
    | with_reducible apply State.failDesc_memWf
    | with_reducible apply State.dropColl_memWf
    | with_reducible apply State.leaveFaultsDesc_memWf
    | split

@[simp] theorem State.tearOne_memWf {s : State} (h : s.memWf) (n job cause : Nat) :
    (s.tearOne n job cause).1.memWf := by
  unfold State.tearOne
  refine State.modStack_memWf_same (memWf_foldl_fst (fun p x hp => ?_) _ ?_) _ (fun _ => rfl)
  · exact State.abandon_memWf (State.dropSpan_memWf hp _ _) _ _ _ _
  · exact memWf_foldl (fun u d hu => State.tearDesc_memWf hu _ _ _) _
      (memWf_foldl (fun u c hu => State.killCtx_memWf hu _ _) _ h)

@[simp] theorem State.tellFrozen_memWf {s : State} (h : s.memWf) (n : Nat) (job : Nat) (cause : Nat) (node : BitVec 16) : (State.tellFrozen s n job cause node).memWf := by simp (maxDischargeDepth := 99) [State.tellFrozen, h]

@[simp] theorem State.tearJobs_memWf (fuel : Nat) {s : State} (h : s.memWf) (n : Nat)
    (l : List (Nat × Nat × BitVec 16)) : (State.tearJobs fuel s n l).memWf := by
  induction fuel generalizing s l with
  | zero => exact h
  | succ fuel ih =>
    cases l with
    | nil => exact h
    | cons x l =>
      obtain ⟨job, cause, node⟩ := x
      unfold State.tearJobs
      split
      · exact ih h _
      · split
        · exact ih (State.modStack_memWf_same h _ (fun k => Stack.lowerCause_memWf k _ _)) _
        · exact ih (State.tearOne_memWf (State.tellFrozen_memWf h _ _ _ _) _ _ _) _

@[simp] theorem State.tearJob_memWf {s : State} (h : s.memWf) (n : Nat) (job : Nat) (cause : Nat) : (State.tearJob s n job cause).memWf := by
  unfold State.tearJob
  repeat' first
    | assumption
    | with_reducible apply State.tearJobs_memWf

@[simp] theorem State.freeze_memWf {s : State} (h : s.memWf) (n : Nat) (node : BitVec 16) (jobs : List Nat) : (State.freeze s n node jobs).memWf := by
  unfold State.freeze
  repeat' first
    | assumption
    | with_reducible apply State.tearJobs_memWf

@[simp] theorem State.deadStatus_memWf {s : State} (h : s.memWf) (n : Nat) (node : BitVec 16) (how : Nat) (jobs : List Nat) : (State.deadStatus s n node how jobs).memWf := by simp (maxDischargeDepth := 99) [State.deadStatus, h]

@[simp] theorem State.markDead_memWf {s : State} (h : s.memWf) (n : Nat) (node : BitVec 16) (how : Nat) : (State.markDead s n node how).memWf := by
  unfold State.markDead
  repeat' first
    | assumption
    | with_reducible apply State.dropSpan_memWf
    | with_reducible apply State.abandon_memWf
    | with_reducible apply State.freeze_memWf
    | with_reducible apply State.deadStatus_memWf
    | with_reducible apply memWf_foldl
    | (intro _ _ _)
    | split
    | simp (maxDischargeDepth := 99) [h]

@[simp] theorem State.meetDead_memWf {s : State} (h : s.memWf) (n : Nat) (r : Req) : (State.meetDead s n r).memWf := by simp (maxDischargeDepth := 99) [State.meetDead, h]

@[simp] theorem State.teardownOn_memWf {s : State} (h : s.memWf) (n : Nat) (job : Nat) : (State.teardownOn s n job).memWf := by simp (maxDischargeDepth := 99) [State.teardownOn, h]

theorem onFm_memWf {s : State} {src : BitVec 16} {f : State} (h : s.memWf) (hf : f.memWf) : ResWf (onFm s src f) := by
  unfold onFm
  rw [ResWf_next]
  split
  · exact hf
  · exact State.quiet_memWf h _ _

theorem execTeardown_memWf {s : State} (h : s.memWf) (src : BitVec 16) (job : BitVec 16) (stackMask : BitVec 8) : ResWf (execTeardown src job stackMask s) := by
  unfold execTeardown
  repeat' first
    | assumption
    | with_reducible apply onFm_memWf
    | with_reducible apply State.teardownOn_memWf
    | with_reducible apply memWf_foldl
    | (intro _ _ _)
    | split

@[simp] theorem State.endTear_memWf {s : State} (h : s.memWf) (n : Nat) (x2 : Tear) : (State.endTear s n x2).memWf := by
  unfold State.endTear
  repeat' first
    | assumption
    | with_reducible apply State.setJob_memWf
    | with_reducible apply State.notify_memWf
    | with_reducible apply State.notice_memWf
    | with_reducible apply State.event_memWf
    | with_reducible apply State.mgmt_memWf
    | with_reducible apply State.modStack_memWf_same
    | with_reducible apply memWf_foldl
    | (intro _ _ _)
    | split
    | simp (maxDischargeDepth := 99) [h]

theorem execTeardownComplete_memWf {s : State} (h : s.memWf) (stack : Nat) (job : BitVec 16) : ResWf (execTeardownComplete stack job s) := by
  unfold execTeardownComplete
  repeat' split
  all_goals simp (maxDischargeDepth := 99) [h]

theorem execClearDead_memWf {s : State} (h : s.memWf) (src : BitVec 16) (node : BitVec 16) (stackMask : BitVec 8) : ResWf (execClearDead src node stackMask s) := by
  unfold execClearDead
  repeat' first
    | assumption
    | with_reducible apply onFm_memWf
    | with_reducible apply State.modStack_memWf_same
    | with_reducible apply memWf_foldl
    | (intro _ _ _)
    | simp (maxDischargeDepth := 99) [h]

@[simp] theorem State.releaseDesc_memWf {s : State} (h : s.memWf) (d : Desc) : (State.releaseDesc s d).memWf := by
  unfold State.releaseDesc
  repeat' first
    | assumption
    | with_reducible apply State.moveDesc_memWf
    | with_reducible apply State.failDesc_memWf
    | with_reducible apply State.dropColl_memWf
    | with_reducible apply State.leaveFaultsDesc_memWf
    | split

@[simp] theorem State.rebuildReply_memWf {s : State} (h : s.memWf) (stack : Nat) (copy : Bool) (request : BitVec 32) (result : Nat) (digest : Word) : (State.rebuildReply s stack copy request result digest).memWf := by simp (maxDischargeDepth := 99) [State.rebuildReply, h]

@[simp] theorem State.endShoots_memWf {s : State} (h : s.memWf) (n : Nat) : (State.endShoots s n).memWf := by
  unfold State.endShoots
  repeat' first
    | assumption
    | with_reducible apply State.shootAnswered_memWf
    | with_reducible apply State.setDescs_memWf
    | with_reducible apply memWf_foldl
    | with_reducible apply memWf_foldl_fst
    | (intro _ _ _)
    | split
    | dsimp only

@[simp] theorem State.endRebuilds_memWf {s : State} (h : s.memWf) (n : Nat) : (State.endRebuilds s n).memWf := by
  unfold State.endRebuilds
  repeat' first
    | assumption
    | with_reducible apply State.rebuildReply_memWf
    | with_reducible apply memWf_foldl
    | with_reducible apply memWf_foldl_fst
    | (intro _ _ _)
    | split
    | dsimp only

@[simp] theorem State.endLaunches_memWf {s : State} (h : s.memWf) (n : Nat) : (State.endLaunches s n).memWf := by
  unfold State.endLaunches
  repeat' first
    | assumption
    | with_reducible apply State.endLaunch_memWf
    | with_reducible apply State.phase_memWf
    | with_reducible apply memWf_foldl
    | with_reducible apply memWf_foldl_fst
    | (intro _ _ _)
    | split
    | dsimp only

@[simp] theorem State.dropCoreSide_memWf {s : State} (h : s.memWf) (n : Nat) : (State.dropCoreSide s n).memWf := by simp (maxDischargeDepth := 99) [State.dropCoreSide, h]

@[simp] theorem State.cycleStack_memWf {s : State} (h : s.memWf) (n : Nat) : (State.cycleStack s n).memWf := by
  unfold State.cycleStack
  repeat' first
    | assumption
    | with_reducible apply State.dropCoreSide_memWf
    | with_reducible apply State.endLaunches_memWf
    | with_reducible apply State.endRebuilds_memWf
    | with_reducible apply State.endShoots_memWf
    | with_reducible apply State.setFld_memWf
    | with_reducible refine State.modStack_memWf ?_ _ ?_
    | with_reducible apply memWf_foldl
    | with_reducible apply memWf_foldl_fst
    | (intro _ _ _)
    | split
    | dsimp only
    | (intro _ _)
  all_goals first
    | assumption
    | (simp (maxDischargeDepth := 99) [*])

/-! #### Cells.lean -/

@[simp] theorem State.readCells_memWf {s : State} (h : s.memWf) (x : Packet ⊕ Frame) : (State.readCells s x).memWf := by
  unfold State.readCells
  repeat' split
  all_goals simp (maxDischargeDepth := 99) [h]

@[simp] theorem State.discardPacket_memWf {s : State} (h : s.memWf)  : (State.discardPacket s).memWf := by simp (maxDischargeDepth := 99) [State.discardPacket, h]

@[simp] theorem State.dropReply_memWf {s : State} (h : s.memWf) (p : Packet) : (State.dropReply s p).memWf := by simp (maxDischargeDepth := 99) [State.dropReply, h]

@[simp] theorem State.restated_memWf {s : State} (h : s.memWf) (p : Packet) (q : Packet) : (State.restated s p q).memWf := by simp (maxDischargeDepth := 99) [State.restated, h]

@[simp] theorem State.freeCells_memWf {s : State} (h : s.memWf) (x : Packet ⊕ Frame) : (State.freeCells s x).memWf := by simp (maxDischargeDepth := 99) [State.freeCells, h]

@[simp] theorem State.freePacket_memWf {s : State} (h : s.memWf) (p : Packet) : (State.freePacket s p).memWf := by simp (maxDischargeDepth := 99) [State.freePacket, h]

@[simp] theorem State.takeEgress_memWf {s : State} (h : s.memWf) (port : Nat) (queue : Nat) (p : Packet) : (State.takeEgress s port queue p).memWf := by simp (maxDischargeDepth := 99) [State.takeEgress, h]

@[simp] theorem State.came_memWf {s : State} (h : s.memWf) (n : Nat) (p : Packet) : (State.came s n p).memWf := by simp (maxDischargeDepth := 99) [State.came, h]

@[simp] theorem State.noteWaiting_memWf {s : State} (h : s.memWf) (n : Nat) (lines : List Nat) : (State.noteWaiting s n lines).memWf := by simp (maxDischargeDepth := 99) [State.noteWaiting, h]

@[simp] theorem State.queuePacket_memWf {s : State} (h : s.memWf) (port : Nat) (p : Packet) : (State.queuePacket s port p).memWf := by simp (maxDischargeDepth := 99) [State.queuePacket, h]

@[simp] theorem State.chargeTo_memWf {s : State} (h : s.memWf) (port : Nat) (p : Packet) : (State.chargeTo s port p).memWf := by simp (maxDischargeDepth := 99) [State.chargeTo, h]

@[simp] theorem State.settle_memWf {s : State} (h : s.memWf) (port : Nat) (p : Packet) : (State.settle s port p).memWf := by
  unfold State.settle
  dsimp only
  repeat' split
  all_goals simp (maxDischargeDepth := 99) [h]

@[simp] theorem State.landItem_memWf {s : State} (h : s.memWf) (p : Nat) (p0 : Packet ⊕ Frame) : (State.landItem s p p0).memWf := by
  unfold State.landItem
  repeat' split
  all_goals simp (maxDischargeDepth := 99) [h]

@[simp] theorem State.fillItem_memWf {s : State} (h : s.memWf) (p : Nat) (x : Packet ⊕ Frame) (left : Nat) (n : Nat) : (State.fillItem s p x left n).memWf := by simp (maxDischargeDepth := 99) [State.fillItem, h]

@[simp] theorem State.beginItems_memWf (l : List (Packet ⊕ Frame)) {s : State} (h : s.memWf) (p room : Nat) :
    (State.beginItems l s p room).memWf := by
  induction l generalizing s room with
  | nil => exact h
  | cons x t ih =>
    unfold State.beginItems
    split
    · exact h
    · exact ih (State.fillItem_memWf h _ _ _ _) _

@[simp] theorem State.returnCredit_memWf {s : State} (h : s.memWf) (port : Nat) (queue : Nat) (cells : Nat) : (State.returnCredit s port queue cells).memWf := by simp (maxDischargeDepth := 99) [State.returnCredit, h]

theorem execEgressCharge_memWf {s : State} (h : s.memWf) (port : Nat) (queue : Nat) : ResWf (execEgressCharge port queue s) := by
  unfold execEgressCharge
  repeat' split
  all_goals simp (maxDischargeDepth := 99) [h]

theorem State.drrAt_memWf {s : State} (h : s.memWf) (n base turnKey : Nat) (size : Nat → Option Nat)
    (weight : Nat → Nat) (r : Nat × State) (e : s.drrAt n base turnKey size weight = some r) : r.2.memWf := by
  unfold State.drrAt at e
  split at e
  · cases e
  · rw [Option.map_eq_some_iff] at e
    obtain ⟨x, _, rfl⟩ := e
    exact State.modSw_memWf h _

@[simp] theorem State.routeError_memWf {s : State} (h : s.memWf) (port : Nat) (p : Packet) : (State.routeError s port p).memWf := by simp (maxDischargeDepth := 99) [State.routeError, h]

@[simp] theorem State.answerDead_memWf {s : State} (h : s.memWf) (p : Packet) : (State.answerDead s p).memWf := by simp (maxDischargeDepth := 99) [State.answerDead, h]

@[simp] theorem State.unroutable_memWf {s : State} (h : s.memWf) (p : Packet) : (State.unroutable s p).memWf := by simp (maxDischargeDepth := 99) [State.unroutable, h]

@[simp] theorem State.toIngress_memWf {s : State} (h : s.memWf) (port : Nat) (queue : Nat) (egress : Nat) (p : Packet) : (State.toIngress s port queue egress p).memWf := by simp (maxDischargeDepth := 99) [State.toIngress, h]

@[simp] theorem State.consume_memWf {s : State} (h : s.memWf) (p : Packet) : (State.consume s p).memWf := by simp (maxDischargeDepth := 99) [State.consume, h]

@[simp] theorem State.deliver_memWf {s held : State} (h : s.memWf) (hh : held.memWf) (port queue : Nat) (p : Packet) :
    (State.deliver s held port queue p).memWf := by
  unfold State.deliver
  dsimp only
  repeat' split
  all_goals simp (maxDischargeDepth := 99) [h, hh]

@[simp] theorem State.fenceHit_memWf {s : State} (h : s.memWf) (p : Packet) : (State.fenceHit s p).memWf := by simp (maxDischargeDepth := 99) [State.fenceHit, h]

@[simp] theorem State.forward_memWf {s : State} (h : s.memWf) (port : Nat) (p0 : Packet) : (State.forward s port p0).memWf := by
  unfold State.forward
  dsimp only
  repeat' split
  all_goals simp (maxDischargeDepth := 99) [h]

theorem execPacketForward_memWf {s : State} (h : s.memWf) (port : Nat) : ResWf (execPacketForward port s) := by
  unfold execPacketForward
  repeat' split
  all_goals simp (maxDischargeDepth := 99) [h]

end Sys2Proof.Machine
end

