-- ==== Sys2Proof/Laws/MemFabric.lean ====
section
/-! SUPPORT. Every operation and meaning of the fabric, span, trestle and collective commands keeps the canonical
form of the memories (`State.memWf`): one lemma each, named `<definition>_memWf`. -/
namespace Sys2Proof.Machine

/-! #### Turns.lean -/

@[simp] theorem State.sendInval_memWf {s : State} (h : s.memWf) (n : Nat) (i : Inval) : (State.sendInval s n i).memWf := by simp (maxDischargeDepth := 99) [State.sendInval, h]

@[simp] theorem State.startInval_memWf {s : State} (h : s.memWf) (n : Nat) (line : Nat) (holder : BitVec 16) : (State.startInval s n line holder).memWf := by simp (maxDischargeDepth := 99) [State.startInval, h]

@[simp] theorem State.invalLine_memWf {s : State} (h : s.memWf) (n : Nat) (d : DirLine) : (State.invalLine s n d).memWf := by
  unfold State.invalLine
  repeat' first
    | assumption
    | with_reducible apply State.startInval_memWf
    | with_reducible apply memWf_foldl
    | (intro _ _ _)

@[simp] theorem State.dirGate_memWf {s : State} (h : s.memWf) (n : Nat) (p : Packet) : (State.dirGate s n p).1.memWf := by
  unfold State.dirGate
  repeat' first
    | assumption
    | with_reducible apply State.invalLine_memWf
    | with_reducible apply State.satFld_memWf
    | with_reducible apply memWf_foldl
    | (intro _ _ _)
    | split
    | dsimp only

theorem Stack.tracks_memWf (l : List Nat) (src : BitVec 16) (k : Stack) :
    (l.foldl (fun (k : Stack) x => k.track x src) k).memWf = k.memWf := by
  induction l generalizing k with
  | nil => rfl
  | cons x t ih => exact (ih _).trans (Stack.track_memWf _ _ _)

@[simp] theorem State.trackLoad_memWf {s : State} (h : s.memWf) (n : Nat) (p : Packet) : (State.trackLoad s n p).memWf := by
  unfold State.trackLoad
  split
  · exact State.modStack_memWf_same h _ (fun k => Stack.tracks_memWf _ _ k)
  · exact h

@[simp] theorem State.takeTurns_memWf (l : List Nat) {s : State} (h : s.memWf) (n : Nat) (p : Packet) :
    (State.takeTurns l s n p).1.memWf := by
  induction l generalizing s with
  | nil => exact h
  | cons x t ih =>
    unfold State.takeTurns
    split
    · exact ih (State.modStack_memWf_same (State.noteWaiting_memWf h _ _) _ (fun k => Stack.takeTurn_memWf k _ _))
    · exact h

theorem State.leaveTurn_memWf {s : State} (h : s.memWf) (n : Nat) (p : Packet) (t : State) (e : State.leaveTurn s n p = some t) : t.memWf := by
  unfold State.leaveTurn at e
  dsimp only at e
  split at e
  · cases e
  · split at e
    · cases e; exact h
    · split at e
      · cases e
      · rename_i hd
        have h1 := State.drrAt_memWf h _ _ _ _ _ _ hd
        split at e
        · cases e
        split at e
        · cases e; exact h1
        · split at e
          · cases e
          · rename_i ht
            have h2 := State.drrAt_memWf h _ _ _ _ _ _ ht
            split at e
            · cases e
            · rw [Option.map_eq_some_iff] at e
              obtain ⟨x, hx, rfl⟩ := e
              exact State.drrAt_memWf h2 _ _ _ _ _ _ hx

@[simp] theorem State.receive_memWf {s : State} (h : s.memWf) (n : Nat) (p : Packet) : (State.receive s n p).memWf := by
  unfold State.receive
  refine State.takeEgress_memWf ?_ _ _ _
  cases e : s.leaveTurn n p with
  | none => exact h
  | some t => exact State.leaveTurn_memWf h _ _ _ e

/-! #### Requests.lean -/

@[simp] theorem State.onSpan_memWf {s : State} (h : s.memWf) (n : Nat) (x2 : SpanOut) (r : Req) : (State.onSpan s n x2 r).memWf := by simp (maxDischargeDepth := 99) [State.onSpan, h]

@[simp] theorem State.colour_memWf {s : State} (h : s.memWf) (n : Nat) (b : Nat) : (State.colour s n b).2.memWf := by
  unfold State.colour
  dsimp only
  repeat' split
  all_goals simp (maxDischargeDepth := 99) [h]

@[simp] theorem State.wrMeter_memWf {s : State} (h : s.memWf) (n : Nat) (v : Word) (live : Word) : (State.wrMeter s n v live).memWf := by simp (maxDischargeDepth := 99) [State.wrMeter, h]

@[simp] theorem State.sendReq_memWf {s : State} (h : s.memWf) (n : Nat) (r : Req) : (State.sendReq s n r).memWf := by simp (maxDischargeDepth := 99) [State.sendReq, h]

@[simp] theorem State.firstSend_memWf {s : State} (h : s.memWf) (n : Nat) (r : Req) : (State.firstSend s n r).memWf := by simp (maxDischargeDepth := 99) [State.firstSend, h]

@[simp] theorem State.launchReq_memWf {s : State} (h : s.memWf) (n : Nat) (r : Req) : (State.launchReq s n r).memWf := by
  unfold State.launchReq
  dsimp only
  repeat' split
  all_goals simp (maxDischargeDepth := 99) [h]

theorem execRequestInject_memWf {s : State} (h : s.memWf) (stack : Nat) (req : Nat) : ResWf (execRequestInject stack req s) := by
  unfold execRequestInject
  repeat' split
  all_goals simp (maxDischargeDepth := 99) [h]

theorem execKeystoneRelease_memWf {s : State} (h : s.memWf) (stack : Nat) (req : Nat) : ResWf (execKeystoneRelease stack req s) := by
  unfold execKeystoneRelease
  repeat' split
  all_goals simp (maxDischargeDepth := 99) [h]

@[simp] theorem State.modReq_memWf {s : State} (h : s.memWf) (n : Nat) (id : Nat) (f : Req → Req) : (State.modReq s n id f).memWf := by simp (maxDischargeDepth := 99) [State.modReq, h]

theorem execResendTimer_memWf {s : State} (h : s.memWf) (stack : Nat) (req : Nat) : ResWf (execResendTimer stack req s) := by
  unfold execResendTimer
  repeat' split
  all_goals simp (maxDischargeDepth := 99) [h]

theorem execDeadTimer_memWf {s : State} (h : s.memWf) (stack : Nat) (req : Nat) : ResWf (execDeadTimer stack req s) := by
  unfold execDeadTimer
  repeat' split
  all_goals simp (maxDischargeDepth := 99) [h]

@[simp] theorem State.hear_memWf {s : State} (h : s.memWf) (n : Nat) (node : BitVec 16) : (State.hear s n node).memWf := by simp (maxDischargeDepth := 99) [State.hear, h]

@[simp] theorem State.windowReply_memWf {s : State} (h : s.memWf) (n : Nat) (p : Packet) : (State.windowReply s n p).memWf := by simp (maxDischargeDepth := 99) [State.windowReply, h]

@[simp] theorem State.answerReq_memWf {s : State} (h : s.memWf) (n : Nat) (r : Req) (bytes : List Byte) (poisoned : Bool) : (State.answerReq s n r bytes poisoned).memWf := by
  unfold State.answerReq
  repeat' first
    | assumption
    | with_reducible apply State.modReq_memWf
    | with_reducible apply State.moveDesc_memWf
    | with_reducible refine State.modStack_memWf_same ?_ _ (by simp; done)
    | split

@[simp] theorem State.countAbsent_memWf {s : State} (h : s.memWf) (n : Nat) (node : BitVec 16) : (State.countAbsent s n node).memWf := by simp (maxDischargeDepth := 99) [State.countAbsent, h]

@[simp] theorem State.takeAnswer_memWf {s : State} (h : s.memWf) (n : Nat) (p : Packet) (ops : List (BitVec 8)) : (State.takeAnswer s n p ops).memWf := by
  unfold State.takeAnswer
  dsimp only
  repeat' split
  all_goals simp (maxDischargeDepth := 99) [h]

theorem execAck_memWf {s : State} (h : s.memWf) (stack : Nat) (pkt : Packet) : ResWf (execAck stack pkt s) := by simp (maxDischargeDepth := 99) [execAck, h]

theorem execData_memWf {s : State} (h : s.memWf) (stack : Nat) (pkt : Packet) : ResWf (execData stack pkt s) := by simp (maxDischargeDepth := 99) [execData, h]

theorem execAtomicReply_memWf {s : State} (h : s.memWf) (stack : Nat) (pkt : Packet) : ResWf (execAtomicReply stack pkt s) := by simp (maxDischargeDepth := 99) [execAtomicReply, h]

theorem execDead_memWf {s : State} (h : s.memWf) (stack : Nat) (pkt : Packet) : ResWf (execDead stack pkt s) := by simp (maxDischargeDepth := 99) [execDead, h]

theorem execThrottleAdjust_memWf {s : State} (h : s.memWf) (stack : Nat) : ResWf (execThrottleAdjust stack s) := by simp (maxDischargeDepth := 99) [execThrottleAdjust, h]

/-! #### Targets.lean -/

@[simp] theorem State.applyReq_memWf {s : State} (h : s.memWf) (n : Nat) (p : Packet) : (State.applyReq s n p).1.memWf := by
  unfold State.applyReq
  dsimp only
  repeat' split
  all_goals simp (maxDischargeDepth := 99) [h]

@[simp] theorem State.serveOne_memWf {s : State} (h : s.memWf) (n : Nat) (p : Packet) : (State.serveOne s n p).memWf := by
  unfold State.serveOne
  dsimp only
  repeat' split
  all_goals simp (maxDischargeDepth := 99) [h]

@[simp] theorem State.keepCell_memWf {s : State} (h : s.memWf) (n : Nat) (q : Packet) : (State.keepCell s n q).memWf := by simp (maxDischargeDepth := 99) [State.keepCell, h]

@[simp] theorem State.serve_memWf {s : State} (h : s.memWf) (n : Nat) (p : Packet) : (State.serve s n p).memWf := by
  unfold State.serve
  repeat' first
    | assumption
    | with_reducible apply State.trackLoad_memWf
    | with_reducible apply State.dirGate_memWf
    | with_reducible apply State.serveOne_memWf
    | with_reducible apply State.takeEgress_memWf
    | with_reducible refine State.modStack_memWf ?_ _ ?_
    | with_reducible apply memWf_foldl
    | with_reducible apply memWf_foldl_fst
    | (intro _ _ _)
    | split
    | dsimp only
    | (intro _ _)
  all_goals first
    | assumption
    | (simp (maxDischargeDepth := 99) [*])

@[simp] theorem State.attend_memWf {s : State} (h : s.memWf) (n : Nat) (p : Packet) : (State.attend s n p).memWf := by simp (maxDischargeDepth := 99) [State.attend, h]

@[simp] theorem State.turnAway_memWf {s : State} (h : s.memWf) (n : Nat) (p : Packet) : (State.turnAway s n p).memWf := by
  unfold State.turnAway
  repeat' first
    | assumption
    | with_reducible apply State.answerDead_memWf
    | with_reducible apply State.takeEgress_memWf
    | with_reducible refine State.modStack_memWf ?_ _ ?_
    | with_reducible apply memWf_foldl
    | with_reducible apply memWf_foldl_fst
    | (intro _ _ _)
    | split
    | dsimp only
    | (intro _ _)
  all_goals first
    | assumption
    | (simp (maxDischargeDepth := 99) [*])

theorem onRequest_memWf {s : State} (h : s.memWf) (n : Nat) (p : Packet) (op : BitVec 8) : ResWf (onRequest s n p op) := by simp (maxDischargeDepth := 99) [onRequest, h]

theorem execLoad_memWf {s : State} (h : s.memWf) (stack : Nat) (pkt : Packet) : ResWf (execLoad stack pkt s) := by
  unfold execLoad
  repeat' first
    | assumption
    | with_reducible apply onRequest_memWf

theorem execStore_memWf {s : State} (h : s.memWf) (stack : Nat) (pkt : Packet) : ResWf (execStore stack pkt s) := by
  unfold execStore
  repeat' first
    | assumption
    | with_reducible apply onRequest_memWf

theorem execRoutedKeystone_memWf {s : State} (h : s.memWf) (stack : Nat) (pkt : Packet) : ResWf (execRoutedKeystone stack pkt s) := by
  unfold execRoutedKeystone
  repeat' first
    | assumption
    | with_reducible apply onRequest_memWf

theorem execAtomic_memWf {s : State} (h : s.memWf) (stack : Nat) (pkt : Packet) : ResWf (execAtomic stack pkt s) := by
  unfold execAtomic
  repeat' first
    | assumption
    | with_reducible apply onRequest_memWf

theorem execAccum_memWf {s : State} (h : s.memWf) (stack : Nat) (pkt : Packet) : ResWf (execAccum stack pkt s) := by
  unfold execAccum
  repeat' first
    | assumption
    | with_reducible apply onRequest_memWf

@[simp] theorem State.coreViolation_memWf {s : State} (h : s.memWf) (n : Nat) (op : CoreOp) : (State.coreViolation s n op).memWf := by
  unfold State.coreViolation
  dsimp only
  repeat' split
  all_goals simp (maxDischargeDepth := 99) [h]

theorem coreReply_memWf (n c : Nat) (amo : Bool) {r : Answer} (h : r.state.memWf) : (coreReply n c amo r).memWf :=
  State.emit_memWf h _

@[simp] theorem State.coreAtomic_memWf {s : State} (h : s.memWf) (n : Nat) (sub : BitVec 4) (size : Nat) (off : Nat) (opnd : Nat) (cmp : Nat) : (State.coreAtomic s n sub size off opnd cmp).state.memWf := by
  unfold State.coreAtomic
  dsimp only
  repeat' split
  all_goals simp (maxDischargeDepth := 99) [h]

@[simp] theorem State.coreServe_memWf {s : State} (h : s.memWf) (n : Nat) (a : CoreAcc) : (State.coreServe s n a).memWf := by
  unfold State.coreServe
  dsimp only
  split
  · exact coreReply_memWf _ _ _ (State.loadAt_memWf h _ _ _)
  · exact State.storeAt_memWf h _ _ _
  · exact coreReply_memWf _ _ _ (State.coreAtomic_memWf h _ _ _ _ _ _)

@[simp] theorem State.coreGo_memWf {s : State} (h : s.memWf) (n : Nat) (a : CoreAcc) : (State.coreGo s n a).memWf := by
  unfold State.coreGo
  repeat' first
    | assumption
    | with_reducible apply State.coreServe_memWf
    | with_reducible apply State.takeTurns_memWf
    | with_reducible apply State.invalLine_memWf
    | with_reducible refine State.modStack_memWf ?_ _ ?_
    | with_reducible apply memWf_foldl
    | with_reducible apply memWf_foldl_fst
    | (intro _ _ _)
    | split
    | dsimp only
    | (intro _ _)
  all_goals first
    | assumption
    | (simp (maxDischargeDepth := 99) [*])

@[simp] theorem State.coreResume_memWf {s : State} (h : s.memWf) (n : Nat) : (State.coreResume s n).memWf := by
  unfold State.coreResume
  repeat' first
    | assumption
    | with_reducible apply State.coreGo_memWf
    | with_reducible apply memWf_foldl
    | with_reducible apply memWf_foldl_fst
    | (intro _ _ _)
    | split
    | dsimp only

@[simp] theorem State.coreNode_memWf {s : State} (h : s.memWf) (n : Nat) (a : CoreAcc) : (State.coreNode s n a).memWf := by
  unfold State.coreNode
  repeat' first
    | assumption
    | with_reducible apply State.coreServe_memWf
    | with_reducible apply State.coreViolation_memWf
    | with_reducible apply State.invalLine_memWf
    | with_reducible apply State.quiet_memWf
    | with_reducible apply State.emit_memWf
    | with_reducible refine State.modStack_memWf ?_ _ ?_
    | with_reducible apply memWf_foldl
    | with_reducible apply memWf_foldl_fst
    | (intro _ _ _)
    | split
    | dsimp only
    | (intro _ _)
  all_goals first
    | assumption
    | (simp (maxDischargeDepth := 99) [*])

@[simp] theorem State.debugEnd_memWf {s : State} (h : s.memWf) (err : Bool) (write : Bool) (data : Word) : (State.debugEnd s err write data).memWf := by simp (maxDischargeDepth := 99) [State.debugEnd, h]

@[simp] theorem State.debugTier_memWf {s : State} (h : s.memWf) (a : DebugAcc) : (State.debugTier s a).memWf := by simp (maxDischargeDepth := 99) [State.debugTier, h]

@[simp] theorem State.debugResume_memWf {s : State} (h : s.memWf) (n : Nat) : (State.debugResume s n).memWf := by
  unfold State.debugResume
  repeat' first
    | assumption
    | with_reducible apply State.debugTier_memWf
    | with_reducible apply State.takeTurns_memWf
    | with_reducible apply State.setBit_memWf
    | with_reducible refine State.modStack_memWf ?_ _ ?_
    | split
    | dsimp only
    | (intro _ _)
  all_goals first
    | assumption
    | (simp (maxDischargeDepth := 99) [*])

@[simp] theorem State.debugSpace1_memWf {s : State} (h : s.memWf) (write : Bool) (n : Nat) (far : Bool) (a : Nat) (data : Word) : (State.debugSpace1 s write n far a data).memWf := by
  unfold State.debugSpace1
  repeat' first
    | assumption
    | with_reducible apply State.debugResume_memWf
    | with_reducible apply State.debugEnd_memWf
    | with_reducible apply State.came_memWf
    | with_reducible apply State.setBit_memWf
    | split
    | dsimp only
    | (intro _ _)
  all_goals first
    | assumption
    | (simp (maxDischargeDepth := 99) [*])

@[simp] theorem State.wrCwinCfg_memWf {s : State} (h : s.memWf) (n : Nat) (v : Word) (live : Word) : (State.wrCwinCfg n v live s).memWf := by
  unfold State.wrCwinCfg
  repeat' first
    | assumption
    | with_reducible apply State.invalLine_memWf
    | with_reducible apply memWf_foldl
    | (intro _ _ _)
    | split
    | simp (maxDischargeDepth := 99) [h]

theorem execCwinCfgWrite_memWf {s : State} (h : s.memWf) (who : Requester) (stack : Nat) (value : Word) : ResWf (execCwinCfgWrite who stack value s) := by
  unfold execCwinCfgWrite
  repeat' first
    | assumption
    | with_reducible apply stackWrite_memWf
    | with_reducible apply State.wrCwinCfg_memWf

theorem execCwinDrainDone_memWf {s : State} (h : s.memWf) (stack : Nat) : ResWf (execCwinDrainDone stack s) := by simp (maxDischargeDepth := 99) [execCwinDrainDone, h]

@[simp] theorem State.wrLineStatus_memWf {s : State} (h : s.memWf) (n : Nat) (v : Word) (live : Word) : (State.wrLineStatus n v live s).memWf := by simp (maxDischargeDepth := 99) [State.wrLineStatus, h]

theorem execResetMax_memWf {s : State} (h : s.memWf) (who : Requester) (stack : Nat) : ResWf (execResetMax who stack s) := by
  unfold execResetMax
  repeat' first
    | assumption
    | with_reducible apply stackWrite_memWf

/-! #### Spans.lean -/

@[simp] theorem State.spanBase_memWf {s : State} (h : s.memWf) (src : BitVec 16) (id : BitVec 16) : (State.spanBase s src id).2.memWf := by
  unfold State.spanBase
  repeat' split
  all_goals simp (maxDischargeDepth := 99) [h]

@[simp] theorem State.openRecord_memWf {s : State} (h : s.memWf) (n : Nat) (src : BitVec 16) (id : BitVec 16) : (State.openRecord s n src id).memWf := by simp (maxDischargeDepth := 99) [State.openRecord, h]

@[simp] theorem State.setEntry_memWf {s : State} (h : s.memWf) (m : SpanEntrySet) : (State.setEntry s m).memWf := by simp (maxDischargeDepth := 99) [State.setEntry, h]

theorem execSpanEntrySet_memWf {s : State} (h : s.memWf) (src : BitVec 16) (m : SpanEntrySet) : ResWf (execSpanEntrySet src m s) := by
  unfold execSpanEntrySet
  repeat' first
    | assumption
    | with_reducible apply State.setEntry_memWf
    | with_reducible apply onFm_memWf
    | with_reducible apply State.mgmt_memWf
    | split

@[simp] theorem State.closeRecord_memWf {s : State} (h : s.memWf) (e : SpanEntry) : (State.closeRecord s e).memWf := by simp (maxDischargeDepth := 99) [State.closeRecord, h]

@[simp] theorem State.forgetSpan_memWf {s : State} (h : s.memWf) (port : Nat) (label : Nat) : (State.forgetSpan s port label).memWf := by simp (maxDischargeDepth := 99) [State.forgetSpan, h]

theorem execSpanEntryClear_memWf {s : State} (h : s.memWf) (src : BitVec 16) (inPort : Nat) (label : Nat) : ResWf (execSpanEntryClear src inPort label s) := by
  unfold execSpanEntryClear
  repeat' first
    | assumption
    | with_reducible apply onFm_memWf
    | with_reducible apply State.closeRecord_memWf
    | split

@[simp] theorem State.spanRequest_memWf {s : State} (h : s.memWf) (n : Nat) (x2 : SpanOut) : (State.spanRequest s n x2).memWf := by simp (maxDischargeDepth := 99) [State.spanRequest, h]

theorem execSpanOpen_memWf {s : State} (h : s.memWf) (desc : Nat) : ResWf (execSpanOpen desc s) := by
  unfold execSpanOpen
  repeat' first
    | with_reducible apply onStarted_memWf
    | simp (maxDischargeDepth := 99) [h]

@[simp] theorem State.spanFails_memWf {s : State} (h : s.memWf) (n : Nat) (x2 : SpanOut) (detail : Nat) : (State.spanFails s n x2 detail).memWf := by simp (maxDischargeDepth := 99) [State.spanFails, h]

theorem execSpanGrant_memWf {s : State} (h : s.memWf) (src : BitVec 16) (stack : Nat) (span : BitVec 16) (label : BitVec 16) (epoch : BitVec 8) : ResWf (execSpanGrant src stack span label epoch s) := by
  unfold execSpanGrant
  repeat' first
    | assumption
    | with_reducible apply ResWf_onStack
    | with_reducible apply onFm_memWf
    | with_reducible apply State.spanRelease_memWf
    | with_reducible apply State.arm_memWf
    | with_reducible apply State.modSpan_memWf
    | with_reducible apply State.spanFails_memWf
    | split

theorem execSpanRefuse_memWf {s : State} (h : s.memWf) (src : BitVec 16) (stack : Nat) (span : BitVec 16) (reason : Byte) : ResWf (execSpanRefuse src stack span reason s) := by
  unfold execSpanRefuse
  repeat' first
    | assumption
    | with_reducible apply ResWf_onStack
    | with_reducible apply onFm_memWf
    | with_reducible apply State.spanFails_memWf
    | split

theorem execSpanGrantTimeout_memWf {s : State} (h : s.memWf) (stack : Nat) (span : BitVec 16) : ResWf (execSpanGrantTimeout stack span s) := by
  unfold execSpanGrantTimeout
  repeat' split
  all_goals simp (maxDischargeDepth := 99) [h]

theorem execSpanActivate_memWf {s : State} (h : s.memWf) (stack : Nat) (span : BitVec 16) : ResWf (execSpanActivate stack span s) := by
  unfold execSpanActivate
  repeat' split
  all_goals simp (maxDischargeDepth := 99) [h]

theorem execSpanClose_memWf {s : State} (h : s.memWf) (desc : Nat) : ResWf (execSpanClose desc s) := by
  unfold execSpanClose
  repeat' first
    | assumption
    | with_reducible apply onStarted_memWf
    | with_reducible apply State.failDesc_memWf
    | (intro _)
    | split

@[simp] theorem State.endClosing_memWf {s : State} (h : s.memWf) (n : Nat) (id : BitVec 16) : (State.endClosing s n id).memWf := by
  unfold State.endClosing
  repeat' split
  all_goals simp (maxDischargeDepth := 99) [h]

@[simp] theorem State.sendSync_memWf {s : State} (h : s.memWf) (n : Nat) (x2 : SpanOut) : (State.sendSync s n x2).memWf := by simp (maxDischargeDepth := 99) [State.sendSync, h]

@[simp] theorem State.endPause_memWf {s : State} (h : s.memWf) (n : Nat) (x2 : SpanOut) : (State.endPause s n x2).memWf := by simp (maxDischargeDepth := 99) [State.endPause, h]

@[simp] theorem State.closeSpan_memWf {s : State} (h : s.memWf) (n : Nat) (x2 : SpanOut) : (State.closeSpan s n x2).memWf := by
  unfold State.closeSpan
  repeat' split
  all_goals simp (maxDischargeDepth := 99) [h]

theorem execSpanCloseBeat_memWf {s : State} (h : s.memWf) (stack : Nat) (span : BitVec 16) : ResWf (execSpanCloseBeat stack span s) := by
  unfold execSpanCloseBeat
  repeat' split
  all_goals simp (maxDischargeDepth := 99) [h]

@[simp] theorem State.sendMarker_memWf {s : State} (h : s.memWf) (n : Nat) (id : BitVec 16) : (State.sendMarker s n id).memWf := by
  unfold State.sendMarker
  repeat' split
  all_goals simp (maxDischargeDepth := 99) [h]

theorem execSpanFrameSend_memWf {s : State} (h : s.memWf) (stack : Nat) (span : BitVec 16) : ResWf (execSpanFrameSend stack span s) := by
  unfold execSpanFrameSend
  dsimp only
  repeat' split
  all_goals simp (maxDischargeDepth := 99) [h]

@[simp] theorem State.spanReqDone_memWf {s : State} (h : s.memWf) (n : Nat) (x2 : SpanOut) (id : Nat) : (State.spanReqDone s n x2 id).memWf := by
  unfold State.spanReqDone
  repeat' split
  all_goals simp (maxDischargeDepth := 99) [h]

@[simp] theorem State.rerouteDone_memWf {s : State} (h : s.memWf) (n : Nat) (x2 : SpanOut) : (State.rerouteDone s n x2).memWf := by simp (maxDischargeDepth := 99) [State.rerouteDone, h]

@[simp] theorem State.spanAcked_memWf {s : State} (h : s.memWf) (n : Nat) (x2 : SpanOut) (c : Nat) : (State.spanAcked s n x2 c).memWf := by
  unfold State.spanAcked
  repeat' first
    | assumption
    | with_reducible apply State.modSpan_memWf
    | with_reducible apply State.rerouteDone_memWf
    | with_reducible apply State.endClosing_memWf
    | with_reducible apply State.spanReqDone_memWf
    | with_reducible apply memWf_foldl
    | (intro _ _ _)
    | split

theorem execSpanAck_memWf {s : State} (h : s.memWf) (stack : Nat) (pkt : Packet) : ResWf (execSpanAck stack pkt s) := by
  unfold execSpanAck
  dsimp only
  repeat' split
  all_goals simp (maxDischargeDepth := 99) [h]

theorem execSpanSyncTimer_memWf {s : State} (h : s.memWf) (stack : Nat) (span : BitVec 16) : ResWf (execSpanSyncTimer stack span s) := by
  unfold execSpanSyncTimer
  repeat' split
  all_goals simp (maxDischargeDepth := 99) [h]

theorem execSpanReroute_memWf {s : State} (h : s.memWf) (src : BitVec 16) (stack : Nat) (span : BitVec 16) (label : BitVec 16) (epoch : Byte) (planned : Byte) : ResWf (execSpanReroute src stack span label epoch planned s) := by
  unfold execSpanReroute
  repeat' first
    | assumption
    | with_reducible refine (ResWf_next _).2 ?_
    | with_reducible apply ResWf_onStack
    | with_reducible apply ResWf_onFm
    | with_reducible apply State.sendMarker_memWf
    | with_reducible apply State.sendSync_memWf
    | with_reducible apply onFm_memWf
    | with_reducible apply State.modSpan_memWf
    | split
    | dsimp only

theorem execSpanBroken_memWf {s : State} (h : s.memWf) (stack : Nat) (pkt : Packet) : ResWf (execSpanBroken stack pkt s) := by
  unfold execSpanBroken
  dsimp only
  repeat' split
  all_goals simp (maxDischargeDepth := 99) [h]

theorem execSpanPauseTimeout_memWf {s : State} (h : s.memWf) (stack : Nat) (span : BitVec 16) : ResWf (execSpanPauseTimeout stack span s) := by
  unfold execSpanPauseTimeout
  repeat' split
  all_goals simp (maxDischargeDepth := 99) [h]

@[simp] theorem State.routeFrames_memWf {s : State} (h : s.memWf) (n : Nat) (x : SpanOut) (fs : List SentFrame) :
    (s.routeFrames n x fs).memWf := by
  refine memWf_foldl (fun t id ht => ?_) _ h
  split
  · exact ht
  · refine State.modStack_memWf_same ?_ _ (fun _ => rfl)
    refine memWf_foldl_fst ?_ _ ?_
    · exact fun p f hp => State.fresh_memWf hp
    · exact ht

@[simp] theorem State.afterSync_memWf {s : State} (h : s.memWf) (n : Nat) (x2 : SpanOut) : (State.afterSync s n x2).memWf := by simp (maxDischargeDepth := 99) [State.afterSync, h]

theorem execSyncReply_memWf {s : State} (h : s.memWf) (stack : Nat) (pkt : Packet) : ResWf (execSyncReply stack pkt s) := by
  unfold execSyncReply
  dsimp only
  repeat' split
  all_goals simp (maxDischargeDepth := 99) [h]

/-! #### SpanTargets.lean -/

@[simp] theorem State.keep_memWf {s : State} (h : s.memWf) (x : Kept) : (State.keep s x).memWf := by simp (maxDischargeDepth := 99) [State.keep, h]

@[simp] theorem State.unkeep_memWf {s : State} (h : s.memWf) (x1 : Kept) : (State.unkeep s x1).memWf := by simp (maxDischargeDepth := 99) [State.unkeep, h]

@[simp] theorem State.upGo_memWf {s : State} (h : s.memWf) (n : Nat) (f : Frame) : (State.upGo s n f).memWf := by simp (maxDischargeDepth := 99) [State.upGo, h]

@[simp] theorem State.pumpUp_memWf {s : State} (h : s.memWf) (n : Nat) : (State.pumpUp s n).memWf := by
  unfold State.pumpUp
  repeat' first
    | assumption
    | with_reducible apply State.upGo_memWf
    | with_reducible apply memWf_foldl
    | with_reducible apply memWf_foldl_fst
    | (intro _ _ _)
    | split
    | dsimp only

@[simp] theorem State.bringUp_memWf {s : State} (h : s.memWf) (port : Nat) : (State.bringUp s port).memWf := by simp (maxDischargeDepth := 99) [State.bringUp, h]

@[simp] theorem State.accepted_memWf {s : State} (h : s.memWf) (port : Nat) (f : Frame) : (State.accepted s port f).memWf := by simp (maxDischargeDepth := 99) [State.accepted, h]

@[simp] theorem State.putFrame_memWf {s : State} (h : s.memWf) (port : Nat) (label : Nat) (f : Frame) : (State.putFrame s port label f).memWf := by simp (maxDischargeDepth := 99) [State.putFrame, h]

@[simp] theorem State.roomOn_memWf (fuel : Nat) {s : State} (h : s.memWf) (port label cells need : Nat) :
    (State.roomOn fuel s port label cells need).1.memWf := by
  induction fuel generalizing s with
  | zero => exact h
  | succ fuel ih =>
    unfold State.roomOn
    dsimp only
    split
    · exact h
    split
    · split
      · exact h
      · split
        · exact ih (State.unkeep_memWf (State.takeFree_memWf h) _)
        · exact State.takeFree_memWf h
    · exact h

@[simp] theorem State.branchRoom_memWf {s : State} (h : s.memWf) (port : Nat) (label : Nat) (cells : Nat) (f : Frame) : (State.branchRoom s port label cells f).1.memWf := by simp (maxDischargeDepth := 99) [State.branchRoom, h]

@[simp] theorem State.sendBroken_memWf {s : State} (h : s.memWf) (port : Nat) (src : BitVec 16) (dst : BitVec 16) (span : BitVec 16) : (State.sendBroken s port src dst span).memWf := by simp (maxDischargeDepth := 99) [State.sendBroken, h]

@[simp] theorem State.fencedFrame_memWf {s : State} (h : s.memWf) (e : SpanEntry) : (State.fencedFrame s e).memWf := by simp (maxDischargeDepth := 99) [State.fencedFrame, h]

@[simp] theorem State.dropFrame_memWf {s : State} (h : s.memWf)  : (State.dropFrame s).memWf := by simp (maxDischargeDepth := 99) [State.dropFrame, h]

@[simp] theorem State.restateFrame_memWf {s : State} (h : s.memWf) (f : Frame) (gs : List Frame) : (State.restateFrame s f gs).memWf := by simp (maxDischargeDepth := 99) [State.restateFrame, h]

@[simp] theorem State.relay_memWf {s : State} (h : s.memWf) (inPort : Nat) (f : Frame) : (State.relay s inPort f).memWf := by
  unfold State.relay
  repeat' split
  all_goals simp (maxDischargeDepth := 99) [h]

@[simp] theorem State.popFrom_memWf {s : State} (h : s.memWf) (key : Nat) (f : Frame) : (State.popFrom s key f).memWf := by simp (maxDischargeDepth := 99) [State.popFrom, h]

@[simp] theorem State.relayRoom_memWf {s : State} (h : s.memWf) (inPort : Nat) (f : Frame) : (State.relayRoom s inPort f).1.memWf := by
  unfold State.relayRoom
  repeat' split
  all_goals simp (maxDischargeDepth := 99) [h]

theorem execSpanFrameForward_memWf {s : State} (h : s.memWf) (inPort : Nat) (frame : Frame) : ResWf (execSpanFrameForward inPort frame s) := by simp (maxDischargeDepth := 99) [execSpanFrameForward, h]

@[simp] theorem State.modIn_memWf {s : State} (h : s.memWf) (n : Nat) (src : BitVec 16) (id : BitVec 16) (g : SpanIn → SpanIn) : (State.modIn s n src id g).memWf := by simp (maxDischargeDepth := 99) [State.modIn, h]

@[simp] theorem State.countDiscard_memWf {s : State} (h : s.memWf) (n : Nat) : (State.countDiscard s n).memWf := by simp (maxDischargeDepth := 99) [State.countDiscard, h]

@[simp] theorem State.sendSpanAck_memWf {s : State} (h : s.memWf) (n : Nat) (x2 : SpanIn) : (State.sendSpanAck s n x2).memWf := by simp (maxDischargeDepth := 99) [State.sendSpanAck, h]

@[simp] theorem State.applyFrame_memWf {s : State} (h : s.memWf) (n : Nat) (x2 : SpanIn) (f : Frame) (rest : List Frame) : (State.applyFrame s n x2 f rest).memWf := by simp (maxDischargeDepth := 99) [State.applyFrame, h]

@[simp] theorem State.frameGate_memWf {s : State} (h : s.memWf) (n : Nat) (x : SpanIn) (f : Frame) : (State.frameGate s n x f).1.memWf := by
  unfold State.frameGate
  dsimp only
  repeat' split
  all_goals simp (maxDischargeDepth := 99) [h]

@[simp] theorem State.pump_memWf {s : State} (h : s.memWf) (p0 : Nat) (p2 : Nat) (p3 : BitVec 16) (p4 : BitVec 16) : (State.pump p0 s p2 p3 p4).memWf := by
  unfold State.pump
  repeat' first
    | assumption
    | with_reducible apply State.frameGate_memWf
    | with_reducible apply State.applyFrame_memWf
    | with_reducible apply pump_memWf
    | split
    | dsimp only

@[simp] theorem State.pumpSpan_memWf {s : State} (h : s.memWf) (n : Nat) (x2 : SpanIn) : (State.pumpSpan s n x2).memWf := by
  unfold State.pumpSpan
  repeat' first
    | assumption
    | with_reducible apply State.pump_memWf

@[simp] theorem State.pumpAll_memWf {s : State} (h : s.memWf) (n : Nat) : (State.pumpAll s n).memWf := by
  unfold State.pumpAll
  repeat' first
    | assumption
    | with_reducible apply State.pumpSpan_memWf
    | with_reducible apply memWf_foldl
    | (intro _ _ _)

@[simp] theorem State.takeFrame_memWf {s : State} (h : s.memWf) (n : Nat) (x2 : SpanIn) (f : Frame) : (State.takeFrame s n x2 f).memWf := by simp (maxDischargeDepth := 99) [State.takeFrame, h]

theorem onFrame_memWf {s : State} (h : s.memWf) (n : Nat) (f : Frame) (kind : BitVec 2) {g : State → SpanIn → State}
    (hg : ∀ x, (g s x).memWf) : ResWf (onFrame s n f kind g) := by
  refine ResWf_onStack _ (ResWf_whenOk _ h ?_)
  split
  · exact State.countDiscard_memWf (State.popFrom_memWf h _ _) _
  split
  · exact State.fencedFrame_memWf (State.popFrom_memWf h _ _) _
  split
  · exact State.countDiscard_memWf (State.popFrom_memWf h _ _) _
  · exact hg _

@[simp] theorem State.breakIn_memWf {s : State} (h : s.memWf) (n : Nat) (x : SpanIn) : (State.breakIn s n x).memWf := by simp (maxDischargeDepth := 99) [State.breakIn, h]

theorem execSpanFrame_memWf {s : State} (h : s.memWf) (stack : Nat) (frame : Frame) (poisoned : Bool) : ResWf (execSpanFrame stack frame poisoned s) := by
  unfold execSpanFrame
  repeat' first
    | assumption
    | with_reducible refine (ResWf_next _).2 ?_
    | with_reducible apply State.breakIn_memWf
    | with_reducible apply onFrame_memWf
    | with_reducible apply State.takeFrame_memWf
    | with_reducible apply State.popFrom_memWf
    | split
    | dsimp only
    | (intro _ _)
  all_goals first
    | assumption
    | (simp (maxDischargeDepth := 99) [*])

theorem execDrainMarker_memWf {s : State} (h : s.memWf) (stack : Nat) (marker : Marker) : ResWf (execDrainMarker stack marker s) := by
  unfold execDrainMarker
  repeat' first
    | assumption
    | with_reducible refine (ResWf_next _).2 ?_
    | with_reducible apply State.breakIn_memWf
    | with_reducible apply onFrame_memWf
    | with_reducible apply State.pumpSpan_memWf
    | with_reducible apply State.countDiscard_memWf
    | with_reducible apply State.modIn_memWf
    | with_reducible apply State.popFrom_memWf
    | split
    | dsimp only
    | (intro _ _)
  all_goals first
    | assumption
    | (simp (maxDischargeDepth := 99) [*])

theorem execSpanAckTimer_memWf {s : State} (h : s.memWf) (stack : Nat) (src : BitVec 16) (span : BitVec 16) : ResWf (execSpanAckTimer stack src span s) := by
  unfold execSpanAckTimer
  repeat' split
  all_goals simp (maxDischargeDepth := 99) [h]

@[simp] theorem State.sendSyncReply_memWf {s : State} (h : s.memWf) (n : Nat) (x2 : SpanIn) (p : Packet) : (State.sendSyncReply s n x2 p).memWf := by simp (maxDischargeDepth := 99) [State.sendSyncReply, h]

@[simp] theorem State.adoptEpoch_memWf {s : State} (h : s.memWf) (n : Nat) (x2 : SpanIn) (e : BitVec 4) : (State.adoptEpoch s n x2 e).memWf := by
  unfold State.adoptEpoch
  repeat' first
    | assumption
    | with_reducible apply State.modIn_memWf
    | with_reducible apply memWf_foldl
    | (intro _ _ _)

theorem execSpanSync_memWf {s : State} (h : s.memWf) (stack : Nat) (pkt : Packet) : ResWf (execSpanSync stack pkt s) := by
  unfold execSpanSync
  dsimp only
  repeat' split
  all_goals simp (maxDischargeDepth := 99) [h]

@[simp] theorem State.attendAny_memWf {s : State} (h : s.memWf) (n : Nat) (p : Packet) : (State.attendAny s n p).memWf := by simp (maxDischargeDepth := 99) [State.attendAny, h]

theorem execLineServe_memWf {s : State} (h : s.memWf) (stack : Nat) (line : Nat) : ResWf (execLineServe stack line s) := by
  unfold execLineServe
  repeat' split
  all_goals simp (maxDischargeDepth := 99) [h]

theorem execInvalAck_memWf {s : State} (h : s.memWf) (stack : Nat) (pkt : Packet) : ResWf (execInvalAck stack pkt s) := by
  unfold execInvalAck
  dsimp only
  repeat' split
  all_goals simp (maxDischargeDepth := 99) [h]

theorem execInvalResendTimer_memWf {s : State} (h : s.memWf) (stack : Nat) (number : BitVec 32) : ResWf (execInvalResendTimer stack number s) := by
  unfold execInvalResendTimer
  repeat' split
  all_goals simp (maxDischargeDepth := 99) [h]

/-! #### Trestles.lean -/

@[simp] theorem State.auditNotice_memWf {s : State} (h : s.memWf) (kind : Nat) (tag : BitVec 32) : (State.auditNotice s kind tag).memWf := by simp (maxDischargeDepth := 99) [State.auditNotice, h]

theorem execAuditPassEnd_memWf {s : State} (h : s.memWf) (lost : List (Nat × CellOwner)) (doubled : List (Nat × (Packet ⊕ Frame))) (wrong : List ((Packet ⊕ Frame) × Nat)) (unlisted : List Nat) : ResWf (execAuditPassEnd lost doubled wrong unlisted s) := by
  unfold execAuditPassEnd
  repeat' first
    | assumption
    | with_reducible refine (ResWf_next _).2 ?_
    | with_reducible apply State.auditNotice_memWf
    | with_reducible apply State.keep_memWf
    | with_reducible apply State.modSw_memWf
    | with_reducible apply State.takeFree_memWf
    | with_reducible apply State.satFld_memWf
    | with_reducible apply State.setBit_memWf
    | with_reducible apply State.setFld_memWf
    | with_reducible apply memWf_foldl
    | with_reducible apply memWf_foldl_fst
    | (intro _ _ _)
    | split
    | dsimp only

@[simp] theorem State.modTrestle_memWf {s : State} (h : s.memWf) (owner : Nat) (entry : Nat) (f : Trestle → Trestle) : (State.modTrestle s owner entry f).memWf := by simp (maxDischargeDepth := 99) [State.modTrestle, h]

@[simp] theorem Trestle.accept_memWf {s : State} (h : s.memWf) (t : Trestle) (port : Nat) (f : Frame) : (Trestle.accept t s port f).memWf := by simp (maxDischargeDepth := 99) [Trestle.accept, h]

@[simp] theorem State.memberSend_memWf {s : State} (h : s.memWf) (n : Nat) (label : Nat) (f : Frame) : (State.memberSend s n label f).memWf := by simp (maxDischargeDepth := 99) [State.memberSend, h]

@[simp] theorem Trestle.sendCopy_memWf {s : State} (h : s.memWf) (t : Trestle) (port : Nat) (label : Nat) (f : Frame) : (Trestle.sendCopy t s port label f).memWf := by simp (maxDischargeDepth := 99) [Trestle.sendCopy, h]

@[simp] theorem Trestle.room_memWf {s : State} (h : s.memWf) (t : Trestle) (f : Frame) : (Trestle.room t s f).1.memWf := by
  unfold Trestle.room
  repeat' first
    | assumption
    | with_reducible apply State.branchRoom_memWf
    | with_reducible apply memWf_foldl
    | with_reducible apply memWf_foldl_fst
    | (intro _ _ _)
    | split
    | dsimp only

@[simp] theorem State.tellPruned_memWf {s : State} (h : s.memWf) (t : Trestle) (item : Nat) (index : Nat) (count : Nat) (node : BitVec 16) : (State.tellPruned s t item index count node).memWf := by simp (maxDischargeDepth := 99) [State.tellPruned, h]

@[simp] theorem State.countPruned_memWf {s : State} (h : s.memWf) (t : Trestle) (item : Nat) (index : Nat) (cells : Nat) : (State.countPruned s t item index cells).memWf := by simp (maxDischargeDepth := 99) [State.countPruned, h]

@[simp] theorem Trestle.sendAll_memWf {s : State} (h : s.memWf) (t : Trestle) (f : Frame) : (Trestle.sendAll t s f).memWf := by
  unfold Trestle.sendAll
  repeat' first
    | assumption
    | with_reducible apply State.countPruned_memWf
    | with_reducible apply Trestle.sendCopy_memWf
    | with_reducible apply memWf_foldl
    | (intro _ _ _)
    | split

@[simp] theorem State.outPosition_memWf {s : State} (h : s.memWf) (t : Trestle) (x2 : HeldInput) : (State.outPosition s t x2).1.memWf := by
  unfold State.outPosition
  dsimp only
  repeat' split
  all_goals simp (maxDischargeDepth := 99) [h]

@[simp] theorem State.evaluate_memWf {s : State} (h : s.memWf) (t : Trestle) (x2 : HeldInput) : (State.evaluate s t x2).memWf := by
  unfold State.evaluate
  dsimp only
  repeat' split
  all_goals simp (maxDischargeDepth := 99) [h]

@[simp] theorem State.positionRoom_memWf {s : State} (h : s.memWf) (t : Trestle) (x2 : HeldInput) : (State.positionRoom s t x2).1.memWf := by
  unfold State.positionRoom
  repeat' split
  all_goals simp (maxDischargeDepth := 99) [h]

theorem execReductionEvaluate_memWf {s : State} (h : s.memWf) (at_ : Nat) (entry : Nat) : ResWf (execReductionEvaluate at_ entry s) := by
  unfold execReductionEvaluate
  repeat' split
  all_goals simp (maxDischargeDepth := 99) [h]

@[simp] theorem State.discardCopies_memWf {s : State} (h : s.memWf) (t : Trestle) (index : Nat) : (State.discardCopies s t index).memWf := by
  unfold State.discardCopies
  repeat' first
    | assumption
    | with_reducible apply State.countPruned_memWf
    | with_reducible apply State.freeCells_memWf
    | with_reducible apply State.modSw_memWf
    | with_reducible apply memWf_foldl
    | with_reducible apply memWf_foldl_fst
    | (intro _ _ _)
    | split
    | dsimp only

@[simp] theorem State.pruneInputs_memWf {s : State} (h : s.memWf) (t : Trestle) (gone : List Nat) : (State.pruneInputs s t gone).memWf := by
  unfold State.pruneInputs
  repeat' first
    | assumption
    | with_reducible apply State.countPruned_memWf
    | with_reducible apply State.modTrestle_memWf
    | with_reducible apply memWf_foldl
    | with_reducible apply memWf_foldl_fst
    | (intro _ _ _)
    | split
    | dsimp only

@[simp] theorem State.prune_memWf {s : State} (h : s.memWf) (t0 : Trestle) : (State.prune s t0).memWf := by
  unfold State.prune
  repeat' first
    | assumption
    | with_reducible apply State.pruneInputs_memWf
    | with_reducible apply State.discardCopies_memWf
    | with_reducible apply State.evaluateAll_memWf
    | with_reducible apply State.tellPruned_memWf
    | with_reducible apply State.modTrestle_memWf
    | with_reducible apply State.satFld_memWf
    | with_reducible apply memWf_foldl
    | with_reducible apply memWf_foldl_fst
    | (intro _ _ _)
    | split
    | dsimp only

@[simp] theorem State.pruneAll_memWf {s : State} (h : s.memWf)  : (State.pruneAll s).memWf := by
  unfold State.pruneAll
  repeat' first
    | assumption
    | with_reducible apply State.prune_memWf
    | with_reducible apply memWf_foldl
    | (intro _ _ _)

@[simp] theorem State.fenceResult_memWf {s : State} (h : s.memWf) (node : BitVec 16) (r : Nat) : (State.fenceResult s node r).memWf := by simp (maxDischargeDepth := 99) [State.fenceResult, h]

theorem execFenceSet_memWf {s : State} (h : s.memWf) (src : BitVec 16) (node : BitVec 16) : ResWf (execFenceSet src node s) := by
  unfold execFenceSet
  repeat' first
    | assumption
    | with_reducible apply onFm_memWf
    | with_reducible apply State.fenceResult_memWf
    | with_reducible apply State.pruneAll_memWf
    | split

theorem execFenceClear_memWf {s : State} (h : s.memWf) (src : BitVec 16) (node : BitVec 16) : ResWf (execFenceClear src node s) := by
  unfold execFenceClear
  repeat' first
    | assumption
    | with_reducible refine (ResWf_next _).2 ?_
    | with_reducible apply ResWf_onFm
    | with_reducible apply State.fenceResult_memWf
    | with_reducible apply onFm_memWf
    | with_reducible apply State.modSw_memWf
    | split
    | dsimp only

@[simp] theorem State.withoutEntry_memWf {s : State} (h : s.memWf) (owner : Nat) (entry : Nat) : (State.withoutEntry s owner entry).memWf := by simp (maxDischargeDepth := 99) [State.withoutEntry, h]

@[simp] theorem State.trestleAnswer_memWf {s : State} (h : s.memWf) (owner : Nat) (entry : Nat) (r : Nat) : (State.trestleAnswer s owner entry r).memWf := by simp (maxDischargeDepth := 99) [State.trestleAnswer, h]

@[simp] theorem State.putTrestle_memWf {s : State} (h : s.memWf) (t : Trestle) (commit : Bool) : (State.putTrestle s t commit).memWf := by simp (maxDischargeDepth := 99) [State.putTrestle, h]

@[simp] theorem State.setTrestle_memWf {s : State} (h : s.memWf) (owner : Nat) (m : TrestleSet) : (State.setTrestle s owner m).memWf := by
  unfold State.setTrestle
  dsimp only
  repeat' split
  all_goals simp (maxDischargeDepth := 99) [h]

theorem execTrestleEntrySet_memWf {s : State} (h : s.memWf) (src : BitVec 16) (at_ : Nat) (m : TrestleSet) : ResWf (execTrestleEntrySet src at_ m s) := by
  unfold execTrestleEntrySet
  repeat' first
    | assumption
    | with_reducible apply ResWf_noUnit
    | with_reducible apply onFm_memWf
    | with_reducible apply State.setTrestle_memWf
    | split

@[simp] theorem State.clearTrestle_memWf {s : State} (h : s.memWf) (owner : Nat) (entry : Nat) : (State.clearTrestle s owner entry).memWf := by
  unfold State.clearTrestle
  repeat' first
    | assumption
    | with_reducible apply State.withoutEntry_memWf
    | with_reducible apply State.forgetSpan_memWf
    | with_reducible apply State.modSw_memWf
    | with_reducible apply memWf_foldl
    | with_reducible apply memWf_foldl_fst
    | (intro _ _ _)
    | split
    | dsimp only

theorem execTrestleEntryClear_memWf {s : State} (h : s.memWf) (src : BitVec 16) (at_ : Nat) (entry : Nat) : ResWf (execTrestleEntryClear src at_ entry s) := by
  unfold execTrestleEntryClear
  repeat' first
    | assumption
    | with_reducible refine (ResWf_next _).2 ?_
    | with_reducible apply ResWf_noUnit
    | with_reducible apply ResWf_onFm
    | with_reducible apply State.clearTrestle_memWf
    | with_reducible apply onFm_memWf
    | split
    | dsimp only

@[simp] theorem State.ask_memWf {s : State} (h : s.memWf) (code : Nat) (f : Frame) : (State.ask s code f).memWf := by simp (maxDischargeDepth := 99) [State.ask, h]

@[simp] theorem State.askAgain_memWf {s : State} (h : s.memWf) (t : Trestle) (num : Nat) (port : Nat) (f : Frame) : (State.askAgain s t num port f).memWf := by simp (maxDischargeDepth := 99) [State.askAgain, h]

@[simp] theorem State.forgetChecks_memWf {s : State} (h : s.memWf) (t : Trestle) (num : Nat) (f : Frame) : (State.forgetChecks s t num f).memWf := by simp (maxDischargeDepth := 99) [State.forgetChecks, h]

@[simp] theorem Trestle.lift_memWf {s : State} (h : s.memWf) (t : Trestle) (port : Nat) (f : Frame) : (Trestle.lift t s port f).memWf := by simp (maxDischargeDepth := 99) [Trestle.lift, h]

@[simp] theorem Trestle.pass_memWf {s : State} (h : s.memWf) (t : Trestle) (num : Nat) (port : Nat) (f : Frame) (g : Frame) : (Trestle.pass t s num port f g).memWf := by simp (maxDischargeDepth := 99) [Trestle.pass, h]

theorem execMulticastFrame_memWf {s : State} (h : s.memWf) (entry : Nat) (frame : Frame) : ResWf (execMulticastFrame entry frame s) := by
  unfold execMulticastFrame
  dsimp only
  repeat' split
  all_goals simp (maxDischargeDepth := 99) [h]

@[simp] theorem State.takeInput_memWf {s : State} (h : s.memWf) (t : Trestle) (num : Nat) (f : Frame) : (State.takeInput s t num f).memWf := by simp (maxDischargeDepth := 99) [State.takeInput, h]

@[simp] theorem State.loseInput_memWf {s : State} (h : s.memWf) (t : Trestle) (num : Nat) (f : Frame) : (State.loseInput s t num f).memWf := by simp (maxDischargeDepth := 99) [State.loseInput, h]

theorem execTrestleInputFrame_memWf {s : State} (h : s.memWf) (at_ : Nat) (entry : Nat) (num : Nat) (frame : Frame) : ResWf (execTrestleInputFrame at_ entry num frame s) := by
  unfold execTrestleInputFrame
  dsimp only
  repeat' split
  all_goals simp (maxDischargeDepth := 99) [h]

theorem execChunkRefetch_memWf {s : State} (h : s.memWf) (port : Nat) (label : Nat) : ResWf (execChunkRefetch port label s) := by
  unfold execChunkRefetch
  dsimp only
  repeat' split
  all_goals simp (maxDischargeDepth := 99) [h]

/-! #### Collectives.lean -/

@[simp] theorem State.modGroup_memWf {s : State} (h : s.memWf) (n : Nat) (g : BitVec 16) (f : Group → Group) : (State.modGroup s n g f).memWf := by simp (maxDischargeDepth := 99) [State.modGroup, h]

@[simp] theorem State.modColl_memWf {s : State} (h : s.memWf) (n : Nat) (g : BitVec 16) (f : Coll → Coll) : (State.modColl s n g f).memWf := by simp (maxDischargeDepth := 99) [State.modColl, h]

@[simp] theorem State.endColl_memWf {s : State} (h : s.memWf) (n : Nat) (g : BitVec 16) : (State.endColl s n g).memWf := by simp (maxDischargeDepth := 99) [State.endColl, h]

@[simp] theorem State.sendUp_memWf {s : State} (h : s.memWf) (n : Nat) (x2 : Group) (f : Frame) : (State.sendUp s n x2 f).memWf := by simp (maxDischargeDepth := 99) [State.sendUp, h]

@[simp] theorem State.beginColl_memWf {s : State} (h : s.memWf) (n : Nat) (x2 : Group) (d : Desc) : (State.beginColl s n x2 d).memWf := by simp (maxDischargeDepth := 99) [State.beginColl, h]

@[simp] theorem State.proceed_memWf {s : State} (h : s.memWf) (n : Nat) (x2 : Group) (d : Desc) : (State.proceed s n x2 d).memWf := by simp (maxDischargeDepth := 99) [State.proceed, h]

@[simp] theorem State.groupRequest_memWf {s : State} (h : s.memWf) (n : Nat) (d : Desc) : (State.groupRequest s n d).memWf := by simp (maxDischargeDepth := 99) [State.groupRequest, h]

@[simp] theorem State.askGroup_memWf {s : State} (h : s.memWf) (n : Nat) (d : Desc) : (State.askGroup s n d).memWf := by simp (maxDischargeDepth := 99) [State.askGroup, h]

theorem execCollective_memWf {s : State} (h : s.memWf) (desc : Nat) : ResWf (execCollective desc s) := by
  unfold execCollective
  repeat' first
    | assumption
    | with_reducible apply onStarted_memWf
    | with_reducible apply State.proceed_memWf
    | with_reducible apply State.failDesc_memWf
    | with_reducible apply State.askGroup_memWf
    | (intro _)
    | split

theorem execGroupGrant_memWf {s : State} (h : s.memWf) (src : BitVec 16) (stack : Nat) (group : BitVec 16) (up : BitVec 16) (down : BitVec 16) : ResWf (execGroupGrant src stack group up down s) := by
  unfold execGroupGrant
  repeat' first
    | assumption
    | with_reducible apply ResWf_onStack
    | with_reducible apply onFm_memWf
    | with_reducible apply State.modGroup_memWf
    | with_reducible apply State.proceed_memWf
    | split

@[simp] theorem State.groupFails_memWf {s : State} (h : s.memWf) (n : Nat) (g : BitVec 16) (detail : Nat) : (State.groupFails s n g detail).memWf := by
  unfold State.groupFails
  repeat' split
  all_goals simp (maxDischargeDepth := 99) [h]

theorem execGroupRefuse_memWf {s : State} (h : s.memWf) (src : BitVec 16) (stack : Nat) (group : BitVec 16) (reason : Byte) : ResWf (execGroupRefuse src stack group reason s) := by
  unfold execGroupRefuse
  repeat' first
    | assumption
    | with_reducible apply ResWf_onStack
    | with_reducible apply onFm_memWf
    | with_reducible apply State.groupFails_memWf

theorem execGroupRequestTimeout_memWf {s : State} (h : s.memWf) (stack : Nat) (group : BitVec 16) : ResWf (execGroupRequestTimeout stack group s) := by
  unfold execGroupRequestTimeout
  repeat' split
  all_goals simp (maxDischargeDepth := 99) [h]

@[simp] theorem State.missAll_memWf {s : State} (h : s.memWf) (n : Nat) (g : BitVec 16) : (State.missAll s n g).memWf := by
  unfold State.missAll
  repeat' split
  all_goals simp (maxDischargeDepth := 99) [h]

@[simp] theorem State.clearGroup_memWf {s : State} (h : s.memWf) (n : Nat) (g : BitVec 16) : (State.clearGroup s n g).memWf := by
  unfold State.clearGroup
  repeat' split
  all_goals simp (maxDischargeDepth := 99) [h]

theorem execGroupClear_memWf {s : State} (h : s.memWf) (src : BitVec 16) (stack : Nat) (group : BitVec 16) : ResWf (execGroupClear src stack group s) := by
  unfold execGroupClear
  repeat' first
    | assumption
    | with_reducible apply ResWf_onStack
    | with_reducible apply onFm_memWf
    | with_reducible apply State.clearGroup_memWf

@[simp] theorem State.breakGroup_memWf {s : State} (h : s.memWf) (n : Nat) (x2 : Group) (cause : Nat) : (State.breakGroup s n x2 cause).memWf := by simp (maxDischargeDepth := 99) [State.breakGroup, h]

theorem execCollectiveLimitExpire_memWf {s : State} (h : s.memWf) (stack : Nat) (group : BitVec 16) : ResWf (execCollectiveLimitExpire stack group s) := by
  unfold execCollectiveLimitExpire
  dsimp only
  repeat' split
  all_goals simp (maxDischargeDepth := 99) [h]

@[simp] theorem State.countFailed_memWf {s : State} (h : s.memWf) (n : Nat) : (State.countFailed s n).memWf := by simp (maxDischargeDepth := 99) [State.countFailed, h]

@[simp] theorem State.recordFailed_memWf {s : State} (h : s.memWf) (n : Nat) (g : BitVec 16) (f : Frame) : (State.recordFailed s n g f).memWf := by simp (maxDischargeDepth := 99) [State.recordFailed, h]

@[simp] theorem State.downFails_memWf {s : State} (h : s.memWf) (n : Nat) (x : Group) (f : Frame) : (State.downFails s n x f).memWf := by simp (maxDischargeDepth := 99) [State.downFails, h]

theorem onDown_memWf {s : State} (h : s.memWf) (n round : Nat) (f : Frame) {g : State → Group → Coll → State}
    (hg : ∀ t x c, State.memWf t → (g t x c).memWf) : ResWf (onDown s n round f g) := by
  refine ResWf_onStack _ ?_
  split
  · exact (ResWf_next _).2 h
  refine ResWf_whenOk _ h ?_
  have h' := State.popFrom_memWf h (intPort n) f
  dsimp only
  split
  · exact State.downFails_memWf h' _ _ _
  split
  · split
    · exact State.breakGroup_memWf (State.unkeep_memWf h' _) _ _ _
    · exact State.unkeep_memWf h' _
  split
  · exact State.breakGroup_memWf (State.unkeep_memWf h' _) _ _ _
  · exact hg _ _ _ (State.unkeep_memWf h' _)

@[simp] theorem State.readInPlace_memWf {s : State} (h : s.memWf) (d : Desc) (word : Nat) :
    (s.readInPlace d word).state.memWf := by
  unfold State.readInPlace
  refine answer_foldl (fun a x ha => ?_) _ (a := ⟨s, [], false⟩) h
  split
  · exact State.quiet_memWf ha _ _
  · exact State.loadAt_memWf ha _ _ _

@[simp] theorem State.sendData_memWf {s : State} (h : s.memWf) (n : Nat) (x2 : Group) (c : Coll) (d : Desc) : (State.sendData s n x2 c d).memWf := by
  unfold State.sendData
  repeat' first
    | assumption
    | with_reducible apply State.modColl_memWf
    | with_reducible apply State.readInPlace_memWf
    | with_reducible apply State.failDesc_memWf
    | with_reducible apply State.endColl_memWf
    | with_reducible apply State.sendUp_memWf
    | with_reducible apply memWf_foldl
    | (intro _ _ _)
    | split
    | dsimp only

theorem execDataRoundStart_memWf {s : State} (h : s.memWf) (stack : Nat) (group : BitVec 16) : ResWf (execDataRoundStart stack group s) := by
  unfold execDataRoundStart
  repeat' split
  all_goals simp (maxDischargeDepth := 99) [h]

@[simp] theorem State.writePart_memWf {s : State} (h : s.memWf) (d : Desc) (word from_ : Nat) (bs : List Byte) :
    (s.writePart d word from_ bs).memWf :=
  memWf_foldl_fst (fun _ _ hp => State.writeSeg_memWf hp _ _ _ _) _ h

@[simp] theorem State.writeChunk_memWf {s : State} (h : s.memWf) (d : Desc) (f : Frame) : (State.writeChunk s d f).memWf := by simp (maxDischargeDepth := 99) [State.writeChunk, h]

@[simp] theorem State.takeChunk_memWf {s : State} (h : s.memWf) (n : Nat) (g : BitVec 16) (x3 : Nat) (f : Frame) : (State.takeChunk s n g x3 f).memWf := by
  unfold State.takeChunk
  dsimp only
  repeat' split
  all_goals simp (maxDischargeDepth := 99) [h]

theorem execChunkFrame_memWf {s : State} (h : s.memWf) (stack : Nat) (frame : Frame) : ResWf (execChunkFrame stack frame s) := by
  unfold execChunkFrame
  repeat' first
    | assumption
    | with_reducible refine (ResWf_next _).2 ?_
    | with_reducible apply State.takeChunk_memWf
    | with_reducible apply onDown_memWf
    | with_reducible apply State.modColl_memWf
    | with_reducible apply State.phase_memWf
    | split
    | dsimp only
    | (intro _ _)
  all_goals first
    | assumption
    | (simp (maxDischargeDepth := 99) [*])

@[simp] theorem State.completeColl_memWf {s : State} (h : s.memWf) (h0 : Nat) : (State.completeColl s h0).memWf := by
  unfold State.completeColl
  repeat' first
    | assumption
    | with_reducible apply State.moveDesc_memWf

@[simp] theorem State.awaitBeat_memWf {s : State} (h : s.memWf) (d : Desc) : (State.awaitBeat s d).memWf := by simp (maxDischargeDepth := 99) [State.awaitBeat, h]

theorem execHeaderResult_memWf {s : State} (h : s.memWf) (stack : Nat) (frame : Frame) : ResWf (execHeaderResult stack frame s) := by
  unfold execHeaderResult
  refine onDown_memWf h _ _ _ ?_
  intro t x c ht
  dsimp only
  have h1 : (if chunkFailed frame then t.recordFailed stack x.id frame else t).memWf :=
    memWf_ite (State.recordFailed_memWf ht _ _ _) ht
  generalize (if chunkFailed frame then t.recordFailed stack x.id frame else t) = u at *
  split
  · exact h1
  split
  · exact h1
  split
  · exact State.modColl_memWf h1 _ _ _
  split
  · exact State.completeColl_memWf (State.modColl_memWf h1 _ _ _) _
  · exact memWf_foldl (fun _ _ hu => State.takeChunk_memWf hu _ _ _ _) _ (State.awaitBeat_memWf (State.modColl_memWf h1 _ _ _) _)

theorem execTallySend_memWf {s : State} (h : s.memWf) (stack : Nat) (group : BitVec 16) : ResWf (execTallySend stack group s) := by
  unfold execTallySend
  refine ResWf_onStack _ ?_
  split
  · exact ResWf_whenOk _ h (memWf_foldl (fun _ _ ht => State.sendUp_memWf ht _ _ _) _ (State.modColl_memWf h _ _ _))
  · exact (ResWf_next _).2 h

@[simp] theorem State.setLaggard_memWf {s : State} (h : s.memWf) (n : Nat) (x2 : Group) (c : Coll) : (State.setLaggard s n x2 c).memWf := by simp (maxDischargeDepth := 99) [State.setLaggard, h]

@[simp] theorem State.finishColl_memWf {s : State} (h : s.memWf) (x1 : Group) (c : Coll) : (State.finishColl s x1 c).memWf := by simp (maxDischargeDepth := 99) [State.finishColl, h]

theorem execTallyResult_memWf {s : State} (h : s.memWf) (stack : Nat) (frame : Frame) : ResWf (execTallyResult stack frame s) := by
  unfold execTallyResult
  repeat' first
    | assumption
    | with_reducible refine (ResWf_next _).2 ?_
    | with_reducible apply State.finishColl_memWf
    | with_reducible apply State.setLaggard_memWf
    | with_reducible apply onDown_memWf
    | with_reducible apply State.recordFailed_memWf
    | with_reducible apply State.endColl_memWf
    | with_reducible apply State.modColl_memWf
    | with_reducible apply State.phase_memWf
    | split
    | dsimp only
    | (intro _ _)
  all_goals first
    | assumption
    | (simp (maxDischargeDepth := 99) [*])

@[simp] theorem State.wrCollCfg_memWf {s : State} (h : s.memWf) (n : Nat) (v : Word) (live : Word) : (State.wrCollCfg n v live s).memWf := by simp (maxDischargeDepth := 99) [State.wrCollCfg, h]

@[simp] theorem State.timeoutBeats_memWf {s : State} (h : s.memWf) (detail : Nat) : (s.timeoutBeats detail).memWf := by
  refine memWf_foldl (fun u n hu => memWf_foldl (fun v c hv => ?_) _ hu) _
    (memWf_foldl (fun u n hu => memWf_foldl (fun v x hv => ?_) _ hu) _ (State.timeoutScheduled_memWf h _))
  · split
    · split
      · exact State.failDesc_memWf (State.endColl_memWf hv _ _) _ _ _
      · exact hv
    · exact hv
  · split
    · exact State.spanRelease_memWf (State.spanFails_memWf hv _ _ _) _ _
    · exact hv

end Sys2Proof.Machine
end

