-- ==== Sys2Proof/Laws/MemModule.lean ====
section
/-! SUPPORT. Every operation and meaning of the start-up, power, beat, port, security, recovery and register access commands keeps the canonical
form of the memories (`State.memWf`): one lemma each, named `<definition>_memWf`. -/
namespace Sys2Proof.Machine

/-! #### Defects.lean -/

@[simp] theorem State.holdUnlisted_memWf {s : State} (h : s.memWf) (e : Word) : (State.holdUnlisted s e).memWf := by
  unfold State.holdUnlisted
  repeat' first
    | assumption
    | with_reducible apply State.notice_memWf

@[simp] theorem State.countNew_memWf {s : State} (h : s.memWf)  : (State.countNew s).memWf := by simp (maxDischargeDepth := 99) [State.countNew, h]

@[simp] theorem State.addEntry_memWf {s : State} (h : s.memWf) (e : Word) : (State.addEntry s e).memWf := by
  unfold State.addEntry
  repeat' first
    | assumption
    | with_reducible apply State.holdUnlisted_memWf
    | split

theorem execDefectEntryWritten_memWf {s : State} (h : s.memWf)  : ResWf (execDefectEntryWritten s) := by
  unfold execDefectEntryWritten
  repeat' first
    | assumption
    | with_reducible refine (ResWf_next _).2 ?_
    | split

@[simp] theorem State.endDescs_memWf {s : State} (h : s.memWf) (n : Nat) : (State.endDescs s n).memWf := by
  unfold State.endDescs
  repeat' first
    | assumption
    | with_reducible apply State.releaseDesc_memWf
    | with_reducible apply State.phase_memWf
    | with_reducible apply State.finishDesc_memWf
    | with_reducible apply memWf_foldl
    | with_reducible apply memWf_foldl_fst
    | (intro _ _ _)
    | split
    | dsimp only

@[simp] theorem State.failStack_memWf {s : State} (h : s.memWf) (n : Nat) : (State.failStack s n).memWf := by
  unfold State.failStack
  dsimp only
  refine State.modStack_memWf_same (State.setFld_memWf ?_ _ _ _) _ (fun k => by simp)
  exact State.cycleStack_memWf (State.endDescs_memWf
    (memWf_foldl (fun _ _ hu => State.tearJob_memWf hu _ _ _) _ h) _) _

@[simp] theorem State.tellUnit_memWf {s : State} (h : s.memWf) (stack : Nat) (e : Word) : (State.tellUnit s stack e).memWf := by simp (maxDischargeDepth := 99) [State.tellUnit, h]

@[simp] theorem State.benchLost_memWf {s : State} (h : s.memWf) (n : Nat) (phys : Nat) : (State.benchLost s n phys).memWf := by
  unfold State.benchLost
  repeat' split
  all_goals simp (maxDischargeDepth := 99) [h]

@[simp] theorem State.engineLost_memWf {s : State} (h : s.memWf) (n : Nat) (engine : Nat) : (State.engineLost s n engine).memWf := by
  unfold State.engineLost
  repeat' first
    | assumption
    | with_reducible apply State.moveDesc_memWf
    | with_reducible apply State.leaveFaultsDesc_memWf
    | with_reducible apply State.failDesc_memWf
    | with_reducible apply memWf_foldl
    | with_reducible apply memWf_foldl_fst
    | (intro _ _ _)
    | split
    | dsimp only

@[simp] theorem State.combinerLost_memWf {s : State} (h : s.memWf) (i : Nat) : (State.combinerLost s i).memWf := by
  unfold State.combinerLost
  repeat' first
    | assumption
    | with_reducible apply State.clearTrestle_memWf
    | with_reducible apply memWf_foldl
    | with_reducible apply memWf_foldl_fst
    | (intro _ _ _)
    | split
    | dsimp only

@[simp] theorem State.unitLost_memWf {s : State} (h : s.memWf) (u : UnitId) : (State.unitLost s u).memWf := by simp (maxDischargeDepth := 99) [State.unitLost, h]

@[simp] theorem State.declareFailed_memWf {s : State} (h : s.memWf) (u : UnitId) : (State.declareFailed s u).memWf := by simp (maxDischargeDepth := 99) [State.declareFailed, h]

theorem execUnitFailure_memWf {s : State} (h : s.memWf) (unit : UnitId) : ResWf (execUnitFailure unit s) := by simp (maxDischargeDepth := 99) [execUnitFailure, h]

theorem execSwitchFail_memWf {s : State} (h : s.memWf)  : ResWf (execSwitchFail s) := by
  unfold execSwitchFail
  repeat' first
    | assumption
    | with_reducible apply ResWf_whenOk
    | with_reducible apply State.notify_memWf
    | with_reducible apply State.notice_memWf

theorem execRowRepair_memWf {s : State} (h : s.memWf) (row : RowId) : ResWf (execRowRepair row s) := by simp (maxDischargeDepth := 99) [execRowRepair, h]

@[simp] theorem State.rowError_memWf {s : State} (h : s.memWf) (r : RowId) (lines : List Nat) (kind : Nat) : (State.rowError s r lines kind).memWf := by
  unfold State.rowError
  dsimp only
  repeat' split
  all_goals simp (maxDischargeDepth := 99) [h]

theorem Stack.writeBacks_memWf (l : List Nat) (far blank : Bool) (bad : List Nat) {k : Stack} (h : k.memWf = true) :
    (l.foldl (fun (x : Stack) i => x.writeBack far blank bad i) k).memWf = true := by
  induction l generalizing k with
  | nil => exact h
  | cons x t ih => exact ih (Stack.writeBack_memWf h _ _ _ _)

@[simp] theorem State.endRepair_memWf {s : State} (h : s.memWf) (row : RowId) (lines bad : List Nat) :
    (State.endRepair s row lines bad).memWf :=
  State.addEntry_memWf (State.rowError_memWf (State.satFld_memWf
    (State.modStack_memWf h _ (fun _ hk => Stack.writeBacks_memWf _ _ _ _ (by exact hk))) _ _ _) _ _ _) _

@[simp] theorem State.wrMemCfg_memWf {s : State} (h : s.memWf) (n : Nat) (v : Word) (live : Word) : (State.wrMemCfg n v live s).memWf := by
  unfold State.wrMemCfg
  repeat' first
    | assumption
    | with_reducible apply State.plainWrite_memWf
    | with_reducible apply State.rowReached_memWf
    | with_reducible apply memWf_foldl
    | with_reducible apply memWf_foldl_fst
    | (intro _ _ _)
    | split
    | dsimp only

theorem execRowRepairDone_memWf {s : State} (h : s.memWf) (row : RowId) (lines : List Nat) (bad : List Nat) : ResWf (execRowRepairDone row lines bad s) :=
  inOrder_memWf (ResWf_onStack _ (ResWf_whenOk _ h (State.debugResume_memWf (State.coreResume_memWf (State.pumpAll_memWf
    (State.writeFound_memWf (State.retrySegs_memWf (State.endRepair_memWf h _ _ _) _) _ _) _) _) _)))

@[simp] theorem State.patrolPass_memWf {s : State} (h : s.memWf) (n : Nat) : (State.patrolPass s n).memWf := by simp (maxDischargeDepth := 99) [State.patrolPass, h]

theorem execPatrolScrub_memWf {s : State} (h : s.memWf) (stack : Nat) (far : Bool) (line wrong : Nat) : ResWf (execPatrolScrub stack far line wrong s) := by simp (maxDischargeDepth := 99) [execPatrolScrub, h]

theorem execZeroScrubDone_memWf {s : State} (h : s.memWf) (stack : Nat) : ResWf (execZeroScrubDone stack s) := by
  unfold execZeroScrubDone
  repeat' first
    | assumption
    | with_reducible apply ResWf_onStack
    | with_reducible apply ResWf_whenOk
    | with_reducible apply State.setBit_memWf
    | with_reducible refine State.modStack_memWf ?_ _ ?_
    | with_reducible apply Stack.blankTiers_memWf

/-! #### Power.lean -/

@[simp] theorem State.powerViolation_memWf {s : State} (h : s.memWf) (seen : Field) (code : Nat) : (State.powerViolation s seen code).memWf := by simp (maxDischargeDepth := 99) [State.powerViolation, h]

@[simp] theorem State.relimit_memWf {s : State} (h : s.memWf) (exempt : Bool) : (State.relimit s exempt).memWf := by
  unfold State.relimit
  repeat' first
    | assumption
    | with_reducible apply State.powerViolation_memWf
    | with_reducible apply State.noteThrottle_memWf
    | with_reducible apply State.setFld_memWf
    | split
    | dsimp only

@[simp] theorem State.powerOff_memWf {s : State} (h : s.memWf) (lastOff : Nat) : (s.powerOff lastOff).memWf :=
  ⟨h.1, fun _ => rfl⟩

@[simp] theorem State.pulse_memWf {s : State} (h : s.memWf) (us : Nat) (glitch : Nat) (least : Nat) : (State.pulse s us glitch least).2.memWf := by
  unfold State.pulse
  dsimp only
  repeat' split
  all_goals simp (maxDischargeDepth := 99) [h]

theorem execEpo_memWf {s : State} (h : s.memWf) (us : Nat) : ResWf (execEpo us s) := by
  unfold execEpo
  repeat' first
    | assumption
    | with_reducible refine (ResWf_next _).2 ?_
    | with_reducible apply State.pulse_memWf
    | with_reducible apply State.powerOff_memWf
    | split
    | simp only [State.memWf_mk, memsWf_fold]

theorem execEpoRelease_memWf {s : State} (h : s.memWf)  : ResWf (execEpoRelease s) := by
  unfold execEpoRelease
  dsimp only
  repeat' split
  all_goals simp (maxDischargeDepth := 99) [h]

theorem execUndervoltageReset_memWf {s : State} (h : s.memWf) (volts : Nat) (us : Nat) : ResWf (execUndervoltageReset volts us s) := by
  unfold execUndervoltageReset
  repeat' first
    | assumption
    | with_reducible apply ResWf_whenOk
    | with_reducible apply State.powerOff_memWf

theorem execThermalTrip_memWf {s : State} (h : s.memWf) (celsius : Nat) : ResWf (execThermalTrip celsius s) := by
  unfold execThermalTrip
  repeat' first
    | assumption
    | with_reducible apply ResWf_whenOk
    | with_reducible apply State.powerOff_memWf

@[simp] theorem State.powerEvent_memWf {s : State} (h : s.memWf) (code : Nat) : (State.powerEvent s code).memWf := by simp (maxDischargeDepth := 99) [State.powerEvent, h]

theorem execShedAssert_memWf {s : State} (h : s.memWf) (us : Nat) : ResWf (execShedAssert us s) := by
  unfold execShedAssert
  repeat' first
    | assumption
    | with_reducible refine (ResWf_next _).2 ?_
    | with_reducible apply State.pulse_memWf
    | with_reducible apply State.powerEvent_memWf
    | with_reducible apply State.relimit_memWf
    | with_reducible apply State.setBit_memWf
    | split
    | simp only [State.memWf_mk, memsWf_fold]

theorem execShedRelease_memWf {s : State} (h : s.memWf)  : ResWf (execShedRelease s) := by
  unfold execShedRelease
  repeat' first
    | assumption
    | with_reducible refine (ResWf_next _).2 ?_
    | with_reducible apply State.powerEvent_memWf
    | split

theorem execSagSet_memWf {s : State} (h : s.memWf) (volts : Nat) (us : Nat) : ResWf (execSagSet volts us s) := by simp (maxDischargeDepth := 99) [execSagSet, h]

theorem execSagClear_memWf {s : State} (h : s.memWf) (volts : Nat) (us : Nat) : ResWf (execSagClear volts us s) := by simp (maxDischargeDepth := 99) [execSagClear, h]

@[simp] theorem State.applyHeld_memWf {s : State} (h : s.memWf) (h0 : Held) : (State.applyHeld s h0).memWf := by
  unfold State.applyHeld
  repeat' first
    | assumption
    | with_reducible apply State.relimit_memWf
    | with_reducible apply State.powerEvent_memWf
    | split

@[simp] theorem State.dropHeld_memWf {s : State} (h : s.memWf) (order : Nat) : (State.dropHeld s order).memWf := by simp (maxDischargeDepth := 99) [State.dropHeld, h]

@[simp] theorem State.releaseHeld_memWf {s : State} (h : s.memWf) (h0 : Held) : (State.releaseHeld s h0).memWf := by simp (maxDischargeDepth := 99) [State.releaseHeld, h]

@[simp] theorem State.govern_memWf (fuel : Nat) {s : State} (h : s.memWf) : (State.govern fuel s).memWf := by
  induction fuel generalizing s with
  | zero => exact h
  | succ fuel ih =>
    unfold State.govern
    split
    · split
      · exact ih (State.applyHeld_memWf (State.dropHeld_memWf h _) _)
      · exact h
    · split
      · exact ih (State.releaseHeld_memWf h _)
      · exact h

@[simp] theorem State.governAll_memWf {s : State} (h : s.memWf)  : (State.governAll s).memWf := by
  unfold State.governAll
  repeat' first
    | assumption
    | with_reducible apply State.govern_memWf

@[simp] theorem State.takeHeld_memWf {s : State} (h : s.memWf) (order : Nat) (isCap : Bool) : (State.takeHeld s order isCap).memWf := by
  unfold State.takeHeld
  repeat' split
  all_goals simp (maxDischargeDepth := 99) [h]

theorem execCapTakesEffect_memWf {s : State} (h : s.memWf) (order : Nat) : ResWf (execCapTakesEffect order s) := by simp (maxDischargeDepth := 99) [execCapTakesEffect, h]

theorem execRampTakesEffect_memWf {s : State} (h : s.memWf) (order : Nat) : ResWf (execRampTakesEffect order s) := by simp (maxDischargeDepth := 99) [execRampTakesEffect, h]

@[simp] theorem State.i3cEnd_memWf {s : State} (h : s.memWf) (code : Nat) (result : Nat) : (State.i3cEnd s code result).memWf := by simp (maxDischargeDepth := 99) [State.i3cEnd, h]

theorem State.i3cWrite_memWf {s : State} {dest : BitVec 7} {code len : Nat} {body : List Byte}
    {parityErr outOfRange : Bool} {f : State → State} (h : s.memWf) (hf : ∀ t : State, t.memWf → (f t).memWf) :
    (s.i3cWrite dest code len body parityErr outOfRange f).memWf := by
  have h' := State.emit_memWf h .i3cAck
  unfold State.i3cWrite
  dsimp only
  split
  · exact State.emit_memWf h _
  · split
    · exact hf _ (State.i3cEnd_memWf h' _ _)
    · exact State.i3cEnd_memWf h' _ _
    · exact State.i3cEnd_memWf (State.takeFree_memWf h') _ _

@[simp] theorem State.refreshLease_memWf {s : State} (h : s.memWf)  : (State.refreshLease s).memWf := by
  unfold State.refreshLease
  repeat' first
    | assumption

@[simp] theorem State.hold_memWf {s : State} (h : s.memWf) (isCap : Bool) (value : Nat) (beat : BitVec 48) : (State.hold s isCap value beat).memWf := by
  unfold State.hold
  repeat' first
    | assumption
    | with_reducible apply State.governAll_memWf
    | with_reducible apply State.releaseHeld_memWf
    | split
    | dsimp only

@[simp] theorem State.holdBody_memWf {s : State} (h : s.memWf) (isCap : Bool) (body : List Byte) : (State.holdBody s isCap body).memWf := by simp (maxDischargeDepth := 99) [State.holdBody, h]

theorem execCapAt_memWf {s : State} (h : s.memWf) (msg : I3cWrite) (parityErr : Bool) : ResWf (execCapAt msg parityErr s) := by
  unfold execCapAt
  repeat' first
    | assumption
    | with_reducible refine (ResWf_next _).2 ?_
    | with_reducible apply ResWf_ite
    | with_reducible apply State.holdBody_memWf
    | with_reducible apply State.i3cWrite_memWf
    | split
    | dsimp only
    | (intro _ _)
  all_goals first
    | assumption
    | (simp (maxDischargeDepth := 99) [*])

theorem execRampAt_memWf {s : State} (h : s.memWf) (msg : I3cWrite) (parityErr : Bool) : ResWf (execRampAt msg parityErr s) := by
  unfold execRampAt
  repeat' first
    | assumption
    | with_reducible refine (ResWf_next _).2 ?_
    | with_reducible apply ResWf_ite
    | with_reducible apply State.holdBody_memWf
    | with_reducible apply State.i3cWrite_memWf
    | split
    | dsimp only
    | (intro _ _)
  all_goals first
    | assumption
    | (simp (maxDischargeDepth := 99) [*])

theorem execLease_memWf {s : State} (h : s.memWf) (msg : I3cWrite) (parityErr : Bool) : ResWf (execLease msg parityErr s) := by
  unfold execLease
  repeat' first
    | assumption
    | with_reducible refine (ResWf_next _).2 ?_
    | with_reducible apply ResWf_ite
    | with_reducible apply State.refreshLease_memWf
    | with_reducible apply State.i3cWrite_memWf
    | split
    | dsimp only

theorem execLeaseLapse_memWf {s : State} (h : s.memWf)  : ResWf (execLeaseLapse s) := by
  unfold execLeaseLapse
  repeat' first
    | assumption
    | with_reducible apply ResWf_whenOk
    | with_reducible apply State.relimit_memWf

theorem execUnknownSidebandMessage_memWf {s : State} (h : s.memWf) (code : Byte) (msg : I3cWrite) (parityErr : Bool) : ResWf (execUnknownSidebandMessage code msg parityErr s) := by simp (maxDischargeDepth := 99) [execUnknownSidebandMessage, h]

theorem execStatusRead_memWf {s : State} (h : s.memWf) : ResWf (execStatusRead s) := by simp (maxDischargeDepth := 99) [execStatusRead, h]

theorem execI3cCcc_memWf {s : State} (h : s.memWf) (ccc : I3cCcc) : ResWf (execI3cCcc ccc s) := by
  unfold execI3cCcc
  repeat' first
    | assumption
    | with_reducible refine (ResWf_next _).2 ?_
    | split

@[simp] theorem State.thermal_memWf {s : State} (h : s.memWf) (temps : List Nat) : (State.thermal s temps).memWf := by
  unfold State.thermal
  repeat' first
    | assumption
    | with_reducible apply State.setBit_memWf
    | with_reducible apply memWf_foldl
    | (intro _ _ _)
    | split
    | simp only [State.memWf_mk, memsWf_fold]

@[simp] theorem State.capSteps_memWf {s : State} (h : s.memWf) (demand : Nat) (upper : Nat) (stepMw : List Nat) : (State.capSteps s demand upper stepMw).memWf := by
  unfold State.capSteps
  repeat' first
    | assumption
    | with_reducible apply State.setBit_memWf
    | with_reducible apply State.setFld_memWf
    | with_reducible apply memWf_foldl
    | with_reducible apply memWf_foldl_fst
    | (intro _ _ _)
    | split
    | dsimp only

@[simp] theorem State.runBallast_memWf {s : State} (h : s.memWf) (demand : Nat) (lower : Nat) (upper : Nat) (benches : List BallastBench) : (State.runBallast s demand lower upper benches).memWf := by
  unfold State.runBallast
  repeat' first
    | assumption
    | with_reducible apply State.powerViolation_memWf
    | with_reducible apply State.setBit_memWf
    | with_reducible refine State.modStack_memWf ?_ _ ?_
    | with_reducible apply memWf_foldl
    | with_reducible apply memWf_foldl_fst
    | (intro _ _ _)
    | split
    | dsimp only
    | (intro _ _)
  all_goals first
    | assumption
    | (simp (maxDischargeDepth := 99) [*])

theorem execPowerEvaluation_memWf {s : State} (h : s.memWf) (powerMw : Nat) (demandMw : Nat) (ballast : List BallastBench) (input : Nat) (temps : List Nat) (stepMw : List Nat) : ResWf (execPowerEvaluation powerMw demandMw ballast input temps stepMw s) := by
  unfold execPowerEvaluation
  repeat' first
    | assumption
    | with_reducible refine (ResWf_next _).2 ?_
    | with_reducible apply ResWf_whenOk
    | with_reducible apply State.runBallast_memWf
    | with_reducible apply State.capSteps_memWf
    | with_reducible apply State.thermal_memWf
    | with_reducible apply State.noteThrottle_memWf
    | with_reducible apply State.setFld_memWf
    | split
    | dsimp only

/-! #### Startup.lean -/

@[simp] theorem State.toStep_memWf {s : State} (h : s.memWf) (k : Nat) : (State.toStep s k).memWf := by simp (maxDischargeDepth := 99) [State.toStep, h]

@[simp] theorem State.setCause_memWf {s : State} (h : s.memWf) (c : Nat) : (State.setCause s c).memWf := by simp (maxDischargeDepth := 99) [State.setCause, h]

@[simp] theorem State.halt_memWf {s : State} (h : s.memWf) (c : Nat) : (State.halt s c).memWf := by simp (maxDischargeDepth := 99) [State.halt, h]

theorem execPowerGood_memWf {s : State} (h : s.memWf) (volts : Nat) (ms : Nat) (tray : BitVec 5) (slot : BitVec 3) : ResWf (execPowerGood volts ms tray slot s) := by
  unfold execPowerGood
  repeat' first
    | assumption
    | with_reducible apply ResWf_whenOk
    | split

@[simp] theorem State.unpromised_memWf {s : State} (h : s.memWf)  : (State.unpromised s).memWf := by simp (maxDischargeDepth := 99) [State.unpromised, h]

@[simp] theorem State.openBar_memWf {s : State} (h : s.memWf) (descriptorOk : Bool) : (State.openBar s descriptorOk).memWf := by
  unfold State.openBar
  repeat' first
    | assumption

@[simp] theorem State.startFirmware_memWf {s : State} (h : s.memWf) (digest : List Byte) : (State.startFirmware s digest).memWf := by
  unfold State.startFirmware
  repeat' first
    | assumption

@[simp] theorem State.checkImageInFlash_memWf {s : State} (h : s.memWf) (firmwareOk : Bool) (fwDigest : List Byte) : (State.checkImageInFlash s firmwareOk fwDigest).memWf := by simp (maxDischargeDepth := 99) [State.checkImageInFlash, h]

theorem execKeeperBoot_memWf {s : State} (h : s.memWf) (keysOk : Bool) (descriptorOk : Bool) (firmwareOk : Bool) (fwDigest : List Byte) : ResWf (execKeeperBoot keysOk descriptorOk firmwareOk fwDigest s) := by simp (maxDischargeDepth := 99) [execKeeperBoot, h]

@[simp] theorem State.wrRecovery_memWf {s : State} (h : s.memWf) (v : Word) (live : Word) : (State.wrRecovery v live s).memWf := by
  unfold State.wrRecovery
  dsimp only
  repeat' split
  all_goals simp (maxDischargeDepth := 99) [h]

theorem execCapRecoveryGo_memWf {s : State} (h : s.memWf) (who : Requester) (value : Word) : ResWf (execCapRecoveryGo who value s) := by
  unfold execCapRecoveryGo
  repeat' first
    | assumption
    | with_reducible refine (ResWf_next _).2 ?_
    | with_reducible apply ResWf_ite
    | with_reducible apply State.onWord_memWf
    | with_reducible apply State.onWrite_memWf
    | with_reducible apply State.wrRecovery_memWf
    | with_reducible apply State.onWord_memWf
    | split
    | dsimp only

@[simp] theorem State.writeFlash_memWf {s : State} (h : s.memWf) (image : List Byte) (ok : Bool) : (State.writeFlash s image ok).memWf := by simp (maxDischargeDepth := 99) [State.writeFlash, h]

theorem execRecoveryImageCheck_memWf {s : State} (h : s.memWf) (size : Nat) (signatureOk : Bool) (_flashOk : Bool) : ResWf (execRecoveryImageCheck size signatureOk _flashOk s) := by
  unfold execRecoveryImageCheck
  repeat' first
    | assumption
    | with_reducible apply ResWf_whenOk
    | split

theorem execStacksOutOfReset_memWf {s : State} (h : s.memWf)  : ResWf (execStacksOutOfReset s) := by
  unfold execStacksOutOfReset
  repeat' first
    | assumption
    | with_reducible apply ResWf_whenOk
    | with_reducible apply State.toStep_memWf
    | with_reducible apply State.modStack_memWf_same
    | with_reducible apply memWf_foldl
    | (intro _ _ _)
    | simp (maxDischargeDepth := 99) [h]

theorem execKnownAnswerTestsDone_memWf {s : State} (h : s.memWf) (failed : List UnitId) (switchFailed : Bool) : ResWf (execKnownAnswerTestsDone failed switchFailed s) := by
  unfold execKnownAnswerTestsDone
  repeat' first
    | assumption
    | with_reducible apply ResWf_whenOk
    | with_reducible apply State.halt_memWf
    | with_reducible apply State.toStep_memWf
    | with_reducible refine State.modStack_memWf ?_ _ ?_
    | with_reducible apply Stack.zeroed_memWf
    | with_reducible apply memWf_foldl
    | split
    | simp only [State.memWf_mk, memsWf_fold]
    | (intro _ _ _)

@[simp] theorem State.setBypasses_memWf {s : State} (h : s.memWf) (n : Nat) : (s.setBypasses n).memWf := by
  unfold State.setBypasses
  exact memWf_foldl (fun _ _ ht => State.setFld_memWf ht _ _ _) _ h

@[simp] theorem State.failEarly_memWf {s : State} (h : s.memWf) (n : Nat) (e : Option Word) : (State.failEarly s n e).memWf := by
  unfold State.failEarly
  dsimp only
  repeat' split
  all_goals simp (maxDischargeDepth := 99) [h]

@[simp] theorem State.failBroken_memWf {s : State} (h : s.memWf)  : (State.failBroken s).memWf := by
  unfold State.failBroken
  repeat' first
    | assumption
    | with_reducible apply State.failEarly_memWf
    | with_reducible apply memWf_foldl
    | (intro _ _ _)
    | split

@[simp] theorem State.useCopy_memWf {s : State} (h : s.memWf) (copyA : Bool) : (State.useCopy s copyA).memWf := by simp (maxDischargeDepth := 99) [State.useCopy, h]

theorem execDefectMergeDone_memWf {s : State} (h : s.memWf) (copyA : Bool) (copyB : Bool) : ResWf (execDefectMergeDone copyA copyB s) := by
  unfold execDefectMergeDone
  dsimp only
  have h1 := memWf_foldl (f := fun t u => t.addEntry (unitEntry u causeKat s.boot.startCount))
    (fun _ _ ht => State.addEntry_memWf ht _) (sortUnits s.boot.katFailed) (State.useCopy_memWf h copyA)
  refine ResWf_whenOk _ h (memWf_ite (State.halt_memWf h _) (State.toStep_memWf (State.failBroken_memWf ?_) _))
  exact memWf_foldl (fun _ _ ht => State.setBypasses_memWf ht _) _ h1

@[simp] theorem State.noRepair_memWf {s : State} (h : s.memWf) (e : Word) : (State.noRepair s e).memWf := by simp (maxDischargeDepth := 99) [State.noRepair, h]

@[simp] theorem State.hardRepair_memWf {s : State} (h : s.memWf) (i : Nat) : (State.hardRepair s i).memWf := by
  unfold State.hardRepair
  dsimp only
  repeat' split
  all_goals simp (maxDischargeDepth := 99) [h]

@[simp] theorem State.hardRepairs_memWf {s : State} (h : s.memWf)  : (State.hardRepairs s).memWf := by
  unfold State.hardRepairs
  repeat' first
    | assumption
    | with_reducible apply State.hardRepair_memWf
    | with_reducible apply memWf_foldl
    | (intro _ _ _)

@[simp] theorem State.takeTier_memWf {s : State} (h : s.memWf) (r : TierResult) : (State.takeTier s r).memWf := by
  unfold State.takeTier
  repeat' first
    | assumption
    | with_reducible apply State.addEntry_memWf
    | with_reducible apply memWf_foldl
    | (intro _ _ _)
    | split
    | dsimp only

@[simp] theorem State.beginPorts_memWf {s : State} (h : s.memWf) : (State.beginPorts s).memWf := by
  unfold State.beginPorts
  repeat' first
    | assumption
    | with_reducible apply State.setCause_memWf
    | split
    | dsimp only

@[simp] theorem State.takeRack_memWf {s : State} (h : s.memWf) (rack : Nat) : (State.takeRack s rack).memWf := by simp (maxDischargeDepth := 99) [State.takeRack, h]

theorem execRackSet_memWf {s : State} (h : s.memWf) (msg : I3cWrite) (parityErr : Bool) : ResWf (execRackSet msg parityErr s) := by
  unfold execRackSet
  repeat' first
    | assumption
    | with_reducible refine (ResWf_next _).2 ?_
    | with_reducible apply ResWf_ite
    | with_reducible apply State.takeRack_memWf
    | with_reducible apply State.i3cWrite_memWf
    | split
    | dsimp only
    | (intro _ _)
  all_goals first
    | assumption
    | (simp (maxDischargeDepth := 99) [*])

@[simp] theorem State.sayHeld_memWf {s : State} (h : s.memWf) : (State.sayHeld s).memWf :=
  memWf_foldl (fun _ _ ht => memWf_ite (State.setFld_memWf ht _ _ _) ht) _ h

@[simp] theorem State.enterStep7_memWf {s : State} (h : s.memWf)  : (State.enterStep7 s).memWf := by simp (maxDischargeDepth := 99) [State.enterStep7, h]

theorem execTierTrainingDone_memWf {s : State} (h : s.memWf) (results : List TierResult) : ResWf (execTierTrainingDone results s) := by
  unfold execTierTrainingDone
  repeat' first
    | assumption
    | with_reducible apply ResWf_whenOk
    | with_reducible apply State.hardRepairs_memWf
    | with_reducible apply State.takeTier_memWf
    | with_reducible apply State.failBroken_memWf
    | with_reducible apply State.failEarly_memWf
    | with_reducible apply State.enterStep7_memWf
    | with_reducible refine State.modStack_memWf ?_ _ ?_
    | with_reducible apply Stack.blankTiers_memWf
    | with_reducible apply memWf_foldl
    | split
    | (intro _ _ _)

@[simp] theorem State.enterStep8_memWf {s : State} (h : s.memWf)  : (State.enterStep8 s).memWf := by simp (maxDischargeDepth := 99) [State.enterStep8, h]

theorem execPortTrainingStepEnd_memWf {s : State} (h : s.memWf) (budget : Bool) : ResWf (execPortTrainingStepEnd budget s) := by simp (maxDischargeDepth := 99) [execPortTrainingStepEnd, h]

theorem execMeasurementsRecorded_memWf {s : State} (h : s.memWf)  : ResWf (execMeasurementsRecorded s) := by simp (maxDischargeDepth := 99) [execMeasurementsRecorded, h]

/-! #### Beat.lean -/

@[simp] theorem State.pass_memWf {s : State} (h : s.memWf) (dt : Nat) : (State.pass s dt).memWf := by simp (maxDischargeDepth := 99) [State.pass, h]

@[simp] theorem State.beatBit_memWf {s : State} (h : s.memWf) (f : Field) (v : Bool) : (State.beatBit s f v).memWf := by simp (maxDischargeDepth := 99) [State.beatBit, h]

theorem State.tellBeat_memWf {s : State} (h : s.memWf) (old : State) : (s.tellBeat old).memWf := by
  unfold State.tellBeat
  split
  · exact h
  · exact State.eventAll_memWf h _ _

@[simp] theorem State.beatNotice_memWf {s : State} (h : s.memWf) (port : Nat) (d : Int) : (State.beatNotice s port d).memWf := by simp (maxDischargeDepth := 99) [State.beatNotice, h]

@[simp] theorem State.dropLock_memWf {s : State} (h : s.memWf)  : (State.dropLock s).memWf := by simp (maxDischargeDepth := 99) [State.dropLock, h]

theorem State.beatEnd_memWf {s : State} (h : s.memWf) (old : State) : (s.beatEnd old).memWf := by
  have h' := State.tellBeat_memWf (State.dropLock_memWf h) old
  unfold State.beatEnd
  dsimp only
  split
  · exact State.governAll_memWf h'
  · exact h'

theorem execLockedSet_memWf {s : State} (h : s.memWf)  : ResWf (execLockedSet s) := by
  unfold execLockedSet
  repeat' first
    | assumption
    | with_reducible apply ResWf_whenOk
    | with_reducible apply State.tellBeat_memWf
    | with_reducible apply State.enterStep8_memWf
    | split

theorem execBeatSet_memWf {s : State} (h : s.memWf) (msg : I3cWrite) (parityErr : Bool) : ResWf (execBeatSet msg parityErr s) := by
  unfold execBeatSet
  repeat' first
    | assumption
    | with_reducible refine (ResWf_next _).2 ?_
    | with_reducible apply ResWf_ite
    | with_reducible apply State.i3cWrite_memWf
    | split
    | dsimp only
    | (intro _ _)
  all_goals first
    | assumption
    | (simp (maxDischargeDepth := 99) [*])

@[simp] theorem State.endLoss_memWf {s : State} (h : s.memWf)  : (State.endLoss s).memWf := by
  unfold State.endLoss
  repeat' first
    | assumption

@[simp] theorem State.loadBeat_memWf {s : State} (h : s.memWf) (hi : BitVec 28) (m : BitVec 8) : (State.loadBeat s hi m).memWf := by
  unfold State.loadBeat
  repeat' first
    | assumption
    | split

@[simp] theorem State.compareEdge_memWf {s : State} (h : s.memWf)  : (State.compareEdge s).memWf := by simp (maxDischargeDepth := 99) [State.compareEdge, h]

theorem execBeatEdge_memWf {s : State} (h : s.memWf) (dt : Nat) (high : Nat) : ResWf (execBeatEdge dt high s) := by
  unfold execBeatEdge
  repeat' first
    | assumption
    | with_reducible refine (ResWf_next _).2 ?_
    | with_reducible apply State.loadBeat_memWf
    | with_reducible apply State.beatEnd_memWf
    | split

theorem execBeatReturnCompare_memWf {s : State} (h : s.memWf)  : ResWf (execBeatReturnCompare s) := by
  unfold execBeatReturnCompare
  repeat' first
    | assumption
    | with_reducible apply ResWf_whenOk
    | with_reducible apply State.beatEnd_memWf
    | split

@[simp] theorem State.setLost_memWf {s : State} (h : s.memWf) (goodAt : Nat) (back : Nat) : (State.setLost s goodAt back).memWf := by
  unfold State.setLost
  repeat' first
    | assumption
    | with_reducible apply State.beatEnd_memWf
    | with_reducible apply State.beatNotice_memWf
    | with_reducible apply State.beatBit_memWf
    | with_reducible apply State.notify_memWf
    | split
    | dsimp only

theorem execBeatGapTimeout_memWf {s : State} (h : s.memWf) (dt : Nat) : ResWf (execBeatGapTimeout dt s) := by
  unfold execBeatGapTimeout
  repeat' first
    | assumption
    | with_reducible refine (ResWf_next _).2 ?_
    | with_reducible apply State.setLost_memWf
    | with_reducible apply State.beatEnd_memWf
    | with_reducible apply State.pass_memWf
    | with_reducible apply Trestle.pass_memWf
    | split
    | dsimp only

theorem execBeatFreqWindow_memWf {s : State} (h : s.memWf) : ResWf (execBeatFreqWindow s) := by
  unfold execBeatFreqWindow
  repeat' first
    | assumption
    | with_reducible refine (ResWf_next _).2 ?_
    | with_reducible apply ResWf_whenOk
    | with_reducible apply State.setLost_memWf
    | split
    | dsimp only

theorem execLostLimitExpire_memWf {s : State} (h : s.memWf) (dt : Nat) : ResWf (execLostLimitExpire dt s) := by
  refine (ResWf_next _).2 ?_
  have h' := State.pass_memWf h dt
  split
  · refine State.governAll_memWf (State.stopBeatWaits_memWf (State.timeoutBeats_memWf ?_ _))
    exact h'
  · exact h'

@[simp] theorem State.modLink_memWf {s : State} (h : s.memWf) (p : Nat) (f : LinkCheck → LinkCheck) : (State.modLink s p f).memWf := by simp (maxDischargeDepth := 99) [State.modLink, h]

theorem execBeatCheckSend_memWf {s : State} (h : s.memWf) (port : Nat) : ResWf (execBeatCheckSend port s) := by simp (maxDischargeDepth := 99) [execBeatCheckSend, h]

@[simp] theorem State.tally_memWf {s : State} (h : s.memWf) (checked : Bool) : (State.tally s checked).memWf := by
  have h' := State.beatBit_memWf (State.setFld_memWf h .BEAT_STATUS BEAT_STATUS_IN_RACK_MISMATCH
    (s.disagreeing (inRack s.variant)).length) BEAT_STATUS_POD_SKEW (!(s.disagreeing (isViaduct s.variant)).isEmpty)
  unfold State.tally
  dsimp only
  generalize (s.setFld .BEAT_STATUS BEAT_STATUS_IN_RACK_MISMATCH
    (s.disagreeing (inRack s.variant)).length).beatBit BEAT_STATUS_POD_SKEW (!(s.disagreeing (isViaduct s.variant)).isEmpty) = u at *
  have h2 : State.memWf { u with beat := { u.beat with reloaded := false } } := h'
  split
  · split
    · exact h'
    · have h3 := State.beatNotice_memWf (State.notify_memWf
        (State.beatBit_memWf (State.beatBit_memWf h2 BEAT_STATUS_MISMATCH true) BEAT_STATUS_MISMATCH_SEEN true) HOSTIF_NOTIFY_BEAT) noPortCode 0
      refine State.stopBeatWaits_memWf ?_
      refine State.timeoutBeats_memWf h3 3
  split
  · exact State.beatBit_memWf h' _ _
  · exact h'

@[simp] theorem State.takeCheck_memWf {s : State} (h : s.memWf) (p : Nat) (farBeat : BitVec 48) (farPhase : Nat) : (State.takeCheck s p farBeat farPhase).memWf := by simp (maxDischargeDepth := 99) [State.takeCheck, h]

theorem execBeatCheck_memWf {s : State} (h : s.memWf) (port : Nat) (farBeat : BitVec 48) (farPhase : Nat) : ResWf (execBeatCheck port farBeat farPhase s) := by
  unfold execBeatCheck
  repeat' first
    | assumption
    | with_reducible apply ResWf_onPort
    | with_reducible apply ResWf_whenOk
    | with_reducible apply State.beatEnd_memWf
    | with_reducible apply State.takeCheck_memWf

theorem execBeatCheckLapse_memWf {s : State} (h : s.memWf) (port : Nat) : ResWf (execBeatCheckLapse port s) := by
  unfold execBeatCheckLapse
  repeat' first
    | assumption
    | with_reducible apply ResWf_onPort
    | with_reducible apply ResWf_whenOk
    | with_reducible apply State.beatEnd_memWf
    | with_reducible apply State.tally_memWf

/-! #### Ports.lean -/

@[simp] theorem State.setReason_memWf {s : State} (h : s.memWf) (p : Nat) (r : Nat) : (State.setReason s p r).memWf := by simp (maxDischargeDepth := 99) [State.setReason, h]

@[simp] theorem State.setPortState_memWf {s : State} (h : s.memWf) (p : Nat) (st : Nat) : (State.setPortState s p st).memWf := by simp (maxDischargeDepth := 99) [State.setPortState, h]

@[simp] theorem State.beginAttempt_memWf {s : State} (h : s.memWf) (p : Nat) (st : Nat) : (State.beginAttempt s p st).memWf := by simp (maxDischargeDepth := 99) [State.beginAttempt, h]

@[simp] theorem State.countAttempt_memWf {s : State} (h : s.memWf) (p : Nat) : (State.countAttempt s p).memWf := by simp (maxDischargeDepth := 99) [State.countAttempt, h]

@[simp] theorem State.noWidth_memWf {s : State} (h : s.memWf) (p : Nat) : (State.noWidth s p).memWf := by simp (maxDischargeDepth := 99) [State.noWidth, h]

@[simp] theorem State.failAttempt_memWf {s : State} (h : s.memWf) (p : Nat) (reason : Nat) : (State.failAttempt s p reason).memWf := by simp (maxDischargeDepth := 99) [State.failAttempt, h]

@[simp] theorem State.requeue_memWf {s : State} (h : s.memWf) (p : Packet) : (State.requeue s p).memWf := by
  unfold State.requeue
  repeat' split
  all_goals simp (maxDischargeDepth := 99) [h]

@[simp] theorem State.rebind_memWf {s : State} (h : s.memWf) (key : Nat) (w : Waiting) : (State.rebind s key w).memWf := by
  unfold State.rebind
  dsimp only
  repeat' split
  all_goals simp (maxDischargeDepth := 99) [h]

@[simp] theorem State.moveQueued_memWf {s : State} (h : s.memWf) (p : Nat) : (State.moveQueued s p).memWf := by
  unfold State.moveQueued
  repeat' first
    | assumption
    | with_reducible apply State.requeue_memWf
    | with_reducible apply State.rebind_memWf
    | with_reducible apply memWf_foldl
    | (intro _ _ _)

@[simp] theorem State.breakSpans_memWf {s : State} (h : s.memWf) (p : Nat) : (State.breakSpans s p).memWf := by
  unfold State.breakSpans
  repeat' first
    | assumption
    | with_reducible apply memWf_foldl
    | (intro _ _ _)

@[simp] theorem State.dropPart_memWf {s : State} (h : s.memWf) (q : Nat) (k : Packet) : (State.dropPart s q k).memWf := by
  unfold State.dropPart
  dsimp only
  repeat' split
  all_goals simp (maxDischargeDepth := 99) [h]

@[simp] theorem State.dropPartFrame_memWf {s : State} (h : s.memWf) (f : Frame) : (State.dropPartFrame s f).memWf := by
  unfold State.dropPartFrame
  repeat' first
    | assumption
    | with_reducible apply State.unkeep_memWf
    | with_reducible apply State.freeCells_memWf
    | with_reducible apply State.modSw_memWf
    | with_reducible apply memWf_foldl
    | with_reducible apply memWf_foldl_fst
    | (intro _ _ _)
    | split
    | dsimp only

@[simp] theorem State.dropTail_memWf {s : State} (h : s.memWf) (q : Nat) : (State.dropTail s q).memWf := by
  unfold State.dropTail
  repeat' first
    | assumption
    | with_reducible apply State.dropPartFrame_memWf
    | with_reducible apply State.dropPart_memWf
    | with_reducible apply State.modPort_memWf
    | with_reducible apply memWf_foldl
    | with_reducible apply memWf_foldl_fst
    | (intro _ _ _)
    | split
    | dsimp only

@[simp] theorem State.loseFrames_memWf {s : State} (h : s.memWf) (p : Nat) : (State.loseFrames s p).memWf := by simp (maxDischargeDepth := 99) [State.loseFrames, h]

theorem State.endCheck_memWf {s : State} (h : s.memWf) (old : State) (p : Nat) : (s.endCheck old p).memWf := by
  have h' : State.memWf { s with beat := { s.beat with links := Tab.erase s.beat.links p } } := h
  unfold State.endCheck
  dsimp only
  split
  · exact State.beatEnd_memWf (State.tally_memWf h' _) _
  · exact h'

@[simp] theorem State.leaveUp_memWf {s : State} (h : s.memWf) (p : Nat) (st : Nat) (reason : Nat) : (State.leaveUp s p st reason).memWf := by
  unfold State.leaveUp
  repeat' first
    | assumption
    | with_reducible apply State.endCheck_memWf
    | with_reducible apply State.loseFrames_memWf
    | with_reducible apply State.dropTail_memWf
    | with_reducible apply State.breakSpans_memWf
    | with_reducible apply State.moveQueued_memWf
    | with_reducible apply State.noWidth_memWf
    | with_reducible apply State.beginAttempt_memWf
    | with_reducible apply State.setPortState_memWf
    | with_reducible apply State.setReason_memWf
    | with_reducible apply State.modPort_memWf
    | with_reducible apply State.satFld_memWf
    | split
    | dsimp only

@[simp] theorem State.portDown_memWf {s : State} (h : s.memWf) (p : Nat) (reason : Nat) : (State.portDown s p reason).memWf := by simp (maxDischargeDepth := 99) [State.portDown, h]

theorem execPortDown_memWf {s : State} (h : s.memWf) (port : Nat) (reason : Nat) : ResWf (execPortDown port reason s) := by simp (maxDischargeDepth := 99) [execPortDown, h]

@[simp] theorem State.startAttempt_memWf {s : State} (h : s.memWf) (p : Nat) : (State.startAttempt s p).memWf := by simp (maxDischargeDepth := 99) [State.startAttempt, h]

@[simp] theorem State.startOrSay_memWf {s : State} (h : s.memWf) (p : Nat) : (State.startOrSay s p).memWf := by simp (maxDischargeDepth := 99) [State.startOrSay, h]

theorem execPortTrainStart_memWf {s : State} (h : s.memWf) (port : Nat) : ResWf (execPortTrainStart port s) := by simp (maxDischargeDepth := 99) [execPortTrainStart, h]

theorem execTrainBackoffExpire_memWf {s : State} (h : s.memWf) (port : Nat) : ResWf (execTrainBackoffExpire port s) := by simp (maxDischargeDepth := 99) [execTrainBackoffExpire, h]

theorem execCableBringupDone_memWf {s : State} (h : s.memWf) (port : Nat) (cable : CableAnswer) : ResWf (execCableBringupDone port cable s) := by
  unfold execCableBringupDone
  dsimp only
  repeat' split
  all_goals simp (maxDischargeDepth := 99) [h]

@[simp] theorem State.measured_memWf {s : State} (h : s.memWf) (p : Nat) (pairs : List PairDc) : (State.measured s p pairs).memWf := by simp (maxDischargeDepth := 99) [State.measured, h]

@[simp] theorem State.pairsDone_memWf {s : State} (h : s.memWf) (p : Nat) (pairs : List PairDc) : (State.pairsDone s p pairs).memWf := by simp (maxDischargeDepth := 99) [State.pairsDone, h]

theorem execDcCheck_memWf {s : State} (h : s.memWf) (port : Nat) (pairs : List PairDc) (crossed : Bool) : ResWf (execDcCheck port pairs crossed s) := by simp (maxDischargeDepth := 99) [execDcCheck, h]

@[simp] theorem State.swapRoles_memWf {s : State} (h : s.memWf) (p : Nat) : (State.swapRoles s p).memWf := by simp (maxDischargeDepth := 99) [State.swapRoles, h]

theorem execCrossRecheck_memWf {s : State} (h : s.memWf) (port : Nat) (waited : Nat) (found : DcResult) : ResWf (execCrossRecheck port waited found s) := by simp (maxDischargeDepth := 99) [execCrossRecheck, h]

@[simp] theorem State.enterParams_memWf {s : State} (h : s.memWf) (p : Nat) : (State.enterParams s p).memWf := by
  unfold State.enterParams
  repeat' first
    | assumption
    | with_reducible apply State.setPortState_memWf
    | with_reducible apply State.emit_memWf
    | with_reducible apply State.modPort_memWf
    | split
    | dsimp only

theorem execEqualiseDone_memWf {s : State} (h : s.memWf) (port : Nat) (lanes : List LaneResult) : ResWf (execEqualiseDone port lanes s) := by simp (maxDischargeDepth := 99) [execEqualiseDone, h]

theorem execParamsDone_memWf {s : State} (h : s.memWf) (port : Nat) (farMin : Nat) (farMax : Nat) (farNode : BitVec 16) (farPort : Nat) (farVariant : Variant) (authOk : Bool) (farKey : List Byte) : ResWf (execParamsDone port farMin farMax farNode farPort farVariant authOk farKey s) := by
  unfold execParamsDone
  repeat' split
  all_goals simp (maxDischargeDepth := 99) [h]

@[simp] theorem State.comeUp_memWf {s : State} (h : s.memWf) (p : Nat) (latency : Nat) : (State.comeUp s p latency).memWf := by simp (maxDischargeDepth := 99) [State.comeUp, h]

@[simp] theorem State.putOff_memWf {s : State} (h : s.memWf) (p : Nat) (reason : Nat) : (State.putOff s p reason).memWf := by simp (maxDischargeDepth := 99) [State.putOff, h]

@[simp] theorem State.holdUnused_memWf {s : State} (h : s.memWf) (p : Nat) : (State.holdUnused s p).memWf := by
  unfold State.holdUnused
  repeat' first
    | assumption
    | with_reducible apply State.putOff_memWf
    | with_reducible apply memWf_foldl
    | with_reducible apply memWf_foldl_fst
    | (intro _ _ _)
    | split
    | dsimp only

theorem execCheckDone_memWf {s : State} (h : s.memWf) (port : Nat) (latency : Nat) : ResWf (execCheckDone port latency s) := by simp (maxDischargeDepth := 99) [execCheckDone, h]

theorem execTrainStateTimeout_memWf {s : State} (h : s.memWf) (port : Nat) : ResWf (execTrainStateTimeout port s) := by simp (maxDischargeDepth := 99) [execTrainStateTimeout, h]

@[simp] theorem State.holdOff_memWf {s : State} (h : s.memWf) (p : Nat) : (State.holdOff s p).memWf := by simp (maxDischargeDepth := 99) [State.holdOff, h]

@[simp] theorem State.retrainNow_memWf {s : State} (h : s.memWf) (p : Nat) : (State.retrainNow s p).memWf := by simp (maxDischargeDepth := 99) [State.retrainNow, h]

@[simp] theorem State.wrPortCtrl_memWf {s : State} (h : s.memWf) (p : Nat) (v : Word) (live : Word) : (State.wrPortCtrl p v live s).memWf := by simp (maxDischargeDepth := 99) [State.wrPortCtrl, h]

theorem execRetrain_memWf {s : State} (h : s.memWf) (who : Requester) (port : Nat) (value : Word) : ResWf (execRetrain who port value s) := by
  unfold execRetrain
  repeat' first
    | assumption
    | with_reducible refine (ResWf_next _).2 ?_
    | with_reducible apply ResWf_onPort
    | with_reducible apply ResWf_ite
    | with_reducible apply State.onWord_memWf
    | with_reducible apply State.onWrite_memWf
    | with_reducible apply State.wrPortCtrl_memWf
    | with_reducible apply State.onWord_memWf
    | split
    | dsimp only

theorem execHold_memWf {s : State} (h : s.memWf) (who : Requester) (port : Nat) (value : Word) : ResWf (execHold who port value s) := by
  unfold execHold
  repeat' first
    | assumption
    | with_reducible refine (ResWf_next _).2 ?_
    | with_reducible apply ResWf_onPort
    | with_reducible apply ResWf_ite
    | with_reducible apply State.onWord_memWf
    | with_reducible apply State.onWrite_memWf
    | with_reducible apply State.wrPortCtrl_memWf
    | with_reducible apply State.onWord_memWf
    | split
    | dsimp only

@[simp] theorem State.cableAlarm_memWf {s : State} (h : s.memWf) (p : Nat) (alarms : BitVec 32) : (State.cableAlarm s p alarms).memWf := by simp (maxDischargeDepth := 99) [State.cableAlarm, h]

theorem execCableFlagPoll_memWf {s : State} (h : s.memWf) (port : Nat) (lossOfSignal : Bool) (moduleFault : Bool) (alarms : BitVec 32) : ResWf (execCableFlagPoll port lossOfSignal moduleFault alarms s) := by simp (maxDischargeDepth := 99) [execCableFlagPoll, h]

theorem execErrorRateWindow_memWf {s : State} (h : s.memWf) (port : Nat) : ResWf (execErrorRateWindow port s) := by simp (maxDischargeDepth := 99) [execErrorRateWindow, h]

/-! #### Flits.lean -/

theorem State.pickQ_memWf {s : State} (h : s.memWf) (p f : Nat) (r : (Nat × Packet) × State)
    (e : s.pickQ p f = some r) : r.2.memWf := by
  unfold State.pickQ at e
  dsimp only at e
  split at e
  · cases e
  · rename_i hd
    rw [Option.map_eq_some_iff] at e
    obtain ⟨x, _, rfl⟩ := e
    exact State.drrAt_memWf h _ _ _ _ _ _ hd

theorem State.pickRest_memWf {s : State} (h : s.memWf) (p f : Nat) (r : Packet × State)
    (e : s.pickRest p f = some r) : r.2.memWf := by
  have hq : ((s.pickQ p f).map (·.2)).getD s |>.memWf := by
    cases hp : s.pickQ p f with
    | none => exact h
    | some x => exact State.pickQ_memWf h _ _ _ hp
  unfold State.pickRest at e
  dsimp only at e
  split at e
  · cases e
  · rename_i hd
    rw [Option.map_eq_some_iff] at e
    obtain ⟨x, _, rfl⟩ := e
    refine State.drrAt_memWf ?_ _ _ _ _ _ _ hd
    split
    · exact hq
    · exact h

@[simp] theorem State.beginPacket_memWf {s : State} (h : s.memWf) (p : Nat) (k : Packet) : (State.beginPacket s p k).memWf := by simp (maxDischargeDepth := 99) [State.beginPacket, h]

@[simp] theorem State.frameCredit_memWf {s : State} (h : s.memWf) (p : Nat) (g : Frame) : (State.frameCredit s p g).1.memWf := by
  unfold State.frameCredit
  dsimp only
  repeat' split
  all_goals simp (maxDischargeDepth := 99) [h]

@[simp] theorem State.pickFrame_memWf (l : List Frame) (seen : List (BitVec 16)) {s : State} (h : s.memWf) (p : Nat) :
    (State.pickFrame l seen s p).1.memWf := by
  induction l generalizing s seen with
  | nil => exact h
  | cons g t ih =>
    have h' := State.frameCredit_memWf h p g
    unfold State.pickFrame
    dsimp only
    split
    · exact ih _ h
    split
    · exact ih _ h
    split
    · exact h'
    · exact ih _ h'


@[simp] theorem State.beginFrame_memWf {s : State} (h : s.memWf) (p : Nat) (f : Frame) : (State.beginFrame s p f).memWf := by simp (maxDischargeDepth := 99) [State.beginFrame, h]

theorem State.beginNext_memWf {s : State} (h : s.memWf) (p : Nat) (t : State) (e : State.beginNext s p = some t) : t.memWf := by
  have h' := State.takeFree_memWf h
  unfold State.beginNext at e
  dsimp only at e
  split at e
  · cases e; exact State.beginPacket_memWf h' _ _
  split at e
  · cases e; exact State.beginFrame_memWf (State.pickFrame_memWf _ _ h' _) _ _
  · obtain ⟨r, hr, rfl⟩ := Option.map_eq_some_iff.1 e
    exact State.beginPacket_memWf (State.pickRest_memWf (State.pickFrame_memWf _ _ h' _) _ _ _ hr) _ _

@[simp] theorem Fill.begin_memWf {s : State} (h : s.memWf) (x : Fill) (p : Nat) : (Fill.begin x p s).st.memWf := by simp (maxDischargeDepth := 99) [Fill.begin, h]

theorem packFlit_memWf (p fuel : Nat) {x : Fill} (h : x.st.memWf) : (packFlit p fuel x).st.memWf := by
  induction fuel generalizing x with
  | zero => exact h
  | succ fuel ih =>
    unfold packFlit
    dsimp only
    split
    · exact h
    · split
      · split
        · exact h
        · rename_i hb
          exact ih (State.beginNext_memWf h _ _ hb)
      · split
        · exact State.modPort_memWf h _ _
        · split
          · exact ih (State.modPort_memWf h _ _)
          · exact State.modPort_memWf h _ _

@[simp] theorem State.takeCredit_memWf {s : State} (h : s.memWf) (p : Nat) : (State.takeCredit s p).2.2.memWf := by
  unfold State.takeCredit
  dsimp only
  repeat' split
  all_goals simp (maxDischargeDepth := 99) [h]

theorem State.dataFlit_memWf (s : State) (p : Nat) {x : Fill} (h : x.st.memWf) : (s.dataFlit p x).memWf :=
  State.emit_memWf (State.modPort_memWf (State.takeCredit_memWf h _) _ _) _

@[simp] theorem State.controlFlit_memWf {s : State} (h : s.memWf) (p : Nat) : (State.controlFlit s p).memWf := by
  unfold State.controlFlit
  dsimp only
  repeat' split
  all_goals simp (maxDischargeDepth := 99) [h]

theorem execFlitSend_memWf {s : State} (h : s.memWf) (port : Nat) : ResWf (execFlitSend port s) := by
  unfold execFlitSend
  repeat' first
    | assumption
    | with_reducible refine (ResWf_next _).2 ?_
    | with_reducible apply ResWf_onPort
    | with_reducible apply ResWf_whenOk
    | with_reducible apply State.controlFlit_memWf
    | with_reducible apply State.dataFlit_memWf
    | with_reducible apply packFlit_memWf
    | with_reducible apply Trestle.room_memWf
    | split
    | dsimp only

theorem execReplay_memWf {s : State} (h : s.memWf) (port : Nat) : ResWf (execReplay port s) := by
  unfold execReplay
  repeat' first
    | assumption
    | with_reducible apply ResWf_onPort
    | with_reducible apply ResWf_whenOk
    | with_reducible apply State.portDown_memWf
    | with_reducible apply memWf_foldl
    | (intro _ _ _)
    | split

@[simp] theorem State.takeHeader_memWf {s : State} (h : s.memWf) (p : Nat) (f : Flit) : (State.takeHeader s p f).memWf := by simp (maxDischargeDepth := 99) [State.takeHeader, h]

@[simp] theorem State.takeRest_memWf {s : State} (h : s.memWf) (p : Nat) (room : Nat) : (State.takeRest s p room).memWf := by
  unfold State.takeRest
  repeat' split
  all_goals simp (maxDischargeDepth := 99) [h]

@[simp] theorem State.takeStream_memWf {s : State} (h : s.memWf) (p : Nat) (f : Flit) : (State.takeStream s p f).memWf :=
  State.beginItems_memWf _ (State.takeRest_memWf h _ _) _ _

@[simp] theorem State.endPart_memWf {s : State} (h : s.memWf) (p : Nat) : (State.endPart s p).memWf := by simp (maxDischargeDepth := 99) [State.endPart, h]

@[simp] theorem State.takeItems_memWf {s : State} (h : s.memWf) (p : Nat) (f : Flit) : (State.takeItems s p f).memWf := by simp (maxDischargeDepth := 99) [State.takeItems, h]

@[simp] theorem State.acceptFlit_memWf {s : State} (h : s.memWf) (p : Nat) (f : Flit) : (State.acceptFlit s p f).memWf := by simp (maxDischargeDepth := 99) [State.acceptFlit, h]

@[simp] theorem State.countFec_memWf {s : State} (h : s.memWf) (p : Nat) (f : Flit) : (State.countFec s p f).memWf := by simp (maxDischargeDepth := 99) [State.countFec, h]

@[simp] theorem State.startKeys_memWf {s : State} (h : s.memWf) (p : Nat) : (State.startKeys s p).memWf := by
  unfold State.startKeys
  repeat' first
    | assumption
    | with_reducible apply State.modPort_memWf
    | split
    | dsimp only

@[simp] theorem State.takeMsg_memWf {s : State} (h : s.memWf) (p : Nat) (m : Option FarShare) : (State.takeMsg s p m).memWf := by
  unfold State.takeMsg
  repeat' split
  all_goals simp (maxDischargeDepth := 99) [h]

theorem execFlitReceive_memWf {s : State} (h : s.memWf) (port : Nat) (flit : Flit) : ResWf (execFlitReceive port flit s) := by simp (maxDischargeDepth := 99) [execFlitReceive, h]

theorem execKeyChange_memWf {s : State} (h : s.memWf) (port : Nat) : ResWf (execKeyChange port s) := by
  unfold execKeyChange
  dsimp only
  repeat' split
  all_goals simp (maxDischargeDepth := 99) [h]

theorem execKeyChangeTimeout_memWf {s : State} (h : s.memWf) (port : Nat) : ResWf (execKeyChangeTimeout port s) := by simp (maxDischargeDepth := 99) [execKeyChangeTimeout, h]

/-! #### Security.lean -/

@[simp] theorem State.setTenant_memWf {s : State} (h : s.memWf) (t : Nat) (x2 : Tenant) : (State.setTenant s t x2).memWf := by simp (maxDischargeDepth := 99) [State.setTenant, h]

@[simp] theorem State.setStackTenant_memWf {s : State} (h : s.memWf) (n : Nat) (t : Nat) : (State.setStackTenant s n t).memWf := by simp (maxDischargeDepth := 99) [State.setStackTenant, h]

@[simp] theorem State.setStackState_memWf {s : State} (h : s.memWf) (n : Nat) (st : Nat) : (State.setStackState s n st).memWf := by simp (maxDischargeDepth := 99) [State.setStackState, h]

@[simp] theorem State.countReport_memWf {s : State} (h : s.memWf)  : (State.countReport s).memWf := by simp (maxDischargeDepth := 99) [State.countReport, h]

theorem execAttest_memWf {s : State} (h : s.memWf) (desc : Nat) : ResWf (execAttest desc s) := by
  unfold execAttest
  repeat' first
    | with_reducible apply onStarted_memWf
    | simp (maxDischargeDepth := 99) [h]

@[simp] theorem State.publish_memWf {s : State} (h : s.memWf) (n : Nat) : (State.publish s n).memWf := by simp (maxDischargeDepth := 99) [State.publish, h]

@[simp] theorem State.bindStack_memWf {s : State} (h : s.memWf) (t : Nat) (n : Nat) : (State.bindStack s t n).memWf := by
  unfold State.bindStack
  repeat' first
    | assumption
    | with_reducible apply State.publish_memWf
    | with_reducible apply State.setStackState_memWf
    | with_reducible apply State.setStackTenant_memWf
    | with_reducible apply State.setBit_memWf
    | with_reducible refine State.modStack_memWf ?_ _ ?_
    | split
    | dsimp only
    | (intro _ _)
  all_goals first
    | assumption
    | (simp (maxDischargeDepth := 99) [*])

@[simp] theorem State.bindTenant_memWf {s : State} (h : s.memWf) (q : BindReq) : (State.bindTenant s q).memWf := by
  unfold State.bindTenant
  repeat' first
    | assumption
    | with_reducible apply State.bindStack_memWf
    | with_reducible apply State.setTenant_memWf
    | with_reducible apply State.noteThrottle_memWf
    | with_reducible apply State.setBit_memWf
    | with_reducible apply State.setFld_memWf
    | with_reducible apply memWf_foldl
    | with_reducible apply memWf_foldl_fst
    | (intro _ _ _)
    | split
    | dsimp only

@[simp] theorem State.setResult_memWf {s : State} (h : s.memWf) (r : Nat) : (State.setResult s r).memWf := by simp (maxDischargeDepth := 99) [State.setResult, h]

@[simp] theorem State.bindNow_memWf {s : State} (h : s.memWf) (q : BindReq) : (s.bindNow q).memWf := by
  unfold State.bindNow
  refine State.hostWrite_memWf (State.countReport_memWf ?_) _ _
  have h' := State.bindTenant_memWf (s := { s with free := s.free + 1 }) h q
  split
  · exact State.setTenant_memWf h' _ _
  · exact h'

@[simp] theorem State.keeperBind_memWf {s : State} (h : s.memWf)  : (State.keeperBind s).memWf := by simp (maxDischargeDepth := 99) [State.keeperBind, h]

@[simp] theorem State.releaseOne_memWf {s : State} (h : s.memWf) (n : Nat) : (State.releaseOne s n).memWf := by simp (maxDischargeDepth := 99) [State.releaseOne, h]

@[simp] theorem State.releaseTwo_memWf {s : State} (h : s.memWf) (n : Nat) : (State.releaseTwo s n).memWf := by
  unfold State.releaseTwo
  refine State.modStack_memWf_same (memWf_foldl (fun _ _ hu => State.clearTrestle_memWf hu _ _) _
    (memWf_foldl (fun _ _ hu => State.abandon_memWf (State.dropSpan_memWf hu _ _) _ _ _ _) _
      (State.modStack_memWf_same (memWf_foldl (fun _ _ hu => State.clearGroup_memWf hu _ _) _
        (memWf_foldl (fun _ _ hu => State.releaseDesc_memWf hu _) _
          (memWf_foldl (fun _ _ hu => State.killCtx_memWf hu _ _) _
            (memWf_foldl (fun _ _ hu => State.tearJob_memWf hu _ _ _) _ h)))) _ (fun k => by simp)))) _
    (fun k => by simp)

@[simp] theorem State.releaseFive_memWf {s : State} (h : s.memWf) (n : Nat) : (State.releaseFive s n).memWf := by
  unfold State.releaseFive
  repeat' first
    | assumption
    | with_reducible apply State.endShoots_memWf
    | with_reducible apply State.setBit_memWf
    | with_reducible apply State.setFld_memWf
    | with_reducible refine State.modStack_memWf ?_ _ ?_
    | with_reducible apply memWf_foldl
    | with_reducible apply memWf_foldl_fst
    | (intro _ _ _)
    | split
    | dsimp only
    | (intro _ _)
  all_goals first
    | assumption
    | (simp (maxDischargeDepth := 99) [*])

@[simp] theorem State.endTenant_memWf {s : State} (h : s.memWf) (t : Nat) : (State.endTenant s t).memWf := by
  unfold State.endTenant
  repeat' first
    | assumption
    | with_reducible apply memWf_foldl
    | (intro _ _ _)
    | split

@[simp] theorem State.releaseSix_memWf {s : State} (h : s.memWf) (n : Nat) : (State.releaseSix s n).memWf := by
  unfold State.releaseSix
  repeat' first
    | with_reducible apply State.setStackTenant_memWf
    | with_reducible apply State.setStackState_memWf
    | with_reducible apply State.endTenant_memWf
    | with_reducible apply State.setResult_memWf
    | with_reducible apply State.setBit_memWf
    | with_reducible apply State.modStack_memWf_same
    | split
    | simp (maxDischargeDepth := 99) [h]

@[simp] theorem State.releaseStack_memWf {s : State} (h : s.memWf) (n : Nat) : (State.releaseStack s n).memWf := by simp (maxDischargeDepth := 99) [State.releaseStack, h]

@[simp] theorem State.keeperRelease_memWf {s : State} (h : s.memWf)  : (State.keeperRelease s).memWf := by
  unfold State.keeperRelease
  repeat' first
    | assumption
    | with_reducible apply State.releaseStack_memWf
    | with_reducible apply memWf_foldl
    | (intro _ _ _)
    | split
    | dsimp only

theorem execReleaseDone_memWf {s : State} (h : s.memWf) (stack : Nat) : ResWf (execReleaseDone stack s) := by simp (maxDischargeDepth := 99) [execReleaseDone, h]

@[simp] theorem State.keeperCerts_memWf {s : State} (h : s.memWf)  : (State.keeperCerts s).memWf := by simp (maxDischargeDepth := 99) [State.keeperCerts, h]

@[simp] theorem State.wrSecCmd_memWf {s : State} (h : s.memWf) (v : Word) (live : Word) : (State.wrSecCmd v live s).memWf := by
  unfold State.wrSecCmd
  dsimp only
  repeat' split
  all_goals simp (maxDischargeDepth := 99) [h]

theorem execBind_memWf {s : State} (h : s.memWf) (value : Word) : ResWf (execBind value s) := by
  unfold execBind
  repeat' first
    | assumption
    | with_reducible refine (ResWf_next _).2 ?_
    | with_reducible apply ResWf_ite
    | with_reducible apply State.onWord_memWf
    | with_reducible apply State.onWrite_memWf
    | with_reducible apply State.wrSecCmd_memWf
    | with_reducible apply State.onWord_memWf
    | split
    | dsimp only

theorem execRelease_memWf {s : State} (h : s.memWf) (value : Word) : ResWf (execRelease value s) := by
  unfold execRelease
  repeat' first
    | assumption
    | with_reducible refine (ResWf_next _).2 ?_
    | with_reducible apply ResWf_ite
    | with_reducible apply State.onWord_memWf
    | with_reducible apply State.onWrite_memWf
    | with_reducible apply State.wrSecCmd_memWf
    | with_reducible apply State.onWord_memWf
    | split
    | dsimp only

theorem execCerts_memWf {s : State} (h : s.memWf) (value : Word) : ResWf (execCerts value s) := by
  unfold execCerts
  repeat' first
    | assumption
    | with_reducible refine (ResWf_next _).2 ?_
    | with_reducible apply ResWf_ite
    | with_reducible apply State.onWord_memWf
    | with_reducible apply State.onWrite_memWf
    | with_reducible apply State.wrSecCmd_memWf
    | with_reducible apply State.onWord_memWf
    | split
    | dsimp only

@[simp] theorem State.wrWeightsCtrl_memWf {s : State} (h : s.memWf) (n : Nat) (v : Word) (live : Word) : (State.wrWeightsCtrl n v live s).memWf := by simp (maxDischargeDepth := 99) [State.wrWeightsCtrl, h]

theorem execWeightsGo_memWf {s : State} (h : s.memWf) (who : Requester) (stack : Nat) (value : Word) : ResWf (execWeightsGo who stack value s) := by
  unfold execWeightsGo
  repeat' first
    | assumption
    | with_reducible apply stackWrite_memWf
    | with_reducible apply State.wrWeightsCtrl_memWf

@[simp] theorem State.endWeights_memWf {s : State} (h : s.memWf) (n : Nat) (result : Nat) : (State.endWeights s n result).memWf := by simp (maxDischargeDepth := 99) [State.endWeights, h]

theorem execWeightsDigestDone_memWf {s : State} (h : s.memWf) (stack : Nat) : ResWf (execWeightsDigestDone stack s) := by
  unfold execWeightsDigestDone
  dsimp only
  repeat' split
  all_goals simp (maxDischargeDepth := 99) [h]

theorem execThrottleWindowEnd_memWf {s : State} (h : s.memWf) (hottest : Nat) : ResWf (execThrottleWindowEnd hottest s) := by
  unfold execThrottleWindowEnd
  repeat' first
    | assumption
    | with_reducible refine (ResWf_next _).2 ?_
    | with_reducible apply ResWf_whenOk
    | with_reducible apply State.publish_memWf
    | with_reducible apply memWf_foldl
    | with_reducible apply memWf_foldl_fst
    | (intro _ _ _)
    | split
    | dsimp only

@[simp] theorem State.extendDebug_memWf {s : State} (h : s.memWf) (event : Nat) : (State.extendDebug s event).memWf := by simp (maxDischargeDepth := 99) [State.extendDebug, h]

theorem Tab.get_mapVal {α : Type} (d : α) (f : α → α) (l : Tab α) (n : Nat) (P : α → Prop) (h : P (Tab.get d l n))
    (hf : ∀ x, P x → P (f x)) : P (Tab.get d (l.map (fun p => (p.1, f p.2))) n) := by
  induction l with
  | nil => exact h
  | cons x l ih =>
    simp only [Tab.get, List.map_cons] at *
    split <;> simp_all

@[simp] theorem State.releaseStops_memWf {s : State} (h : s.memWf) : s.releaseStops.memWf :=
  ⟨h.1, fun n => Tab.get_mapVal _ (fun k : Stack => { k with benches := k.benches.map (fun q => (q.1, q.2.undebug s.now)) })
    s.stackTab n (fun k => k.memWf = true) (h.2 n) (fun _ hk => hk)⟩

@[simp] theorem State.debugWasSeen_memWf {s : State} (h : s.memWf)  : (State.debugWasSeen s).memWf := by
  unfold State.debugWasSeen
  repeat' first
    | assumption
    | with_reducible apply memWf_foldl
    | (intro _ _ _)
    | split

@[simp] theorem State.syncDebug_memWf {s : State} (h : s.memWf)  : (State.syncDebug s).memWf := by simp (maxDischargeDepth := 99) [State.syncDebug, h]

@[simp] theorem State.wrSecDebug_memWf {s : State} (h : s.memWf) (v : Word) (live : Word) : (State.wrSecDebug v live s).memWf := by simp (maxDischargeDepth := 99) [State.wrSecDebug, h]

@[simp] theorem State.setIr_memWf {s : State} (h : s.memWf) (ir : BitVec 8) : (State.setIr s ir).memWf := by
  unfold State.setIr
  repeat' first
    | assumption
    | with_reducible apply State.syncDebug_memWf

@[simp] theorem State.setTrst_memWf {s : State} (h : s.memWf) (high : Bool) : (State.setTrst s high).memWf := by
  unfold State.setTrst
  repeat' first
    | assumption
    | with_reducible apply State.setIr_memWf
    | split
    | dsimp only

@[simp] theorem State.debugWay_memWf {s : State} (h : s.memWf) (way : DebugWay) (ir : BitVec 8) (word : Word) : (State.debugWay s way ir word).memWf := by
  unfold State.debugWay
  repeat' first
    | assumption
    | with_reducible apply State.setTrst_memWf
    | with_reducible apply State.setIr_memWf
    | with_reducible apply State.wrSecDebug_memWf
    | with_reducible apply State.onWord_memWf
    | split
    | dsimp only

theorem execDebugOpen_memWf {s : State} (h : s.memWf) (way : DebugWay) (ir : BitVec 8) : ResWf (execDebugOpen way ir s) := by simp (maxDischargeDepth := 99) [execDebugOpen, h]

theorem execDebugClose_memWf {s : State} (h : s.memWf) (way : DebugWay) (ir : BitVec 8) : ResWf (execDebugClose way ir s) := by simp (maxDischargeDepth := 99) [execDebugClose, h]

/-! #### Recovery.lean -/

theorem execNoticeResendTimer_memWf {s : State} (h : s.memWf) : ResWf (execNoticeResendTimer s) := by
  unfold execNoticeResendTimer
  repeat' first
    | assumption
    | with_reducible refine (ResWf_next _).2 ?_
    | with_reducible apply ResWf_whenOk
    | with_reducible apply State.mgmt_memWf
    | with_reducible apply memWf_foldl
    | with_reducible apply memWf_foldl_fst
    | (intro _ _ _)
    | split
    | dsimp only

theorem execNoticeAck_memWf {s : State} (h : s.memWf) (src : BitVec 16) (number : BitVec 32) : ResWf (execNoticeAck src number s) := by
  unfold execNoticeAck
  repeat' first
    | assumption
    | with_reducible apply onFm_memWf

@[simp] theorem State.clearRow_memWf {s : State} (h : s.memWf) (r : Nat) : (State.clearRow s r).memWf := by
  unfold State.clearRow
  repeat' first
    | assumption

@[simp] theorem State.wrQuietClear_memWf {s : State} (h : s.memWf) (v : Word) (live : Word) : (State.wrQuietClear v live s).memWf := by
  unfold State.wrQuietClear
  repeat' first
    | assumption
    | with_reducible apply memWf_foldl
    | (intro _ _ _)

theorem execQuietClear_memWf {s : State} (h : s.memWf) (who : Requester) (value : Word) : ResWf (execQuietClear who value s) := by
  unfold execQuietClear
  repeat' first
    | assumption
    | with_reducible refine (ResWf_next _).2 ?_
    | with_reducible apply ResWf_ite
    | with_reducible apply State.onWord_memWf
    | with_reducible apply State.onWrite_memWf
    | with_reducible apply State.wrQuietClear_memWf
    | with_reducible apply State.onWord_memWf
    | split
    | dsimp only

@[simp] theorem State.setShadow_memWf {s : State} (h : s.memWf) (m : ShadowSet) : (State.setShadow s m).memWf := by simp (maxDischargeDepth := 99) [State.setShadow, h]

@[simp] theorem State.refuseShadow_memWf {s : State} (h : s.memWf) (n : Nat) : (State.refuseShadow s n).memWf := by simp (maxDischargeDepth := 99) [State.refuseShadow, h]

theorem execShadowSet_memWf {s : State} (h : s.memWf) (src : BitVec 16) (m : ShadowSet) : ResWf (execShadowSet src m s) := by
  unfold execShadowSet
  repeat' first
    | assumption
    | with_reducible apply onFm_memWf
    | with_reducible apply State.refuseShadow_memWf
    | with_reducible apply State.setShadow_memWf
    | split

theorem execShadowDigest_memWf {s : State} (h : s.memWf) (stack : Nat) (src : BitVec 16) (step : BitVec 32) (digest : Word) : ResWf (execShadowDigest stack src step digest s) := by simp (maxDischargeDepth := 99) [execShadowDigest, h]

theorem execShadowSwap_memWf {s : State} (h : s.memWf) (src : BitVec 16) (stack : Nat) (beat : BitVec 48) : ResWf (execShadowSwap src stack beat s) := by
  unfold execShadowSwap
  repeat' first
    | with_reducible apply ResWf_onStack
    | with_reducible apply onFm_memWf
    | simp (maxDischargeDepth := 99) [h]

@[simp] theorem State.swapShadow_memWf {s : State} (h : s.memWf) (n : Nat) : (State.swapShadow s n).memWf := by simp (maxDischargeDepth := 99) [State.swapShadow, h]

theorem execShadowSwapBeat_memWf {s : State} (h : s.memWf) (stack : Nat) : ResWf (execShadowSwapBeat stack s) := by
  unfold execShadowSwapBeat
  repeat' split
  all_goals simp (maxDischargeDepth := 99) [h]

@[simp] theorem State.copyPieces_memWf {s : State} (h : s.memWf) (m : RegionReq) (l : List (Nat × Nat)) :
    (s.copyPieces m l).1.memWf := by
  induction l generalizing s with
  | nil => exact h
  | cons x l ih =>
    have h' := State.loadTier_memWf h m.stack (m.tier == 1) (m.offset + x.1) x.2
    unfold State.copyPieces
    dsimp only
    split
    · exact h'
    · exact ih (State.modStack_memWf_same (State.fresh_memWf h') _ (fun _ => rfl))

@[simp] theorem State.readDigest_memWf {s : State} (h : s.memWf) (bytes : List Byte) (poisoned : Bool) : (State.readDigest s bytes poisoned).2.memWf := by
  unfold State.readDigest
  repeat' split
  all_goals simp (maxDischargeDepth := 99) [h]

@[simp] theorem State.addRebuild_memWf {s : State} (h : s.memWf) (m : RegionReq) (copy : Bool) (engine : Nat) (begun : Bool) (result : Nat) (digest : Word) : (State.addRebuild s m copy engine begun result digest).memWf := by simp (maxDischargeDepth := 99) [State.addRebuild, h]

@[simp] theorem State.beginRebuild_memWf {s : State} (h : s.memWf) (m : RegionReq) (engine : Nat) : (State.beginRebuild s m engine).memWf := by
  unfold State.beginRebuild
  repeat' split
  all_goals simp (maxDischargeDepth := 99) [h]

@[simp] theorem State.startRebuild_memWf {s : State} (h : s.memWf) (m : RegionReq) : (State.startRebuild s m).memWf := by
  unfold State.startRebuild
  repeat' split
  all_goals simp (maxDischargeDepth := 99) [h]

theorem execRebuild_memWf {s : State} (h : s.memWf) (src : BitVec 16) (m : RegionReq) : ResWf (execRebuild src m s) := by
  unfold execRebuild
  repeat' first
    | assumption
    | with_reducible refine (ResWf_next _).2 ?_
    | with_reducible apply ResWf_onFm
    | with_reducible apply State.startRebuild_memWf
    | with_reducible apply State.rebuildReply_memWf
    | with_reducible apply onFm_memWf
    | split
    | dsimp only

@[simp] theorem State.endRebuild_memWf {s : State} (h : s.memWf) (n : Nat) (b : Rebuild) : (State.endRebuild s n b).memWf := by simp (maxDischargeDepth := 99) [State.endRebuild, h]

@[simp] theorem State.resumeRebuild_memWf {s : State} (h : s.memWf) (n : Nat) (b : Rebuild) : (State.resumeRebuild s n b).memWf := by
  unfold State.resumeRebuild
  repeat' split
  all_goals simp (maxDischargeDepth := 99) [h]

theorem execRebuildDone_memWf {s : State} (h : s.memWf) (stack : Nat) (request : BitVec 32) : ResWf (execRebuildDone stack request s) := by
  unfold execRebuildDone
  repeat' split
  all_goals simp (maxDischargeDepth := 99) [h]

theorem execDigestReq_memWf {s : State} (h : s.memWf) (src : BitVec 16) (m : RegionReq) : ResWf (execDigestReq src m s) := by
  unfold execDigestReq
  repeat' first
    | assumption
    | with_reducible refine (ResWf_next _).2 ?_
    | with_reducible apply ResWf_onFm
    | with_reducible apply State.addRebuild_memWf
    | with_reducible apply State.rebuildReply_memWf
    | with_reducible apply onFm_memWf
    | split
    | dsimp only

@[simp] theorem State.readRegion_memWf {s : State} (h : s.memWf) (n : Nat) (b : Rebuild) : (State.readRegion s n b).memWf := by simp (maxDischargeDepth := 99) [State.readRegion, h]

theorem execDigestDone_memWf {s : State} (h : s.memWf) (stack : Nat) (request : BitVec 32) : ResWf (execDigestDone stack request s) := by
  unfold execDigestDone
  repeat' split
  all_goals simp (maxDischargeDepth := 99) [h]

/-! #### RegAccess.lean -/

@[simp] theorem State.wrBase_memWf {s : State} (h : s.memWf) (r : Reg) (v : Word) (live : Word) : (State.wrBase s r v live).memWf := by
  unfold State.wrBase
  dsimp only
  repeat' split
  all_goals simp (maxDischargeDepth := 99) [h]

@[simp] theorem State.countOff_memWf {s : State} (h : s.memWf) (o : Nat) : (State.countOff s o).memWf := by simp (maxDischargeDepth := 99) [State.countOff, h]

@[simp] theorem State.msixSet_memWf {s : State} (h : s.memWf) (o : Nat) (v : BitVec 32) : (State.msixSet s o v).memWf := by
  unfold State.msixSet
  repeat' first
    | assumption
    | split
    | dsimp only

@[simp] theorem State.readAt_memWf {s : State} (h : s.memWf) (who : Requester) (o : Nat) (bytes : Nat) : (State.readAt s who o bytes).2.memWf := by
  unfold State.readAt
  repeat' split
  all_goals simp (maxDischargeDepth := 99) [h]

theorem State.writeAt_memWf {eff : State → Reg → Word → Word → State} {s : State} {who : Requester} {o bytes : Nat}
    {v : Word} (h : s.memWf) (he : ∀ (t : State) r x y, t.memWf → (eff t r x y).memWf) :
    (State.writeAt eff s who o bytes v).memWf := by
  have hd := State.dropLatch_memWf h who o
  have hc := State.countOff_memWf h o
  unfold State.writeAt
  dsimp only
  split
  · exact hc
  · split
    · split
      · split
        · exact State.msixSet_memWf (State.msixSet_memWf h _ _) _ _
        · exact State.msixSet_memWf h _ _
      · exact hc
    · split
      · exact hc
      · split
        · exact State.onWrite_memWf hd (he _ _ _ _ hd)
        · split
          · exact State.onWrite_memWf h (State.setLatch_memWf h _ _ _)
          · split
            · exact State.onWrite_memWf hd (he _ _ _ _ hd)
            · exact State.onWrite_memWf h (he _ _ _ _ h)

@[simp] theorem State.brings_memWf {s : State} (h : s.memWf) (r : Reg) (who : Requester) (a : BarAccess) : (State.brings s r who a).1.memWf := by
  unfold State.brings
  repeat' first
    | assumption
    | with_reducible apply State.setLatch_memWf
    | with_reducible apply State.dropLatch_memWf
    | with_reducible apply State.onWrite_memWf
    | split
    | dsimp only

@[simp] theorem State.writeAll_memWf {s : State} (h : s.memWf) (r : Reg) (l : List (Requester × BarAccess))
    (eff : State → Reg → Word → Word → State) (he : ∀ t r v live, State.memWf t → (eff t r v live).memWf) :
    (State.writeAll s r l eff).memWf := by
  unfold State.writeAll
  dsimp only
  have h1 := memWf_foldl_fst (f := fun (p : State × Option (Word × Word)) w =>
    ((p.1.brings r w.1 w.2).1, match p.2, (p.1.brings r w.1 w.2).2 with
      | none, x => x
      | x, none => x
      | some x, some y => some (alsoWrite r.access x y))) (fun p a hp => State.brings_memWf hp _ _ _) l
    (p := (s, none)) h
  split
  · exact h1
  · exact he _ _ _ _ h1

@[simp] theorem State.debugSpace0_memWf {s : State} (h : s.memWf) (write : Bool) (a : Nat) (data : Word) : (State.debugSpace0 s write a data).memWf := by
  unfold State.debugSpace0
  repeat' first
    | assumption
    | with_reducible apply State.debugEnd_memWf
    | with_reducible apply State.writeAt_memWf
    | with_reducible apply State.wrBase_memWf
    | with_reducible apply State.readAt_memWf
    | (intro _)
    | split

@[simp] theorem State.debugSpace2_memWf {s : State} (h : s.memWf) (write : Bool) (n : Nat) (a : Nat) (data : Word) : (State.debugSpace2 s write n a data).memWf := by simp (maxDischargeDepth := 99) [State.debugSpace2, h]

@[simp] theorem State.debugAccess_memWf {s : State} (h : s.memWf)  : (State.debugAccess s).memWf := by
  unfold State.debugAccess
  dsimp only
  repeat' split
  all_goals simp (maxDischargeDepth := 99) [h]

@[simp] theorem State.wrDebugCtl_memWf {s : State} (h : s.memWf) (v : Word) (live : Word) : (State.wrDebugCtl v live s).memWf := by simp (maxDischargeDepth := 99) [State.wrDebugCtl, h]

@[simp] theorem State.wrReg_memWf {s : State} (h : s.memWf) (r : Reg) (v : Word) (live : Word) : (State.wrReg s r v live).memWf := by
  unfold State.wrReg
  repeat' split
  all_goals simp (maxDischargeDepth := 99) [h]

@[simp] theorem State.putRead_memWf {s : State} (h : s.memWf) (who : Requester) (v : Word) : (State.putRead s who v).memWf := by
  unfold State.putRead
  repeat' split
  all_goals simp (maxDischargeDepth := 99) [h]

@[simp] theorem State.barAccess_memWf {s : State} (h : s.memWf) (who : Requester) (a : BarAccess) : (State.barAccess s who a).memWf := by
  unfold State.barAccess
  repeat' first
    | assumption
    | with_reducible apply State.writeAt_memWf
    | with_reducible apply State.wrReg_memWf
    | with_reducible apply State.readAt_memWf
    | with_reducible apply State.putRead_memWf
    | (intro _)
    | split

@[simp] theorem State.cycleWrites_memWf {s : State} (h : s.memWf) (who : Requester) (a : BarAccess) (others : List (Requester × BarAccess)) : (State.cycleWrites s who a others).memWf := by
  unfold State.cycleWrites
  dsimp only
  split
  · exact memWf_foldl (fun _ _ hu => State.barAccess_memWf hu _ _) _ h
  · exact State.writeAll_memWf (memWf_foldl (fun _ _ hu => State.barAccess_memWf hu _ _) _ h) _ _ _
      (fun t r v live ht => State.wrReg_memWf ht r v live)

theorem execRegisterWrite_memWf {s : State} (h : s.memWf) (who : Requester) (acc : RegAccess) : ResWf (execRegisterWrite who acc s) := by
  unfold execRegisterWrite
  repeat' split
  all_goals simp (maxDischargeDepth := 99) [h]

theorem onDebug_memWf {s : State} (h : s.memWf) (ctl : Word) (asks : Bool) : ResWf (onDebug s ctl asks) := by simp (maxDischargeDepth := 99) [onDebug, h]

theorem execDebugRegisterAccess_memWf {s : State} (h : s.memWf) (ctl : Word) : ResWf (execDebugRegisterAccess ctl s) := by
  unfold execDebugRegisterAccess
  repeat' first
    | assumption
    | with_reducible apply onDebug_memWf

theorem execDebugTierAccess_memWf {s : State} (h : s.memWf) (ctl : Word) : ResWf (execDebugTierAccess ctl s) := by
  unfold execDebugTierAccess
  repeat' first
    | assumption
    | with_reducible apply onDebug_memWf

theorem execDebugContextStop_memWf {s : State} (h : s.memWf) (ctl : Word) : ResWf (execDebugContextStop ctl s) := by
  unfold execDebugContextStop
  repeat' first
    | assumption
    | with_reducible apply onDebug_memWf

theorem execDebugContextRelease_memWf {s : State} (h : s.memWf) (ctl : Word) : ResWf (execDebugContextRelease ctl s) := by
  unfold execDebugContextRelease
  repeat' first
    | assumption
    | with_reducible apply onDebug_memWf

theorem execDebugContextRead_memWf {s : State} (h : s.memWf) (ctl : Word) : ResWf (execDebugContextRead ctl s) := by
  unfold execDebugContextRead
  repeat' first
    | assumption
    | with_reducible apply onDebug_memWf

@[simp] theorem State.capturePins_memWf {s : State} (h : s.memWf) : (State.capturePins s).memWf := by simp (maxDischargeDepth := 99) [State.capturePins, h]

@[simp] theorem State.debugChain_memWf {s : State} (h : s.memWf) (ctl : Word) (data : Word) : (State.debugChain s ctl data).memWf := by simp (maxDischargeDepth := 99) [State.debugChain, h]

theorem execJtagUpdateDr_memWf {s : State} (h : s.memWf) (ctl : Word) (data : Word) : ResWf (execJtagUpdateDr ctl data s) := by
  unfold execJtagUpdateDr
  repeat' first
    | assumption
    | with_reducible refine (ResWf_next _).2 ?_
    | with_reducible apply ResWf_whenOk
    | with_reducible apply State.debugChain_memWf
    | with_reducible apply State.capturePins_memWf
    | with_reducible apply State.emit_memWf
    | split
    | dsimp only

@[simp] theorem State.regResult_memWf {s : State} (h : s.memWf) (tag : BitVec 32) (offset : BitVec 32) (result : Nat) : (State.regResult s tag offset result).memWf := by simp (maxDischargeDepth := 99) [State.regResult, h]

theorem execRegWrite_memWf {s : State} (h : s.memWf) (src : BitVec 16) (tag : BitVec 32) (offset : BitVec 32) (value : Word) : ResWf (execRegWrite src tag offset value s) := by
  unfold execRegWrite
  repeat' first
    | assumption
    | with_reducible apply onFm_memWf
    | with_reducible apply State.regResult_memWf
    | with_reducible apply State.writeAt_memWf
    | with_reducible apply State.wrReg_memWf
    | (intro _)
    | split

theorem execUcieModuleDrop_memWf {s : State} (h : s.memWf) (module : Nat) : ResWf (execUcieModuleDrop module s) := by simp (maxDischargeDepth := 99) [execUcieModuleDrop, h]

@[simp] theorem State.coreSram_memWf {s : State} (h : s.memWf) (n : Nat) (op : CoreOp) (a : Nat) (bytes : Nat) (v : Word) (cmp : Word) : (State.coreSram s n op a bytes v cmp).memWf := by
  unfold State.coreSram
  repeat' first
    | assumption
    | with_reducible refine State.modStack_memWf ?_ _ ?_
    | with_reducible apply Stack.memWf_sram
    | with_reducible apply Mem.wf_writeBytes
    | with_reducible apply Stack.sram_wf
    | split
    | (intro _ _)

@[simp] theorem State.coreRegs_memWf {s : State} (h : s.memWf) (n : Nat) (c : Nat) (op : CoreOp) (o : Nat) (bytes : Nat) (v : Word) (cmp : Word) : (State.coreRegs s n c op o bytes v cmp).memWf := by
  unfold State.coreRegs
  dsimp only
  repeat' split
  all_goals simp (maxDischargeDepth := 99) [h]

@[simp] theorem State.coreDo_memWf {s : State} (h : s.memWf) (n : Nat) (c : Nat) (op : CoreOp) (a : Nat) (bytes : Nat) (v : Word) (cmp : Word) : (State.coreDo s n c op a bytes v cmp).memWf := by
  unfold State.coreDo
  repeat' split
  all_goals simp (maxDischargeDepth := 99) [h]

theorem execCoreAccess_memWf {s : State} (h : s.memWf) (stack : Nat) (core : Nat) (op : CoreOp) (addr : Nat) (bytes : Nat) (value : Word) (compare : Word) : ResWf (execCoreAccess stack core op addr bytes value compare s) := by simp (maxDischargeDepth := 99) [execCoreAccess, h]

/-! #### Step.lean -/

@[simp] theorem State.withFetchWord_memWf {s : State} (h : s.memWf) (nbits : Nat) (w : Nat) : (State.withFetchWord s nbits w).memWf := by
  unfold State.withFetchWord
  repeat' split
  all_goals simp (maxDischargeDepth := 99) [h]

end Sys2Proof.Machine
end

