-- ==== Sys2Proof/Tests/Slice0.lean ====
section
/-! SUPPORT. Tests: the checks of well-formedness, steps whose results the spec works out, and for each statement
states and operands that meet its hypotheses. -/

open Sys2Proof Sys2Proof.Machine

set_option Elab.async false
set_option linter.unusedVariables false

namespace Sys2Proof.Tests

/-! ### States -/

/-- The module after start-up: READY, rack position, stack 0 bound to tenant 1, a fabric manager named. -/
def live : State :=
  let s : State := { State.reset with
    boot :=
      { State.reset.boot with
        powered := true, bar0 := true, descriptorOk := true, i3cOn := true, merged := true, trstHigh := true }
    stackTab := (List.range 8).map (fun n => (n, { Stack.reset with up := true })) }
  let s := (s.setReg .CAP_START 0xA01).setReg .CAP_POSITION 0x4B5001250000_1502
  let s := s.setFld .SWC_ROUTE_CFG SWC_ROUTE_CFG_FM_NODE 0x0100
  (s.setFld .SEC_STACK (secStateField 0) 1).setFld .SEC_STACK (secTenantField 0) 1
def c0 : CtxId := ⟨0, 0, 0⟩
/-- The module with stack 0 bound to tenant 1 and context 0 of its bench 0 as given. -/
def at0 (x : Ctx) : State := live.setCtx c0 x
/-- A context that runs, with a few registers filled. -/
def busy : Ctx :=
  { Ctx.reset with
    st := .run, pc := 0
    sregs := [(1, 0x40), (2, 3), (3, 64), (4, 256), (5, 16384), (6, 8192), (7, 0xFFFFFFFFFFFFFFFF), (8, 0x100000)]
    vregs := [(64, 0x3F800000), (65, 0xC0000000), (66, 0x7FC00000), (128, 0x40000000), (129, 0xFF800000)]
    kregs := [(1, 0xFFFF0000FFFF00FF)], rng := 7, flags := 1 }
def run : State := at0 busy
def waits (ws : List Wait) : State := at0 { busy with waits := ws, st := .waitFlag }
def sf : SForm := ⟨3, 1, 2, 0x80000001⟩
/-- A vector form with the formats given. -/
def vf (fmt fmt2 : BitVec 4) (vs vt vu : BitVec 6) (imm : BitVec 16) (k : BitVec 4) : VForm :=
  ⟨fmt, fmt2, 0, false, false, k, 3, vs, vt, vu, imm⟩
def mf (v : BitVec 6) (sa sb sc : BitVec 5) (opt : BitVec 3) (sub : BitVec 4) (imm : BitVec 28) : MForm :=
  ⟨v, sa, sb, sc, opt, sub, imm⟩
/-- The slots of a bundle that loads a word of the drawer and adds. -/
def slots (j : Nat) : Word :=
  if j = 0 then BitVec.ofNat 64 (5 * 2 ^ 56 + 9 * 2 ^ 51 + 2 * 2 ^ 46 + 1 * 2 ^ 41)
  else if j = 1 then BitVec.ofNat 64 (34 * 2 ^ 56 + 10 * 2 ^ 50 + 1 * 2 ^ 45) else if j = 2 then BitVec.ofNat 64 (78 * 2 ^ 56)
  else BitVec.ofNat 64 (128 * 2 ^ 56)
/-- A translation of the first 2 MiB for context 0, to node 0x0002. -/
def page : TlbEntry := ⟨0, 0, 0x200000, 0x200000, 2, 0x400000, 7, []⟩
def mapped : State := run.modStack 0 (fun k => { k with tlb := [page] })
/-- Benches 0 and 1 of stack 0 carry job 9, and bench 0 is as given. -/
def joined (x : Bench) : State :=
  ((live.modBench 0 0 (fun _ => x)).setFld (.BCH_BENCH_CFG 0 0) BCH_BENCH_CFG_JOB 9).setFld
    (.BCH_BENCH_CFG 0 1) BCH_BENCH_CFG_JOB 9
def oneCtx : Bench := { Bench.reset with ctxs := [(0, busy)] }
def grain : List Byte := (List.range 256).map (BitVec.ofNat 8)
/-- Context 0 of bench 0 has something to wait for, and a granule comes to it from bench 1. -/
def onLink (ws : List Wait) (f : Bench → Bench) : State :=
  (joined (f { Bench.reset with ctxs := [(0, { busy with waits := ws })] })).modBench 0 1
    (fun x => { x with flight := [(3, [grain])] })
/-- A request that has been answered: its reply is to be written to scalar register 5. -/
def req : Req :=
  { id := 1, src := .ctx 0 0, acc := 1, op := 1, param := 7, xctx := 0, va := 0, len := 8, payload := []
    st := .done, node := 2, offset := 0x400000, seq := 0, firstSent := 0, resends := 0, dest := 5, destOff := 0
    span := 0, offers := [], bad := false, reply := [1, 2, 3, 4, 5, 6, 7, 8], poisoned := false }
/-- The runtime of stack 0 runs, and its core 2 is in a state. -/
def cored (st : Nat) : State :=
  ((live.setBit (.HCORE_BOOT 0) HCORE_BOOT_RUNNING true).setFld (.HCORE_CORE 0 2) HCORE_CORE_STATE st)
def later (s : State) : State := { s with now := 10000000000 }
/-- Word 0 of a descriptor of version 4 for stack 0. -/
def word0 (op : Nat) : Word := BitVec.ofNat 64 (op * 2 ^ 56 + 4 * 2 ^ 52)
/-- Descriptor 1, from host ring 0, with its words after the first. -/
def desc (op : Nat) (ws : List Word) : Desc :=
  { handle := 1, ring := .host 0, index := 0, words := word0 op :: ws, stack := 0, xctx := 0, st := .started
    phase := .idle, data := [], waits := [], status := 0, detail := 0, segs := [], before := [], order := 0, engine := 0
    startNo := 0, since := 0 }
/-- A segment of an operand word, on node 2. -/
def seg (word len : Nat) : Seg := ⟨word, 0x1000, len, 2, 0x400000, 7, 0x200000⟩
def ringed : State :=
  (live.setReg (.HOSTIF_RING_CFG 0)
    (setF (setF (setF 0 HOSTIF_RING_CFG_VER 4) HOSTIF_RING_CFG_STACKS 1) HOSTIF_RING_CFG_SIZE 16)).modRing 0
      (fun x => { x with size := 16 })
def given (d : Desc) : State := { ringed with host := { ringed.host with descs := [d], nextHandle := 2 } }
def posted : State :=
  { ringed.setFld (.HOSTIF_RING_IDX 0) HOSTIF_RING_IDX_POSTED 1 with
    hostMem := Mem.writeBytes [] 0 (leBytes 8 (word0 0x0E).toNat) }
def devRing : State :=
  let s := (cored 1).setReg (.HCORE_DRING_CFG 0 7) (setF 0 HCORE_DRING_CFG_SIZE 64)
  (s.setReg (.HCORE_DRING_IDX 0 7) (setF 0 HCORE_DRING_IDX_TAIL 3)).modStack 0
    (fun k => { k with sram := Mem.writeBytes [] 0 (leBytes 8 (word0 0x0E).toNat) })
/-- A header of an image of two bundles that starts contexts 0 and 7, context 7 at bundle 1, and its bundles. -/
def image : List Byte := leBytes 8 0x810002 ++ leBytes 8 0 ++ leBytes 8 (2 ^ 48) ++ zeros 104
def launch : Desc := { desc 3 [0x1000, BitVec.ofNat 64 (9 * 2 ^ 48 + 2 ^ 16), 7] with segs := [seg 1 64] }
def launched : Desc := { launch with data := image, st := .running, phase := .held }
/-- A LAUNCH that has read the header of its image and awaits the bundles. -/
def fetched : Desc := { launched with phase := .source, data := image.take 64 }
def lastRead : Req :=
  { req with src := .ring (.host 0) 1, acc := 1, op := 1, st := .sent, seq := 9, node := 0x4B51, len := 64, reply := [] }
def lastCome (d : Desc) : State := (given d).modStack 0 (fun k => { k with reqs := [lastRead] })
/-- Context 0 of benches 0 and 1 as a LAUNCH left it: ended. -/
def ended : State :=
  let x : Ctx := { Ctx.reset with st := .halted, cause := 1, launch := 1 }
  ((((given launched).setCtx ⟨0, 0, 0⟩ x).setCtx ⟨0, 0, 7⟩ x).setCtx ⟨0, 1, 0⟩ x).setCtx ⟨0, 1, 7⟩ x
def bench9 (s : State) : State :=
  (s.setFld (.BCH_BENCH_CFG 0 0) BCH_BENCH_CFG_JOB 9).setFld (.BCH_BENCH_CFG 0 1) BCH_BENCH_CFG_JOB 9
/-- Bench 0 of stack 0 is in the defect list. -/
def vacated (s : State) : State := { s with boot := { s.boot with defects := [unitEntry ⟨kindBench, 0, 0⟩ 1 0] } }
/-- A LAUNCH whose first bundle adds int32 lanes. -/
def needsInt : Desc :=
  { launched with phase := .source, data := image.take 64 ++ zeros 16 ++ leBytes 8 (0x40 * 2 ^ 56 + 7 * 2 ^ 52) ++ zeros 40 }
def spanOut : SpanOut := live.newSpan (desc 9 [0x4B51 * 2 ^ 48, 3 * 2 ^ 48 + 4096, 64 * 2 ^ 48, 335 * 2 ^ 16, 8])
def spanned (x : SpanOut) (d : Desc) : State :=
  (given d).modStack 0 (fun k => { k with spansOut := [x] })
def coll : Desc := desc 4 [0, 0, 64, BitVec.ofNat 64 (5 * 2 ^ 48 + 2 * 2 ^ 32 + 1 * 2 ^ 16 + 4 * 64), 0]
def grp : Group :=
  { id := 5, bound := true, broken := false, members := 2, rank := 1, up := 40, down := 41, count := 255,
    since := 0, refetched := [] }
def grouped (x : Group) (d : Desc) : State := (given d).modStack 0 (fun k => { k with groups := [x] })
/-- Context 0 of bench 0 waits for a walk of page 3. -/
def missed : Req := { req with st := .walking, va := 0x3008, node := 0, offset := 0 }
def missing : State := run.modStack 0 (fun k => { k with misses := [.ctx 0 0 1], reqs := [missed] })
def walk : Walk := ⟨0, 3, 0, [.ctx 0 0 1]⟩
/-- Its walk is under way, with the last level's table at 0x8000, which maps the page to node 2. -/
def walking : State :=
  (run.setBit (.XLT_CTX 0 0) XLT_CTX_ENABLE true).modStack 0 (fun k =>
    { k with
      reqs := [missed], walks := [walk], walkCache := [⟨0, 0, 0, 0x8000⟩]
      near := Mem.writeBytes [] 0x8018 (leBytes 8 (2 * 2 ^ 48 + 0x400000 + 0x1F)) })
def fault : Fault8 := ⟨0, 3, 1, 0, 0, 0, 0, [.ctx 0 0 1], none⟩
def faulted (f : Fault8) : State :=
  (((run.modStack 0 (fun k => { k with reqs := [missed], faults := [f] })).setBit (.XLT_CFG 0) XLT_CFG_FQ_ON true).setFld
    (.XLT_CFG 0) XLT_CFG_FQ_BASE 4).setReg (.XLT_FQ_IDX 0) (setF (setF 0 XLT_FQ_IDX_HEAD 3) XLT_FQ_IDX_TAIL 2)
/-- A request to stack 0 from stack 1. -/
def pkt (op param : BitVec 8) (offset : BitVec 48) (payload : List Byte) : Packet :=
  { dst := 0x4B50, src := 0x4B51, cls := 0, vc := 0, colour := 0, mark := false, tenant := 1, poison := false
    via := 0, nonmin := false, hops := 0, gw := 0, op := op, param := param, offset := offset, seq := 9
    payload := payload }
/-- Stack 0 takes requests of its own module, and its near tier holds bytes at 0x100. -/
def open0 : State :=
  { live with keeper := { live.keeper with tenants := [(1, ⟨[], [2410], false⟩)] } }.modStack 0
    (fun k => { k with near := Mem.writeBytes [] 0x100 (grain.drop 1) })
def queued (p : Packet) : State := { open0 with sw := { open0.sw with egress := [(16 * 64, [p])] } }
/-- Ports of the module that are UP. -/
def up (l : List Nat) (s : State) : State :=
  l.foldl (fun t p => t.setFld (.PORT_STATUS p) PORT_STATUS_STATE portUp) s
def sw (f : Switch → Switch) (s : State) : State := { s with sw := f s.sw }
/-- Ports are UP, and rack 12 is reached over some viaducts and gateways. -/
def across (l : List Nat) (via gw : Nat) : State :=
  ((up l open0).setReg (.SWC_RACK_ROUTE_VIA 12)
    (setF (setF 0 SWC_RACK_ROUTE_VIA_VALID 1) SWC_RACK_ROUTE_VIA_VIA via)).setReg (.SWC_RACK_ROUTE_GW 12) (BitVec.ofNat 64 gw)
/-- A request to a stack of rack 12. -/
def far2 : Packet := { pkt 2 0 0 [] with dst := 0x18E0 }
def span9 (x : SpanOut) : State := spanned x (desc 9 [0x4B51 * 2 ^ 48])
def sent : SentFrame := ⟨0, 1, ⟨0, 0, false, 0, 1, leBytes 8 0 ++ [1, 2, 3, 4]⟩, 0⟩
def spanIn : SpanIn :=
  { src := 0x4B51, id := 3, base := 0x100, epoch := 15, applied := 0xFFFFFFFF, sinceAck := 14, ackFrom := 1
    drain := none, waiting := [], broken := false }
def lastHop : SpanEntry := ⟨65, 4, 64, 6, 1, 16, 0x4B51, 3, false⟩
def arrived (f : Frame) : State :=
  sw (fun w => { w with frames := [(64, [f])], spanTab := [lastHop] })
    (open0.modStack 0 (fun k => { k with spansIn := [spanIn] }))
def data6 : Frame := ⟨6, 0, false, 15, 1, leBytes 8 0x10 ++ [1, 2, 3, 4]⟩
def drain6 : Frame := ⟨6, 1, false, 15, 1, leBytes 4 0xFFFFFFFF ++ zeros 4⟩
/-- A multicast entry from stack 0 to stacks 1 and 2. -/
def copies : Trestle :=
  { newTrestle 8 ⟨2, 0, false, true, false, 64, 5, []⟩ with
    committed := true, items := [.branch 65 7 0x800000, .branch 66 8 0x800000, .reserve 64 1] }
/-- A reduction entry of two inputs, from stacks 0 and 1, that sends to stack 2. -/
def sums : Trestle :=
  { newTrestle 8 ⟨2, 1, false, true, false, 0, 0, []⟩ with
    committed := true
    items := [.input 64 5 0 0x800000, .input 65 6 1 0x800000, .node 0 0 1, .branch 66 8 0x800000, .reserve 64 1] }
/-- A chunk frame of the data round of group 5, of two binary32 elements. -/
def chunk (label : BitVec 16) (a b : Nat) : Frame :=
  { chunkFrame (chunkWord0 0 4 0) (5 * 2 ^ 48 + 1 * 2 ^ 40 + 1 * 2 ^ 38) 0 1 (leBytes 4 a ++ leBytes 4 b) with
    label := label }
/-- The same with a check sum that is wrong. -/
def torn6 : Frame :=
  { chunk 6 1 2 with payload := (chunk 6 1 2).payload.take 24 ++ zeros 8 ++ (chunk 6 1 2).payload.drop 32 }
/-- What a reduction holds of such a frame. -/
def held (num : Nat) (a b : Lane) : HeldInput :=
  { num := num, chunk := BitVec.ofNat 64 (5 * 2 ^ 48 + 1 * 2 ^ 40 + 1 * 2 ^ 38), position := 0, e0 := 0
    redop := 0, isInt := false, incomplete := false, failed := false, tenant := 1, elems := [a, b]
    len := 1, isLast := some true, cells := 1 }
def full : Trestle := { sums with inputs := [held 0 0x3F800000 2, held 1 0x40000000 3] }
/-- Collective 1 of group 5, of 64 binary32 elements between two members, as far as a phase. -/
def collAt (phase expected : Nat) : Coll :=
  { newColl { coll with handle := 1 } 0 with inst := 1, phase := phase, expected := expected }
def collDesc : Desc := { coll with st := .running, phase := .held, segs := [seg 1 256, { seg 2 256 with offset := 0x2000 }] }
def inColl (g : Group) (c : Coll) (l : List Frame) : State :=
  let s := { open0 with host := { open0.host with descs := [collDesc], nextHandle := 2 } }
  sw (fun w => { w with frames := [(64, l)] })
    (s.modStack 0 (fun k => { k with groups := [g], colls := [c] }))
/-- A chunk frame of group 5 on its down label. -/
def down (round position : Nat) (data : List Byte) : Frame :=
  { chunkFrame (chunkWord0 0 4 0) (5 * 2 ^ 48 + 1 * 2 ^ 40 + round * 2 ^ 38 + position * 2 ^ 32) 0 1 data with
    label := 41 }
/-- The header chunk of two members whose lanes agree, or do not, with its CRC-64 written out. -/
def lanesFrame (agree : Bool) : Frame :=
  let f := down 0 0 ((List.range 7).flatMap (fun k => leBytes 4 k) ++ leBytes 4 0
    ++ (List.range 7).flatMap (fun k => leBytes 4 (laneMask - k - (if agree then 0 else 1))) ++ leBytes 4 0)
  { f with payload := f.payload.take 24
             ++ le8 (if agree then 6220514019999997194 else 17224818178534371988) ++ f.payload.drop 32 }
/-- The bytes that the CRC-64 of that chunk covers. -/
def lanesCrc (agree : Bool) : List Byte := (lanesFrame agree).payload.take 24 ++ chunkData (lanesFrame agree)
theorem crc_of_halves (l r : List Byte) (m v : Word) (h : l.foldl crcByte (BitVec.allOnes 64) = m)
    (k : ~~~(r.foldl crcByte m) = v) : crc64 (l ++ r) = v := by
  rw [crc64, List.foldl_append, h, k]
theorem lanes_crc (agree : Bool) : crc64 (lanesCrc agree)
    = if agree then 6220514019999997194 else 17224818178534371988 := by
  rw [← List.take_append_drop 44 (lanesCrc agree)]
  refine crc_of_halves _ _ 7604004013167518611 _ ?_ ?_ <;> cases agree <;> decide +kernel
theorem lanes_crc_ok (agree : Bool) : chunkCrcOk (lanesFrame agree) = true := by
  have h : chunkCrc ((lanesFrame agree).payload.take 24) (chunkData (lanesFrame agree))
      = if agree then 6220514019999997194 else 17224818178534371988 := lanes_crc agree
  unfold chunkCrcOk
  rw [h]
  cases agree <;> decide +kernel
def row0 : RowId := ⟨0, false, false, 0, 0, 0⟩
/-- The row that line 0 of the near tier of stack 0 lies in. -/
def rowOfLine0 : RowId :=
  { row0 with bank := BitVec.ofNat 6 (bankRow 0 false 0 / 2 ^ 19), row := BitVec.ofNat 19 (bankRow 0 false 0) }
def repairing0 : State := live.modStack 0 (fun k => { k with repairing := [rowOfLine0] })
theorem line0_in_row : repairing0.linesInRow rowOfLine0 [0] = [0] := by
  have hk : rowKey 0 false 0 = rowIdKey rowOfLine0 := by
    have h0 : linePosition false 0 = 0 := by decide
    have h1 : lineChannel false 0 = 0 := by decide
    have split : ∀ x : Nat, x % 2 ^ 25 = x % 2 ^ 25 / 2 ^ 19 % 2 ^ 6 * 2 ^ 19 + x % 2 ^ 25 % 2 ^ 19 := by
      intro x; omega
    have hb : rowIdKey rowOfLine0 = 0 * 2 ^ 33 + 0 * 2 ^ 32 + 0 * 2 ^ 25 + bankRow 0 false 0 / 2 ^ 19 % 2 ^ 6 * 2 ^ 19
        + bankRow 0 false 0 % 2 ^ 19 := by
      rw [rowIdKey, show rowOfLine0.bank.toNat = _ from BitVec.toNat_ofNat _ _,
        show rowOfLine0.row.toNat = _ from BitVec.toNat_ofNat _ _,
        show boolNat rowOfLine0.far = 0 from rfl, show boolNat rowOfLine0.position = 0 from rfl,
        show rowOfLine0.channel.toNat = 0 from rfl]
    have ha : rowKey 0 false 0 = 0 * 2 ^ 33 + 0 * 2 ^ 32 + 0 * 2 ^ 25 + bankRow 0 false 0 := by
      rw [rowKey, h0, h1]; rfl
    rw [ha, hb]
    have := split (Config.rowOf 0 false 0)
    unfold bankRow
    omega
  have hs : decide (0 * lineSize < repairing0.tierSize 0 false) = true := by decide +kernel
  have hc : (decide (0 * lineSize < repairing0.tierSize rowOfLine0.stack rowOfLine0.far)
      && rowKey rowOfLine0.stack rowOfLine0.far 0 == rowIdKey rowOfLine0) = true :=
    Bool.and_eq_true_iff.mpr ⟨hs, beq_iff_eq.mpr hk⟩
  exact List.filter_cons_of_pos hc
theorem below8Up {s : State} {P : Nat → Prop} (h : ∀ n, n < 8 → s.stackUp n = true → P n) :
    ∀ n, s.stackUp n = true → P n := fun n hu =>
  h n (of_decide_eq_true (Bool.and_eq_true_iff.mp (Bool.and_eq_true_iff.mp hu).1).1) hu
theorem below8 {s : State} {P : Nat → Prop} (h : ∀ n, n < 8 → s.stackPresent n = true → P n) :
    ∀ n, s.stackPresent n = true → P n := fun n hp =>
  h n (of_decide_eq_true (Bool.and_eq_true_iff.mp hp).1) hp
/-- A step of start-up, with its cause. -/
def inStep (k cause : Nat) (s : State) : State :=
  ({ s with boot := { s.boot with powered := true } }).setReg .CAP_START
    (setF (setF 0 CAP_START_STEP k) CAP_START_CAUSE cause)
def powered : State := { State.reset with boot := { State.reset.boot with powered := true, i3cOn := true } }
/-- Port 8 in a state, with its record as given. -/
def port8 (st : Nat) (f : Port → Port) : State := (live.setFld (.PORT_STATUS 8) PORT_STATUS_STATE st).modPort 8 f
def flit : Flit := ⟨0, 0, 0, false, false, 0, 0x1FF, 15, 0, 0, false, true, true, 0, [], none⟩
def tx (sends : Nat) : TxFlit := ⟨0, sends, 0, false, 15, 0, 0, 0x1FF, false, [], []⟩
def hold1 (cap : Bool) : Held := ⟨cap, 400, 0x500, 7⟩
def heldNow (cap : Bool) : State := { live with beat := { live.beat with count := 0x600, loaded := true }, power := { live.power with held := [hold1 cap] } }
def good8 : List LaneResult := (List.range 8).map (fun i => ⟨BitVec.ofNat 3 i, false, true, true⟩)
def lost : State :=
  (live.setBit .BEAT_STATUS BEAT_STATUS_LOST true).setBit .BEAT_STATUS BEAT_STATUS_RELOCK false
def port16 (st : Nat) (f : Port → Port) : State := (live.setFld (.PORT_STATUS 16) PORT_STATUS_STATE st).modPort 16 f
/-- Port 8 is UP at JFP 3 and the beat is loaded. -/
def linked : State :=
  let s := (port8 6 id).setFld (.PORT_STATUS 8) PORT_STATUS_JFP 3
  { s with beat := { s.beat with loaded := true, count := 0x1000 } }
def lostAt (f : Beat → Beat) : State :=
  { lost with now := 200 * 75200000, beat := f { lost.beat with loaded := true } }
/-- A command page of tenant 1, for the stacks of a mask, in host memory at 0x1000. -/
def paged (mask : Nat) : State :=
  { (live.setReg (.SEC_TENANT 1) (setF (setF 0 SEC_TENANT_BOUND 1) SEC_TENANT_STACKS 1)) with
    hostMem := Mem.writeBytes [] 0x1000 [1, BitVec.ofNat 8 mask] }
def cmd (code : Nat) : Word := setF (setF (setF 0 SEC_CMD_GO 1) SEC_CMD_CODE code) SEC_CMD_ADDR 1
/-- RELEASE of stack 0 stands at a step. -/
def releasing (k : Nat) : State :=
  let s := (paged 1).setFld .SEC_STACK (secStateField 0) 2
  { (s.setBit .SEC_CMD SEC_CMD_BUSY true).modStack 0 (fun x => { x with releasing := k }) with
    keeper := { s.keeper with releaseMask := 1 } }
def weights (pages : Nat) : State := live.modStack 0 (fun k => { k with weights := some ⟨0x1000, pages⟩ })
/-- Debug is open in band, or over JTAG with the access chain. -/
def debugIn : State := (live.setReg .SEC_DEBUG (setF 0 SEC_DEBUG_OPEN 1)).setReg .SEC_STATUS (setF 0 SEC_STATUS_DEBUG_OPEN 1)
def debugJtag : State :=
  let s := live.setReg .SEC_STATUS (setF (setF 0 SEC_STATUS_DEBUG_JTAG 1) SEC_STATUS_DEBUG_OPEN 1)
  { s with keeper := { s.keeper with jtagIr := 0x10 } }
def acc (space : Nat) (write : Nat) (stack addr : Nat) : Word :=
  setF (setF (setF (setF (setF 0 SEC_DEBUG_ACCESS_CTL_GO 1) SEC_DEBUG_ACCESS_CTL_SPACE space)
    SEC_DEBUG_ACCESS_CTL_WRITE write) SEC_DEBUG_ACCESS_CTL_STACK stack) SEC_DEBUG_ACCESS_CTL_ADDR addr
def dataOf (v : Word) (s : State) : State := s.setReg .SEC_DEBUG_ACCESS_DATA v
/-- Job 9 runs on bench 0 of stack 0 in context 0. -/
def job9 : State := run.setFld (.BCH_BENCH_CFG 0 0) BCH_BENCH_CFG_JOB 9
def tear : Tear := ⟨9, 5, true⟩
/-- Stack 0 may shadow and rebuild, with module 0x25A of its tenant's peers. -/
def recover (role : Nat) (f : Shadow → Shadow) : State :=
  let s := (live.setBit (.ABT_RECOVERY 0) ABT_RECOVERY_RECOVERY_OK true).setFld (.ABT_RECOVERY 0) ABT_RECOVERY_ROLE role
  { s with keeper := { s.keeper with tenants := [(1, ⟨[], [modulePos 0x4B60], false⟩)] } }.modStack 0
    (fun k => { k with shadow := f k.shadow })
def shadowSet : ShadowSet := ⟨0, 1, 0x4B60, 9, 0x100, 0, 0, 3⟩
def region (len : Nat) : RegionReq := ⟨77, 0, 0, 0x100, len, 0x4B60, 0x200⟩
def rebuilding (b : Rebuild) : State := (recover 0 id).modStack 0 (fun k => { k with rebuilds := [b], near := Mem.writeBytes [] 0x100 grain })

/-! ### Well-formedness: an ill-formed term for each check, and the same commands well formed -/

def frame0 : Frame := ⟨0, 0, false, 0, 0, List.replicate 8 0⟩
def set0 : TrestleSet := ⟨0, 0, false, false, false, 0, 0, List.replicate 6 .unused⟩

theorem test_well_formed_1 : ([.registerWrite .bar0 (.one ⟨false, 0, 8, 0⟩), .beatEdge 0 0, .beatSet ⟨0x30, []⟩ false, .rackSet ⟨0x30, []⟩ false, .lockedSet,
     .beatCheckSend 0, .beatCheck 0 0 0, .beatCheckLapse 0, .beatGapTimeout 0, .beatFreqWindow, .lostLimitExpire 0,
     .beatReturnCompare, .cvt c0 (vf 4 0 1 2 3 0 0), .cvtb c0 (vf 4 0 1 2 3 0 0), .cvtu c0 (vf 4 0 1 2 3 0 0),
     .bundleIssue 0 0, .nop c0, .sli c0 sf, .slih c0 sf, .sadd c0 sf, .saddi c0 sf, .ssub c0 sf, .smul c0 sf,
     .sand c0 sf, .sor c0 sf, .sxor c0 sf, .sshl c0 sf, .sshr c0 sf, .scmplt c0 sf, .jmp c0 sf, .brz c0 sf,
     .brnz c0 sf, .waitf c0 sf, .waitfRelease c0, .waitb c0 sf, .waitbRelease c0, .getf c0 sf, .getid c0 sf,
     .yield c0 sf, .halt c0 sf, .haltComplete c0, .vld c0 (mf 1 1 2 3 0 0 0), .vst c0 (mf 1 1 2 3 0 0 0),
     .sld c0 (mf 1 1 2 3 0 0 0), .sst c0 (mf 1 1 2 3 0 0 0), .fld c0 (mf 1 1 2 3 0 0 0), .fst c0 (mf 1 1 2 3 0 0 0),
     .fstk c0 (mf 1 1 2 3 0 0 0), .fatom c0 (mf 1 1 2 3 0 0 0), .facc c0 (mf 1 1 2 3 0 0 0)] : List Instr).all
    (fun i => i.wf) = true := by decide +kernel

theorem test_well_formed_2 : ([.ffence c0 (mf 1 1 2 3 0 0 0), .ffenceComplete c0, .lsend c0 (mf 1 1 2 3 0 0 0), .lrecv c0 (mf 1 1 2 3 0 0 0),
     .lsendd c0 (mf 1 1 2 3 0 0 0), .lrecvd c0 (mf 1 1 2 3 0 0 0), .granuleArrive 0 0 0 false, .creditReturn 0 0 0,
     .vadd c0 (vf 4 0 1 2 3 0 0), .vsub c0 (vf 4 0 1 2 3 0 0), .vmul c0 (vf 4 0 1 2 3 0 0),
     .vfma c0 (vf 4 0 1 2 3 0 0), .vdiv c0 (vf 4 0 1 2 3 0 0), .vsqrt c0 (vf 4 0 1 2 3 0 0),
     .vmin c0 (vf 4 0 1 2 3 0 0), .vmax c0 (vf 4 0 1 2 3 0 0), .vcmpeq c0 (vf 4 0 1 2 3 0 0),
     .vcmplt c0 (vf 4 0 1 2 3 0 0), .vcmple c0 (vf 4 0 1 2 3 0 0), .vsel c0 (vf 4 0 1 2 3 0 0),
     .vabs c0 (vf 4 0 1 2 3 0 0), .vneg c0 (vf 4 0 1 2 3 0 0), .vand c0 (vf 4 0 1 2 3 0 0),
     .vor c0 (vf 4 0 1 2 3 0 0), .vxor c0 (vf 4 0 1 2 3 0 0), .vshl c0 (vf 4 0 1 2 3 0 0),
     .vshr c0 (vf 4 0 1 2 3 0 0), .vmovs c0 (vf 4 0 1 2 3 0 0), .vperm c0 (vf 4 0 1 2 3 0 0),
     .vbcast c0 (vf 4 0 1 2 3 0 0), .vrsum c0 (vf 4 0 1 2 3 0 0), .vrmax c0 (vf 4 0 1 2 3 0 0),
     .vexp2 c0 (vf 4 0 1 2 3 0 0), .vlog2 c0 (vf 4 0 1 2 3 0 0), .vrcpa c0 (vf 4 0 1 2 3 0 0),
     .vrsqa c0 (vf 4 0 1 2 3 0 0), .vtanh c0 (vf 4 0 1 2 3 0 0), .vsigm c0 (vf 4 0 1 2 3 0 0),
     .vext c0 (vf 4 0 1 2 3 0 0), .azero c0 ⟨0, 0, 0, false, false, 1, 2, 3, 4⟩,
     .amma c0 ⟨0, 0, 0, false, false, 1, 2, 3, 4⟩, .adrain c0 ⟨0, 0, 0, false, false, 1, 2, 3, 4⟩,
     .aload c0 ⟨0, 0, 0, false, false, 1, 2, 3, 4⟩, .ctxWatchdogExpire c0, .wdogIntervalWrite .bar0 0 0,
     .resume .bar0 c0, .kill .bar0 c0, .killedDrained c0, .fabricReplyToContext 0 0, .jobWrite .bar0 0 0 0] : List Instr).all
    (fun i => i.wf) = true := by decide +kernel

theorem test_well_formed_3 : ([.clockEvaluation [], .applyClockStep 0, .reseatGo .bar0 0, .reseatDone 0, .runtimeGo .bar0 0 0,
     .runtimeCopyDone 0, .coreAccess 0 0 .load 0 0 0 0, .coreWdogWarn 0 0, .coreWdogHung 0 0, .kick .bar0 0 0,
     .restart .bar0 0 0, .dringCfgWrite .bar0 0 0 0, .dringDoorbell .bar0 0 0 0, .ringEnable .bar0 0 0,
     .ringDisable .bar0 0 0, .doorbellSnoop 0 [], .doorbellReadDone 0 false, .doorbellPoll 0,
     .descriptorFetch (.host 0) false, .descriptorStart 0, .copy 0, .fill 0, .launch 0, .launchComplete 0,
     .collective 0, .fence 0, .keystone 0, .waitBeat 0, .waitBeatRelease 0, .atBeat 0, .atBeatRelease 0,
     .spanOpen 0, .spanClose 0, .snapshot 0, .snapshotStart 0, .attest 0, .invalidate 0, .nopDescriptor 0,
     .completionWrite 0 false, .walkStart 0 0, .walkComplete 0 0 0, .heldFaultWrite 0, .faultRetry .bar0 0 0,
     .faultFail .bar0 0 0, .fqCfgWrite .bar0 0 0, .contextWrite .bar0 0 0 0, .shootdownDrainDone 0 0,
     .load 0 (pkt 2 0 0 []), .store 0 (pkt 2 0 0 []), .routedKeystone 0 (pkt 2 0 0 [])] : List Instr).all
    (fun i => i.wf) = true := by decide +kernel

theorem test_well_formed_4 : ([.atomic 0 (pkt 2 0 0 []), .accum 0 (pkt 2 0 0 []), .lineServe 0 0, .ack 0 (pkt 2 0 0 []),
     .data 0 (pkt 2 0 0 []), .atomicReply 0 (pkt 2 0 0 []), .keystoneRelease 0 0, .resendTimer 0 0, .deadTimer 0 0,
     .dead 0 (pkt 2 0 0 []), .cwinCfgWrite .bar0 0 0, .cwinDrainDone 0, .invalAck 0 (pkt 2 0 0 []),
     .invalResendTimer 0 0, .resetMax .bar0 0, .packetForward 0, .egressCharge 0 0, .requestInject 0 0,
     .throttleAdjust 0, .spanGrant 0 0 0 0 0, .spanRefuse 0 0 0 0, .spanGrantTimeout 0 0, .spanActivate 0 0,
     .spanCloseBeat 0 0, .spanEntrySet 0 ⟨0, 0, 0, 0, 0, 0, 0, 0⟩, .spanEntryClear 0 0 0,
     .spanFrameForward 0 frame0, .spanFrame 0 frame0 false, .drainMarker 0 ⟨frame0, false⟩, .spanAckTimer 0 0 0,
     .spanAck 0 (pkt 2 0 0 []), .spanSyncTimer 0 0, .spanSync 0 (pkt 2 0 0 []), .syncReply 0 (pkt 2 0 0 []),
     .spanReroute 0 0 0 0 0 0, .spanBroken 0 (pkt 2 0 0 []), .spanPauseTimeout 0 0, .auditPassEnd [] [] [] [],
     .trestleEntrySet 0 0 set0, .trestleEntryClear 0 0 0, .fenceSet 0 0, .fenceClear 0 0, .multicastFrame 0 frame0,
     .trestleInputFrame 0 0 0 frame0, .reductionEvaluate 0 0, .groupGrant 0 0 0 0 0, .groupRefuse 0 0 0 0,
     .groupRequestTimeout 0 0, .groupClear 0 0 0, .headerResult 0 frame0] : List Instr).all
    (fun i => i.wf) = true := by decide +kernel

theorem test_well_formed_5 : ([.dataRoundStart 0 0, .chunkFrame 0 frame0, .tallySend 0 0, .tallyResult 0 frame0, .collectiveLimitExpire 0 0,
     .rowRepair row0, .rowRepairDone row0 [] [], .patrolScrub 0 false 0 0, .zeroScrubDone 0,
     .flitReceive 0 flit, .replay 0, .keyChange 0, .keyChangeTimeout 0, .errorRateWindow 0, .portTrainStart 0,
     .cableBringupDone 0 .none, .dcCheck 0 [] false, .crossRecheck 0 0 ⟨[], false⟩, .equaliseDone 0 [],
     .paramsDone 0 0 0 0 0 .x false [], .checkDone 0 0, .trainStateTimeout 0, .trainBackoffExpire 0, .portDown 0 0,
     .retrain .bar0 0 0, .hold .bar0 0 0, .cableFlagPoll 0 false false 0, .powerGood 0 0 0 0,
     .keeperBoot false false false [], .stacksOutOfReset, .knownAnswerTestsDone [] false,
     .defectMergeDone false false, .tierTrainingDone [], .portTrainingStepEnd false, .measurementsRecorded,
     .capRecoveryGo .bar0 0, .recoveryImageCheck 0 false false, .unitFailure ⟨1, 0, 0⟩, .defectEntryWritten,
     .switchFail, .sagSet 0 0, .sagClear 0 0, .undervoltageReset 0 0, .epo 0, .epoRelease, .shedAssert 0,
     .shedRelease, .powerEvaluation 0 0 [⟨0, 0, 5⟩] 0 [] (List.replicate 48 0), .capAt ⟨0x30, []⟩ false, .rampAt ⟨0x30, []⟩ false] : List Instr).all
    (fun i => i.wf) = true := by decide +kernel

theorem test_well_formed_6 : ([.lease ⟨0x30, []⟩ false, .capTakesEffect 0, .rampTakesEffect 0, .leaseLapse, .thermalTrip 0, .statusRead,
     .i3cCcc .rstdaa, .bind 0, .release 0, .releaseDone 0, .certs 0, .weightsGo .bar0 0 0, .weightsDigestDone 0,
     .throttleWindowEnd 0, .debugOpen .sec 0, .debugClose (.trst false) 0, .debugRegisterAccess 0, .debugTierAccess 0,
     .debugContextStop 0, .debugContextRelease 0, .debugContextRead 0, .jtagUpdateDr 0 0, .noticeResendTimer,
     .noticeAck 0 0, .teardown 0 0 0, .teardownComplete 0 0, .clearDead 0 0 0, .shadowSet 0 shadowSet,
     .shadowDigest 0 0 0 0, .shadowSwap 0 0 0, .shadowSwapBeat 0, .rebuild 0 (region 64), .rebuildDone 0 0,
     .digestReq 0 (region 64), .digestDone 0 0, .quietClear .bar0 0, .regWrite 0 0 0 0, .ucieModuleDrop 0,
     .hartStart 0 0 (.start 0 0), .flitSend 0, .spanFrameSend 0 0, .chunkRefetch 0 0, .unknownSidebandMessage 0 ⟨0x30, []⟩ false] : List Instr).all
    (fun i => i.wf) = true := by decide +kernel

theorem test_ill_formed_1 : ([.registerWrite (.core 8 0) (.one ⟨false, 0, 8, 0⟩),
     .registerWrite .bar0 (.together ⟨true, 0, 8, 0⟩ [(.core 0 8, ⟨true, 0, 8, 0⟩)]),
     .registerWrite .bar0 (.together ⟨true, 0, 8, 0⟩ [(.fm, ⟨true, 8, 8, 0⟩)]), .beatSet ⟨0x30, List.replicate 65 0⟩ false,
     .rackSet ⟨0x30, List.replicate 65 0⟩ false, .beatCheckSend 36, .beatCheck 36 0 0, .beatCheck 0 0 256,
     .beatCheckLapse 36, .cvt ⟨8, 0, 0⟩ (vf 4 0 1 2 3 0 0), .cvtb ⟨8, 0, 0⟩ (vf 4 0 1 2 3 0 0),
     .cvtu ⟨8, 0, 0⟩ (vf 4 0 1 2 3 0 0), .bundleIssue 8 0, .bundleIssue 0 336, .nop ⟨8, 0, 0⟩, .sli ⟨8, 0, 0⟩ sf,
     .slih ⟨8, 0, 0⟩ sf, .sadd ⟨8, 0, 0⟩ sf, .saddi ⟨8, 0, 0⟩ sf, .ssub ⟨8, 0, 0⟩ sf, .smul ⟨8, 0, 0⟩ sf,
     .sand ⟨8, 0, 0⟩ sf, .sor ⟨8, 0, 0⟩ sf, .sxor ⟨8, 0, 0⟩ sf, .sshl ⟨8, 0, 0⟩ sf, .sshr ⟨8, 0, 0⟩ sf,
     .scmplt ⟨8, 0, 0⟩ sf, .jmp ⟨8, 0, 0⟩ sf, .brz ⟨8, 0, 0⟩ sf, .brnz ⟨8, 0, 0⟩ sf, .waitf ⟨8, 0, 0⟩ sf,
     .waitfRelease ⟨8, 0, 0⟩, .waitb ⟨8, 0, 0⟩ sf, .waitbRelease ⟨8, 0, 0⟩, .getf ⟨8, 0, 0⟩ sf, .getid ⟨8, 0, 0⟩ sf,
     .yield ⟨8, 0, 0⟩ sf, .halt ⟨8, 0, 0⟩ sf, .haltComplete ⟨8, 0, 0⟩, .vld ⟨8, 0, 0⟩ (mf 1 1 2 3 0 0 0),
     .vst ⟨8, 0, 0⟩ (mf 1 1 2 3 0 0 0), .sld ⟨8, 0, 0⟩ (mf 1 1 2 3 0 0 0), .sst ⟨8, 0, 0⟩ (mf 1 1 2 3 0 0 0),
     .fld ⟨8, 0, 0⟩ (mf 1 1 2 3 0 0 0), .fst ⟨8, 0, 0⟩ (mf 1 1 2 3 0 0 0), .fstk ⟨8, 0, 0⟩ (mf 1 1 2 3 0 0 0),
     .fatom ⟨8, 0, 0⟩ (mf 1 1 2 3 0 0 0), .facc ⟨8, 0, 0⟩ (mf 1 1 2 3 0 0 0), .ffence ⟨8, 0, 0⟩ (mf 1 1 2 3 0 0 0),
     .ffenceComplete ⟨8, 0, 0⟩, .lsend ⟨8, 0, 0⟩ (mf 1 1 2 3 0 0 0), .lrecv ⟨8, 0, 0⟩ (mf 1 1 2 3 0 0 0)] : List Instr).all
    (fun i => !i.wf) = true := by decide +kernel

theorem test_ill_formed_2 : ([.lsendd ⟨8, 0, 0⟩ (mf 1 1 2 3 0 0 0), .lrecvd ⟨8, 0, 0⟩ (mf 1 1 2 3 0 0 0), .granuleArrive 8 0 0 false,
     .granuleArrive 0 336 0 false, .granuleArrive 0 0 4 false, .creditReturn 8 0 0, .creditReturn 0 336 0,
     .creditReturn 0 0 4, .vadd ⟨8, 0, 0⟩ (vf 4 0 1 2 3 0 0), .vsub ⟨8, 0, 0⟩ (vf 4 0 1 2 3 0 0),
     .vmul ⟨8, 0, 0⟩ (vf 4 0 1 2 3 0 0), .vfma ⟨8, 0, 0⟩ (vf 4 0 1 2 3 0 0), .vdiv ⟨8, 0, 0⟩ (vf 4 0 1 2 3 0 0),
     .vsqrt ⟨8, 0, 0⟩ (vf 4 0 1 2 3 0 0), .vmin ⟨8, 0, 0⟩ (vf 4 0 1 2 3 0 0), .vmax ⟨8, 0, 0⟩ (vf 4 0 1 2 3 0 0),
     .vcmpeq ⟨8, 0, 0⟩ (vf 4 0 1 2 3 0 0), .vcmplt ⟨8, 0, 0⟩ (vf 4 0 1 2 3 0 0),
     .vcmple ⟨8, 0, 0⟩ (vf 4 0 1 2 3 0 0), .vsel ⟨8, 0, 0⟩ (vf 4 0 1 2 3 0 0), .vabs ⟨8, 0, 0⟩ (vf 4 0 1 2 3 0 0),
     .vneg ⟨8, 0, 0⟩ (vf 4 0 1 2 3 0 0), .vand ⟨8, 0, 0⟩ (vf 4 0 1 2 3 0 0), .vor ⟨8, 0, 0⟩ (vf 4 0 1 2 3 0 0),
     .vxor ⟨8, 0, 0⟩ (vf 4 0 1 2 3 0 0), .vshl ⟨8, 0, 0⟩ (vf 4 0 1 2 3 0 0), .vshr ⟨8, 0, 0⟩ (vf 4 0 1 2 3 0 0),
     .vmovs ⟨8, 0, 0⟩ (vf 4 0 1 2 3 0 0), .vperm ⟨8, 0, 0⟩ (vf 4 0 1 2 3 0 0), .vbcast ⟨8, 0, 0⟩ (vf 4 0 1 2 3 0 0),
     .vrsum ⟨8, 0, 0⟩ (vf 4 0 1 2 3 0 0), .vrmax ⟨8, 0, 0⟩ (vf 4 0 1 2 3 0 0), .vexp2 ⟨8, 0, 0⟩ (vf 4 0 1 2 3 0 0),
     .vlog2 ⟨8, 0, 0⟩ (vf 4 0 1 2 3 0 0), .vrcpa ⟨8, 0, 0⟩ (vf 4 0 1 2 3 0 0), .vrsqa ⟨8, 0, 0⟩ (vf 4 0 1 2 3 0 0),
     .vtanh ⟨8, 0, 0⟩ (vf 4 0 1 2 3 0 0), .vsigm ⟨8, 0, 0⟩ (vf 4 0 1 2 3 0 0), .vext ⟨8, 0, 0⟩ (vf 4 0 1 2 3 0 0),
     .azero ⟨8, 0, 0⟩ ⟨0, 0, 0, false, false, 1, 2, 3, 4⟩, .amma ⟨8, 0, 0⟩ ⟨0, 0, 0, false, false, 1, 2, 3, 4⟩,
     .adrain ⟨8, 0, 0⟩ ⟨0, 0, 0, false, false, 1, 2, 3, 4⟩, .aload ⟨8, 0, 0⟩ ⟨0, 0, 0, false, false, 1, 2, 3, 4⟩,
     .ctxWatchdogExpire ⟨8, 0, 0⟩, .wdogIntervalWrite (.core 8 0) 0 0, .wdogIntervalWrite .bar0 8 0,
     .resume (.core 8 0) c0, .resume .bar0 ⟨8, 0, 0⟩, .kill (.core 8 0) c0, .kill .bar0 ⟨8, 0, 0⟩] : List Instr).all
    (fun i => !i.wf) = true := by decide +kernel

theorem test_ill_formed_3 : ([.killedDrained ⟨8, 0, 0⟩, .fabricReplyToContext 8 0, .jobWrite (.core 8 0) 0 0 0, .jobWrite .bar0 8 0 0,
     .jobWrite .bar0 0 336 0, .applyClockStep 8, .reseatGo (.core 8 0) 0, .reseatGo .bar0 8, .reseatDone 8,
     .runtimeGo (.core 8 0) 0 0, .runtimeGo .bar0 8 0, .runtimeCopyDone 8, .coreAccess 8 0 .load 0 0 0 0,
     .coreAccess 0 8 .load 0 0 0 0, .coreWdogWarn 8 0, .coreWdogWarn 0 8, .coreWdogHung 8 0, .coreWdogHung 0 8,
     .kick (.core 8 0) 0 0, .kick .bar0 8 0, .kick .bar0 0 8, .restart (.core 8 0) 0 0, .restart .bar0 8 0,
     .restart .bar0 0 8, .dringCfgWrite (.core 8 0) 0 0 0, .dringCfgWrite .bar0 8 0 0, .dringCfgWrite .bar0 0 8 0,
     .dringDoorbell (.core 8 0) 0 0 0, .dringDoorbell .bar0 8 0 0, .dringDoorbell .bar0 0 8 0,
     .ringEnable (.core 8 0) 0 0, .ringEnable .bar0 64 0, .ringDisable (.core 8 0) 0 0, .ringDisable .bar0 64 0,
     .doorbellSnoop 64 [], .doorbellReadDone 64 false, .doorbellPoll 64, .descriptorFetch (.host 64) false,
     .walkStart 8 0, .walkComplete 8 0 0, .walkComplete 0 256 0, .heldFaultWrite 8, .faultRetry (.core 8 0) 0 0,
     .faultRetry .bar0 8 0, .faultFail (.core 8 0) 0 0, .faultFail .bar0 8 0, .fqCfgWrite (.core 8 0) 0 0,
     .fqCfgWrite .bar0 8 0, .contextWrite (.core 8 0) 0 0 0, .contextWrite .bar0 8 0 0] : List Instr).all
    (fun i => !i.wf) = true := by decide +kernel

theorem test_ill_formed_4 : ([.contextWrite .bar0 0 256 0, .shootdownDrainDone 8 0, .load 8 (pkt 2 0 0 []), .store 8 (pkt 2 0 0 []),
     .routedKeystone 8 (pkt 2 0 0 []), .atomic 8 (pkt 2 0 0 []), .accum 8 (pkt 2 0 0 []), .lineServe 8 0,
     .ack 8 (pkt 2 0 0 []), .data 8 (pkt 2 0 0 []), .atomicReply 8 (pkt 2 0 0 []), .keystoneRelease 8 0,
     .resendTimer 8 0, .deadTimer 8 0, .dead 8 (pkt 2 0 0 []), .cwinCfgWrite (.core 8 0) 0 0,
     .cwinCfgWrite .bar0 8 0, .cwinDrainDone 8, .invalAck 8 (pkt 2 0 0 []), .invalResendTimer 8 0,
     .resetMax (.core 8 0) 0, .resetMax .bar0 8, .packetForward 82, .egressCharge 82 0, .egressCharge 0 16,
     .requestInject 8 0, .throttleAdjust 8, .spanGrant 0 8 0 0 0, .spanRefuse 0 8 0 0, .spanGrantTimeout 8 0,
     .spanActivate 8 0, .spanCloseBeat 8 0, .spanEntrySet 0 ⟨256, 0, 0, 0, 0, 0, 0, 0⟩, .spanEntryClear 0 82 0,
     .spanFrameForward 82 frame0, .spanFrameForward 0 { frame0 with payload := [] }, .spanFrame 8 frame0 false,
     .spanFrame 0 { frame0 with payload := [] } false, .drainMarker 8 ⟨frame0, false⟩,
     .drainMarker 0 ⟨{ frame0 with payload := [] }, false⟩, .spanAckTimer 8 0 0, .spanAck 8 (pkt 2 0 0 []),
     .spanSyncTimer 8 0, .spanSync 8 (pkt 2 0 0 []), .syncReply 8 (pkt 2 0 0 []), .spanReroute 0 8 0 0 0 0,
     .spanBroken 8 (pkt 2 0 0 []), .spanPauseTimeout 8 0, .trestleEntrySet 0 9 set0,
     .trestleEntrySet 0 0 { set0 with items := [] }] : List Instr).all
    (fun i => !i.wf) = true := by decide +kernel

theorem test_ill_formed_5 : ([.trestleEntryClear 0 9 0, .multicastFrame 0 { frame0 with payload := [] }, .trestleInputFrame 9 0 0 frame0,
     .trestleInputFrame 0 0 16 frame0, .trestleInputFrame 0 0 0 { frame0 with payload := [] },
     .reductionEvaluate 9 0, .groupGrant 0 8 0 0 0, .groupRefuse 0 8 0 0, .groupRequestTimeout 8 0,
     .groupClear 0 8 0, .headerResult 8 frame0, .headerResult 0 { frame0 with payload := [] }, .dataRoundStart 8 0,
     .chunkFrame 8 frame0, .chunkFrame 0 { frame0 with payload := [] }, .tallySend 8 0, .tallyResult 8 frame0,
     .tallyResult 0 { frame0 with payload := [] }, .collectiveLimitExpire 8 0, .rowRepair { row0 with stack := 8 },
     .rowRepairDone { row0 with stack := 8 } [] [], .patrolScrub 8 false 0 0, .patrolScrub 0 false 0 73, .zeroScrubDone 8,
     .flitReceive 36 flit, .flitReceive 0 { flit with items := [.inr { frame0 with payload := [] }] }, .replay 36,
     .keyChange 36, .keyChangeTimeout 36, .errorRateWindow 36, .portTrainStart 36, .cableBringupDone 36 .none,
     .dcCheck 36 [] false, .dcCheck 0 (List.replicate 2 ⟨true, 0, false, false⟩) false,
     .crossRecheck 36 0 ⟨[], false⟩, .crossRecheck 0 0 ⟨List.replicate 2 ⟨true, 0, false, false⟩, false⟩, .equaliseDone 36 [],
     .equaliseDone 0 (List.replicate 9 ⟨0, false, true, true⟩), .paramsDone 36 0 0 0 0 .x false [],
     .checkDone 36 0, .trainStateTimeout 36, .trainBackoffExpire 36, .portDown 36 0, .retrain (.core 8 0) 0 0,
     .retrain .bar0 36 0, .hold (.core 8 0) 0 0, .hold .bar0 36 0, .cableFlagPoll 36 false false 0,
     .knownAnswerTestsDone [⟨1, 8, 0⟩] false, .tierTrainingDone [⟨8, true, [], []⟩], .capRecoveryGo (.core 8 0) 0,
     .unitFailure ⟨1, 8, 0⟩] : List Instr).all
    (fun i => !i.wf) = true := by decide +kernel

theorem test_ill_formed_6 : ([.capAt ⟨0x30, List.replicate 65 0⟩ false, .rampAt ⟨0x30, List.replicate 65 0⟩ false, .lease ⟨0x30, List.replicate 65 0⟩ false,
     .releaseDone 8, .weightsGo (.core 8 0) 0 0, .weightsGo .bar0 8 0, .weightsDigestDone 8, .teardownComplete 8 0,
     .shadowSet 0 { shadowSet with stack := 8 }, .shadowDigest 8 0 0 0, .shadowSwap 0 8 0, .shadowSwapBeat 8,
     .rebuild 0 { region 64 with tier := 2 }, .rebuildDone 8 0, .digestReq 0 { region 64 with stack := 8 },
     .digestDone 8 0, .quietClear (.core 8 0) 0, .ucieModuleDrop 4, .hartStart 8 0 (.start 0 0), .hartStart 0 8 .stop,
     .auditPassEnd [(393216, .trestle 8)] [] [] [], .auditPassEnd [(0, .free)] [] [] [],
     .auditPassEnd [] [(393216, .inr frame0)] [] [], .auditPassEnd [] [] [(.inr frame0, 1056)] [], .auditPassEnd [] [] [] [393216],
     .powerEvaluation 0 0 [] 0 [] [], .powerEvaluation 0 0 [⟨0, 336, 5⟩] 0 [] (List.replicate 48 0),
     .flitSend 36, .spanFrameSend 8 0, .chunkRefetch 36 0, .unknownSidebandMessage 0 ⟨0x30, List.replicate 65 0⟩ false] : List Instr).all
    (fun i => !i.wf) = true := by decide +kernel

theorem test_ill_formed_packet (p : Packet) (h : 8192 < p.payload.length) :
    ∀ i ∈ ([.load 0 p, .store 0 p, .routedKeystone 0 p, .atomic 0 p, .accum 0 p, .ack 0 p, .data 0 p, .atomicReply 0 p,
     .dead 0 p, .invalAck 0 p, .spanAck 0 p, .spanSync 0 p, .syncReply 0 p, .spanBroken 0 p] : List Instr), i.wf = false := by
  have hp : (decide (0 < 8) && p.wf) = false := decide_eq_false (Nat.not_le.mpr h)
  intro i hi
  simp only [List.mem_cons, List.not_mem_nil, or_false] at hi
  rcases hi with rfl | rfl | rfl | rfl | rfl | rfl | rfl | rfl | rfl | rfl | rfl | rfl | rfl | rfl <;> exact hp

theorem test_ill_formed_names :
    [CtxId.wf ⟨0, 336, 0⟩, CtxId.wf ⟨0, 0, 8⟩, (Requester.core 0 8).wf, (RingId.dev 8 0).wf, (RingId.dev 0 8).wf,
     UnitId.wf ⟨1, 0, 65536⟩, TierResult.wf ⟨0, true, [], [{ row0 with stack := 8 }]⟩,
     SpanEntrySet.wf ⟨0, 65536, 0, 0, 0, 0, 0, 0⟩, SpanEntrySet.wf ⟨0, 0, 256, 0, 0, 0, 0, 0⟩,
     SpanEntrySet.wf ⟨0, 0, 0, 65536, 0, 0, 0, 0⟩, SpanEntrySet.wf ⟨0, 0, 0, 0, 256, 0, 0, 0⟩,
     SpanEntrySet.wf ⟨0, 0, 0, 0, 0, 65536, 0, 0⟩, TrestleSet.wf { set0 with entry := 65536 },
     TrestleSet.wf { set0 with port := 256 }, TrestleSet.wf { set0 with label := 65536 },
     RegionReq.wf { region 64 with stack := 8 }, RegionReq.wf { region 64 with offset := 2 ^ 48 },
     RegionReq.wf (region (2 ^ 48)), RegionReq.wf { region 64 with dstOffset := 2 ^ 48 },
     ShadowSet.wf { shadowSet with role := 256 }].any id = false := by decide +kernel

theorem test_ill_formed_sizes (f : Frame) (h : 8192 < f.payload.length) (x : Flit) (p : Packet)
    (hp : 8192 < p.payload.length) : f.wf = false ∧ Flit.wf { x with items := [.inl p] } = false :=
  ⟨by simp [Frame.wf]; omega, by simp [Flit.wf, itemWf, Packet.wf]; omega⟩

/-! ### One step each, with the result from the spec's worked examples and tables -/

/-- The state after a command, where it completes. -/
def after (i : Instr) (s : State) : State :=
  match exec i s with
  | .next t => t
  | _ => State.reset

/-- 10_spans_and_routing.md Table 10-9, hops 1 to 4. -/
theorem test_header_words :
    let p : Packet := { pkt 0x02 0 0 [] with dst := 0x18E1, src := 0x4B56, gw := 46 }
    headerWord0 p = 0x18E14B5600200170#64 ∧ headerWord0 { p with hops := 1 } = 0x18E14B5600200370#64
      ∧ headerWord0 { p with vc := 2, gw := 28, hops := 2 } = 0x18E14B56102004E0#64
      ∧ headerWord0 { p with vc := 2, gw := 28, hops := 3 } = 0x18E14B56102006E0#64 := by decide +kernel

/-- 12_collectives.md, after R397: the CRC-64 of "123456789", and of nothing. -/
theorem test_crc64 : crc64 [0x31, 0x32, 0x33, 0x34, 0x35, 0x36, 0x37, 0x38, 0x39] = 0x995DC9BBDF1939FA#64
    ∧ crc64 [] = 0 := by decide +kernel

/-- 19_register_map.md, the worked examples: offsets of registers of stack 3. -/
theorem test_offsets : Reg.offset (.BCH_CTX_CTRL 3 112 5) = 0x01E48148 ∧ Reg.offset (.XLT_CTX 3 3) = 0x01D01018
    ∧ Reg.offset (.SWC_QUIET 3 0) = 0x005040C0 ∧ Reg.offset (.CAP_DEFECT 9) = 0x00008048 := by decide +kernel

/-- 15_startup_and_defects.md, the worked example: entries 9 and 3 of the list. -/
theorem test_defect_entries : unitEntry ⟨kindBench, 3, 117⟩ 1 37 = 0x1160007500000025#64
    ∧ rowEntry ⟨2, false, true, 0x3A, 9, 0x1234⟩ 3 36 = 0x834F448123400024#64
    ∧ entryRow 0x834F448123480024 = ⟨2, false, true, 0x3A, 9, 0x1234⟩ := by decide +kernel

/-- 15_startup_and_defects.md, the worked example: with bench 117 of stack 3 failed, row 5 shows BYPASS 7, and
logical bench 112 sits at physical bench 118; here in a module with stack 3 alone. -/
theorem test_bypass :
    let s := (inStep 5 0 State.reset).setFld .CAP_UNITS CAP_UNITS_STACK_PRESENT 8
    let t := after (.defectMergeDone true true)
      { s with boot := { s.boot with katFailed := [⟨kindBench, 3, 117⟩] } }
    t.reg (.BCH_ROW_MAP 3 5) = 0x700#64 ∧ t.logicalOf 3 118 = some 112 ∧ t.logicalOf 3 117 = none := by
  decide +kernel

/-- 01_module_overview.md, the worked example, and 19_register_map.md: rack 0x25, tray 0x15, slot 2. -/
theorem test_position :
    (after (.powerGood 4400 10 0x15 2) State.reset).reg .CAP_POSITION = 0x1502#64
    ∧ (after (.rackSet ⟨0x30, [0x25]⟩ false)
      ({ powered with boot := { powered.boot with tray := 0x15, slot := 2 } }.setReg .CAP_POSITION 0x1502)).reg .CAP_POSITION
      = 0x4B50012500001502#64 := by decide +kernel

/-- 20_module_connector.md Table 20-9: BEAT_SET at 1,200 ms. -/
theorem test_beat_set :
    (after (.beatSet ⟨0x30, [0x5C, 0x3A, 0, 0, 5]⟩ false) powered).beat.delivered = some (0x3A5C, 5) := by decide +kernel

/-- 20_module_connector.md Table 20-9: CAP_AT at 1,640 ms is held for its beat. -/
theorem test_cap_at :
    let s := { live with beat := { live.beat with count := 0x3A5C00000, loaded := true } }
    ((after (.capAt ⟨0x30, [0xA0, 0x0F, 0x50, 0xC3, 0xC0, 0xA5, 3, 0]⟩ false) s).power.held.map
      (fun h => (h.isCap, h.value, h.beat)) = [(true, 4000, 0x3A5C0C350)]) := by decide +kernel

/-- 20_module_connector.md Table 20-9: the status read at 2,050 ms. -/
theorem test_status_read :
    let s := ((live.setBit .BEAT_STATUS BEAT_STATUS_LOCKED true).setFld .PWR_STATUS PWR_STATUS_POWER 1150).setFld
      .PWR_STATUS PWR_STATUS_LIMIT 4000
    (after (.statusRead) { s with boot := { s.boot with i3cCode := 0x30 } }).out
      = [.i3cData [0x00, 0x30, 0x07, 0x00, 0x7E, 0x04, 0xA0, 0x0F]] := by decide +kernel

/-- 03_number_formats.md Table 03-9: 491, 496 and -1.0625 to K8 under SAT and NAN. -/
theorem test_cvt_to_k8 :
    let s := at0 { busy with vregs := [(64, 0x43F58000), (65, 0x43F80000), (66, 0xBF880000)] }
    let f : VForm := ⟨4, 0, 0, false, false, 0, 3, 1, 0, 0, 0⟩
    let t := (after (.cvt c0 f) s).ctx c0
    let u := (after (.cvt c0 { f with ovf := true }) s).ctx c0
    [t.lane 3 0, t.lane 3 1, t.lane 3 2] = [0x7F, 0x7F, 0xB8]
      ∧ [u.lane 3 0, u.lane 3 1, u.lane 3 2] = [0x7F, 0x80, 0xB8] := by decide +kernel

/-- 03_number_formats.md, the worked example of a scaled block under RNE: scale 0x82 and elements
0x7C, 0x18, 0x01 and 0x38 for 3000, 0.5, 0.01 and 8.25. -/
theorem test_cvtb_block :
    let s := at0 { busy with vregs := [(64, 0x453B8000), (65, 0x3F000000), (66, 0x3C23D70A), (67, 0x41040000)] }
    let t := (after (.cvtb c0 ⟨4, 8, 0, false, false, 0, 3, 1, 5, 0, 0⟩) s).ctx c0
    [t.lane 5 0, t.lane 3 0, t.lane 3 1, t.lane 3 2, t.lane 3 3] = [0x82, 0x7C, 0x18, 0x01, 0x38] := by
  decide +kernel

/-- 04_benches.md Table 04-8: the shift amount is sb + imm32, modulo 64. -/
theorem test_sshl : ((after (.sshl c0 ⟨9, 2, 3, 3⟩) run).ctx c0).sreg 9 = 3 * 8
    ∧ ((after (.scmplt c0 ⟨9, 7, 2, 0⟩) run).ctx c0).sreg 9 = 1 := by decide +kernel

/-- 04_benches.md R95: a load past the drawer writes zero and is counted. -/
theorem test_sld_past_drawer :
    let t := after (.sld c0 (mf 9 8 0 0 0 0 0)) run
    (t.ctx c0).sreg 9 = 0 ∧ t.reg (.SWC_QUIET 0 4) = 1 := by decide +kernel

/-- 04_benches.md R129: RESUME restarts the timer and returns the context to the state it left. -/
theorem test_resume :
    ((after (.resume .bar0 c0) (at0 { busy with st := .hung, hungFrom := .run, timerAcc := 7 })).ctx c0).st = .run := by
  decide +kernel

/-- 14_links_and_cables.md Table 14-10: PORT_LANES of port 27 after EQUALISE, with the lane order reversed,
pairs 5 and 6 shorted and lane 4 inverted. -/
theorem test_port_lanes :
    let lane (i : Nat) : LaneResult :=
      ⟨BitVec.ofNat 3 (7 - i), i == 4, i != 1 && i != 2, i != 1 && i != 2⟩
    let l := (List.range 8).map lane
    let s := (live.setFld (.PORT_STATUS 27) PORT_STATUS_STATE portEqualise).modPort 27 (fun x =>
      { x with pairs := [⟨false, 6, false, true⟩, ⟨false, 5, false, true⟩] })
    (after (.equaliseDone 27 l) s).reg (.PORT_LANES 27) = 0x0001121B14454617#64 := by decide +kernel

/-- 19_register_map.md R14, R547 and the worked example: a lower half only latches. -/
theorem test_lower_half_latches :
    let t := after (.registerWrite .bar0 (.one ⟨true, 0x01E48148, 4, 1⟩)) live
    t.latches ≠ live.latches ∧ t.stackTab = live.stackTab := by decide +kernel

/-- A unit that no module has. -/
theorem test_no_such_unit : exec (.bundleIssue 8 0) State.reset = .fault .noSuchUnit := rfl

/-- A step takes the front of the queue, and idles on an empty one. -/
theorem test_step :
    step { powered with pending := [.statusRead, .epoRelease] }
      = exec (.statusRead) { powered with pending := [.epoRelease] } := rfl

/-! ### The hypotheses of the statements can be met -/

/-- States and operands that meet the hypotheses of each clause of AnswersTimersAndDeadNodes. -/
theorem meets_AnswersTimersAndDeadNodes :
    (∃ (s : State) (n : Nat) (r : Req) (p : Packet), (n < 8) ∧ (∃ b c, r.src = Src.ctx b c) ∧ (PortFree s n p)
      ∧ ((s.forwarded p).poison = false) ∧ (p.op = 16) ∧ ((s.stack n).matching p [2, 3, 5] = some r)) ∧
    (∃ (s : State) (n : Nat) (r : Req) (p : Packet) (c : Instr), (n < 8) ∧ (∃ b c, r.src = Src.ctx b c) ∧
      (PortFree s n p) ∧ ((s.forwarded p).poison = false) ∧ (p.op = 17 ∧ r.op = 1 ∧ (s.stack n).matching p [1]
      = some r ∧ c = Instr.data n p ∨ p.op = 18 ∧ r.op = 4 ∧ (s.stack n).matching p [4] = some r ∧ c =
      Instr.atomicReply n p)) ∧
    (∃ (s : State) (n : Nat) (r : Req) (p : Packet), (n < 8) ∧ ((s.stack n).req? r.id = some r) ∧ (r.st =
      ReqSt.sent) ∧ (r.span = 0) ∧ (s.resendDue r.firstSent r.resends = true)) ∧
    (∃ (s : State) (n : Nat) (r : Req) (p : Packet), (n < 8) ∧ (s.stackUp n = true)) ∧
    (∃ (s : State) (n : Nat) (node : BitVec 16) (how : Nat) (c : Instr) (r : Req) (p : Packet), (n < 8) ∧
      (¬node ∈ (s.stack n).dead) ∧ (¬node ∈ (s.stack n).fenced) ∧ (∀ (x : SpanOut), x ∈ (s.stack n).spansOut →
      x.dstNode ≠ node) ∧ (∀ (q : Req), q ∈ (s.stack n).reqs → q.node = node → ∃ b c, q.src = Src.ctx b c ∧
      s.rawJob n b = 0) ∧ (how = 2 ∧ c = Instr.deadTimer n r.id ∧ (s.stack n).req? r.id = some r ∧ r.node =
      node ∧ r.st = ReqSt.sent ∧ r.span = 0 ∧ r.firstSent + 75200000 ≤ s.now ∧ Tab.get 0 (s.stack n).heard
      node.toNat + 75200000 ≤ s.now ∨ how = 1 ∧ c = Instr.dead n p ∧ p.op = 21 ∧ PortFree s n p ∧ (s.forwarded
      p).poison = false ∧ BitVec.setWidth 16 p.offset = node ∧ (s.stack n).deadNoticeFor node p.seq = true)) ∧
    (∃ (s : State) (n : Nat) (job : Nat) (node : BitVec 16) (r : Req), (n < 8) ∧ (s.stackUp n = true) ∧ (¬node
      ∈ (s.stack n).dead) ∧ (¬node ∈ (s.stack n).fenced) ∧ (job ≠ 0) ∧ ((s.stack n).tears = []) ∧ (∀ (d :
      Desc), d ∈ s.host.descs → d.stack ≠ n) ∧ (s.host.notices.length + 2 ≤ 256) ∧ (∀ (x : SpanOut), x ∈
      (s.stack n).spansOut → (s.stack n).owns job x.xctx = false) ∧ (∀ (q : Req), q ∈ (s.stack n).reqs →
      q.node = node → ∃ b c, q.src = Src.ctx b c ∧ s.rawJob n b = job) ∧ (∀ (b : Nat) (x : Bench), s.rawJob n
      b = job → x = s.bench n b → x.txQueue = [] ∧ x.rxQueue = [] ∧ x.txOwner = [] ∧ x.rxOwner = []) ∧ (s.bit
      (Reg.HCORE_CFG n) HCORE_CFG_EVT_ENABLE = true) ∧ ((s.fld (Reg.HCORE_EVT_IDX n) HCORE_EVT_IDX_HEAD +
      65536 - s.fld (Reg.HCORE_EVT_IDX n) HCORE_EVT_IDX_TAIL) % 65536 ≠ 4096) ∧ ((s.stack n).req? r.id = some
      r) ∧ (r.node = node) ∧ (r.st = ReqSt.sent) ∧ (r.span = 0) ∧ (r.firstSent + 75200000 ≤ s.now) ∧ (Tab.get
      0 (s.stack n).heard node.toNat + 75200000 ≤ s.now)) := by
  and_intros
  · exact ⟨live.modStack 0 (fun k =>
          { k with reqs := [{ req with st := .sent, op := 2, seq := 9, node := 0x4B51 }] }), 0,
          { req with st := .sent, op := 2, seq := 9, node := 0x4B51 }, pkt 0x10 0 0 [], by exact ⟨by decide,
          ⟨0, 0, rfl⟩, by delta PortFree; decide +kernel, by decide +kernel, by decide +kernel,
          by decide +kernel⟩⟩
  · exact ⟨live.modStack 0 (fun k =>
          { k with reqs := [{ req with st := .sent, seq := 9, node := 0x4B51 }] }), 0,
          { req with st := .sent, seq := 9, node := 0x4B51 }, pkt 0x11 0 0 [1, 2, 3], .data 0 (pkt 0x11 0 0
          [1, 2, 3]), by exact ⟨by decide, ⟨0, 0, rfl⟩, by delta PortFree; decide +kernel, by decide +kernel,
          .inl ⟨by decide +kernel, by decide +kernel, by decide +kernel, rfl⟩⟩⟩
  · exact ⟨later (live.modStack 0 (fun k => { k with reqs := [{ req with st := .sent }] })), 0,
    { req with st := .sent }, pkt 0 0 0 [], by decide +kernel⟩
  · exact ⟨live, 7, req, pkt 0 0 0 [], by decide +kernel⟩
  · exact ⟨later (live.modStack 0 (fun k => { k with reqs := [{ req with st := .sent }] })), 0, 2, 2,
          .deadTimer 0 1, { req with st := .sent }, pkt 0 0 0 [], by exact ⟨by decide, by decide +kernel,
          by decide +kernel, by decide +kernel, fun q hq _ => by cases List.mem_singleton.mp hq; exact ⟨0, 0,
          rfl, by decide +kernel⟩, .inl ⟨rfl, rfl, by decide +kernel, rfl, rfl, rfl, by decide +kernel,
          by decide +kernel⟩⟩⟩
  · exact ⟨later ((bench9 (live.setBit (.HCORE_CFG 0) HCORE_CFG_EVT_ENABLE true)).modStack 0 (fun k =>
          { k with reqs := [{ req with st := .sent }] })), 0, 9, 2, { req with st := .sent }, by exact ⟨by
          decide, by decide +kernel, by decide +kernel, by decide +kernel, by decide +kernel,
          by decide +kernel, by decide +kernel, by decide +kernel, by decide +kernel, fun q hq _ =>
          by cases List.mem_singleton.mp hq; exact ⟨0, 0, rfl, by decide +kernel⟩, fun b x _ hx =>
          by cases hx; exact ⟨rfl, rfl, rfl, rfl⟩, by decide +kernel, by decide +kernel, by decide +kernel,
          rfl, rfl, rfl, by decide +kernel, by decide +kernel⟩⟩

/-- States and operands that meet the hypotheses of each clause of ArrayInstructionsActOnTile. -/
theorem meets_ArrayInstructionsActOnTile :
    (∃ (s : State) (c : CtxId) (f : AForm), (Runs s c) ∧ (s.runsA 128 f = true)) ∧
    (∃ (s : State) (c : CtxId) (f : AForm), (Runs s c) ∧ (InDrawer (BitVec.toNat ((s.ctx c).sreg f.sa.toNat))
      64 16384) ∧ (DrawerClean s c (BitVec.toNat ((s.ctx c).sreg f.sa.toNat)) 16384) ∧ (s.runsA 132 f = true)) ∧
    (∃ (s : State) (c : CtxId) (f : AForm) (m : AmmaArea), (Runs s c) ∧ (BitVec.toNat ((s.ctx c).sreg
      f.sk.toNat) % 64 = 0) ∧ (64 ≤ BitVec.toNat ((s.ctx c).sreg f.sk.toNat)) ∧ (BitVec.toNat ((s.ctx c).sreg
      f.sk.toNat) ≤ 4096) ∧ (ammaArea f (s.ctx c) (BitVec.toNat ((s.ctx c).sreg f.sk.toNat)) = some m) ∧
      (DrawerClean s c m.a m.aLen) ∧ (DrawerClean s c m.b m.bLen) ∧ (DrawerClean s c m.sa m.saLen) ∧
      (DrawerClean s c m.sb m.sbLen) ∧ (s.runsA 129 f = true)) ∧
    (∃ (s : State) (c : CtxId) (f : AForm), (Runs s c) ∧ (BitVec.toNat ((s.ctx c).sreg f.sk.toNat) % 64 ≠ 0 ∨
      BitVec.toNat ((s.ctx c).sreg f.sk.toNat) < 64 ∨ 4096 < BitVec.toNat ((s.ctx c).sreg f.sk.toNat)) ∧
      (s.runsA 129 f = true)) ∧
    (∃ (s : State) (c : CtxId) (f : AForm), (Runs s c) ∧ (InDrawer (BitVec.toNat ((s.ctx c).sreg f.sa.toNat))
      64 (drainLen f)) ∧ (s.runsA 131 f = true)) := by
  and_intros
  · exact ⟨run, c0, ⟨0,0,0,false,false,0,0,0,0⟩, by delta Runs; decide +kernel⟩
  · exact ⟨run, c0, ⟨7,0,0,false,false,0,0,0,0⟩, by delta Runs DrawerClean InDrawer; decide +kernel⟩
  · exact ⟨run, c0, ⟨4,4,0,false,false,0,1,3,0⟩, ⟨0, 16384, 64, 16384, 0, 0, 0, 0⟩,
      by delta Runs DrawerClean; decide +kernel⟩
  · exact ⟨run, c0, ⟨4,0,0,false,false,1,0,0,0⟩, by delta Runs; decide +kernel⟩
  · exact ⟨run, c0, ⟨4,0,0,false,false,1,0,0,0⟩, by delta Runs InDrawer; decide +kernel⟩

/-- States and operands that meet the hypotheses of each clause of BeatFollowsItsInput. -/
theorem meets_BeatFollowsItsInput :
    (∃ (s : State) (dt : Nat) (high : Nat), (s.boot.powered = true) ∧ (s.lost = false) ∧ (isMarker high =
      false ∨ s.beat.delivered = none)) ∧
    (∃ (s : State) (dt : Nat) (high : Nat) (hi : BitVec 28) (m : BitVec 8), (s.boot.powered = true) ∧ (s.lost
      = false) ∧ (650 ≤ high) ∧ (high ≤ 850) ∧ (s.beat.delivered = some (hi, m))) ∧
    (∃ (s : State) (dt : Nat) (high : Nat), (s.boot.powered = true) ∧ (s.lost = true) ∧ (s.bit Reg.BEAT_STATUS
      BEAT_STATUS_RELOCK = false) ∧ (isMarker high = false ∨ s.beat.delivered = none)) ∧
    (∃ (s : State) (dt : Nat) (high : Nat), (s.boot.powered = true) ∧ (s.lost = false) ∧ (s.beat.lastEdge + 4
      * 75200 ≤ s.now + dt)) ∧
    (∃ (s : State) (dt : Nat) (high : Nat), (s.boot.powered = true) ∧ (s.isLocked = false) ∧ (s.lockHolds =
      true)) ∧
    (∃ (s : State) (dest : BitVec 7) (n : BitVec 32) (m : Byte), (s.i3cRefuses dest = false) ∧ (n.toNat < 2 ^
      28)) ∧
    (∃ (s : State) (dest : BitVec 7) (n : BitVec 32) (m : Byte), (s.i3cRefuses dest = false) ∧ (2 ^ 28 ≤
      n.toNat)) ∧
    (∃ (s : State), (1024 ≤ s.beat.winEdges) ∧ (s.lost = false) ∧ (nearBeats (s.beat.lastEdge -
      s.beat.winStart) s.beat.winEdges 200 = true)) ∧
    (∃ (s : State), (1024 ≤ s.beat.winEdges) ∧ (s.lost = false) ∧ (nearBeats (s.beat.lastEdge -
      s.beat.winStart) s.beat.winEdges 200 = false)) ∧
    (∃ (s : State) (dt : Nat), (s.lost = true) ∧ (s.beat.lostLong = false) ∧ (s.beat.goodAt + 100 * 75200000 ≤
      s.now + dt)) ∧
    (∃ (s : State), (s.lost = true) ∧ (s.bit Reg.BEAT_STATUS BEAT_STATUS_RELOCK = false) ∧ (1024 <
      s.beat.cmpEdges) ∧ (s.beat.cmpErr ≤ 64) ∧ (s.beat.steady = true)) ∧
    (∃ (s : State), (s.lost = true) ∧ (s.bit Reg.BEAT_STATUS BEAT_STATUS_RELOCK = false) ∧ (1024 <
      s.beat.cmpEdges) ∧ (64 < s.beat.cmpErr ∨ s.beat.steady = false)) := by
  and_intros
  · exact ⟨live, 75200, 649, by decide +kernel⟩
  · exact ⟨{ live with beat := { live.beat with delivered := some (7, 3) } }, 75200, 850, 7, 3, by decide +kernel⟩
  · exact ⟨lost, 75200, 100, by decide +kernel⟩
  · exact ⟨{ live with now := 75200 }, 225600, 0, by decide +kernel⟩
  · exact ⟨{ live with beat := { live.beat with loaded := true, inTol := 1024, recent := List.replicate 1025 0, lastEdge := 1024 * 75200, sinceLoad := 2048 } },
    1, 5,


      by decide +kernel⟩
  · exact ⟨live, 0x30, 0xFFFFFFF, 4, by decide +kernel⟩
  · exact ⟨live, 0x30, 0x10000000, 4, by decide +kernel⟩
  · exact ⟨{ live with beat := { live.beat with winEdges := 1024, winStart := 0, lastEdge := 1024 * 75200 } },
    by decide +kernel⟩
  · exact ⟨{ live with beat := { live.beat with winEdges := 1024, winStart := 0, lastEdge := 1025 * 75200, count := 2000 } },



      by decide +kernel⟩
  · exact ⟨{ lost with now := 100 * 75200000 - 5 }, 5, by decide +kernel⟩
  · exact ⟨lostAt (fun b => { b with cmpEdges := 1025, cmpErr := 64, cmpCount := 0x2000, inTol := 1024, recent := List.replicate 1025 0, lastEdge := 1024 * 75200 }),



      by decide +kernel⟩
  · exact ⟨lostAt (fun b => { b with cmpEdges := 1025, cmpErr := 65, cmpCount := 0x2000, inTol := 1024, recent := List.replicate 1025 0, lastEdge := 1024 * 75200 }),



      by decide +kernel⟩

/-- States and operands that meet the hypotheses of each clause of BundleIssueTakesOneBundle. -/
theorem meets_BundleIssueTakesOneBundle :
    (∃ (s : State) (n : Nat) (b : Nat), (n < 8) ∧ (b < 336) ∧ (∀ (i : Nat), i < 8 → s.running
      { stack := n, bench := b, ctx := i } = true → ((s.bench n b).ctx i).pc < (s.bench n b).bundles) ∧
      (s.pick n b = none)) ∧
    (∃ (s : State) (n : Nat) (b : Nat) (i : Nat), (n < 8) ∧ (b < 336) ∧ (∀ (j : Nat), j < 8 → s.running
      { stack := n, bench := b, ctx := j } = true → ((s.bench n b).ctx j).pc < (s.bench n b).bundles) ∧
      (s.pick n b = some i) ∧ (∀ (j : Nat), j < 4 → Tab.get 0 (s.bench n b).prog (4 * ((s.bench n b).ctx i).pc
      + j) = 0) ∧ (((s.bench n b).ctx i).waits = [])) ∧
    (∃ (s : State) (n : Nat) (b : Nat) (i : Nat) (w : Nat → Word), (n < 8) ∧ (b < 336) ∧ (∀ (j : Nat), j < 8 →
      s.running { stack := n, bench := b, ctx := j } = true → ((s.bench n b).ctx j).pc < (s.bench n
      b).bundles) ∧ (s.pick n b = some i) ∧ (∀ (j : Nat), j < 4 → w j = Tab.get 0 (s.bench n b).prog (4 *
      ((s.bench n b).ctx i).pc + j)) ∧ (((s.bench n b).ctx i).waits = []) ∧ (opcodeOf (w 0) = 5) ∧ (opcodeOf
      (w 1) = 34) ∧ (opcodeOf (w 2) = 78) ∧ (opcodeOf (w 3) = 128) ∧ ((sFormOf (w 0)).sd ≠ 0) ∧ ((mFormOf (w
      1)).v.toNat % 32 ≠ 0) ∧ ((sFormOf (w 0)).sd.toNat ≠ (mFormOf (w 1)).v.toNat % 32) ∧ (InDrawer
      (BitVec.toNat (((s.bench n b).ctx i).sreg (mFormOf (w 1)).sa.toNat + BitVec.signExtend 64 (mFormOf (w
      1)).imm)) 8 8) ∧ (DrawerClean s { stack := n, bench := b, ctx := i } (BitVec.toNat (((s.bench n b).ctx
      i).sreg (mFormOf (w 1)).sa.toNat + BitVec.signExtend 64 (mFormOf (w 1)).imm)) 8)) ∧
    (∃ (s : State) (n : Nat) (b : Nat) (i : Nat), (n < 8) ∧ (b < 336) ∧ (i < 8) ∧ (s.running
      { stack := n, bench := b, ctx := i } = true) ∧ ((s.bench n b).bundles ≤ ((s.bench n b).ctx i).pc) ∧ (∀
      (j : Nat), j < 8 → j ≠ i → s.running { stack := n, bench := b, ctx := j } = false)) := by
  and_intros
  · exact ⟨live, 7, 335, by decide +kernel⟩
  · exact ⟨joined { oneCtx with bundles := 1 }, 0, 0, 0, by decide +kernel⟩
  · exact ⟨joined
          { oneCtx with bundles := 1, prog := [(0, slots 0), (1, slots 1), (2, slots 2), (3, slots 3)] }, 0,
          0, 0, slots, by delta DrawerClean InDrawer; decide +kernel⟩
  · exact ⟨joined oneCtx, 0, 0, 0, by decide +kernel⟩

/-- States and operands that meet the hypotheses of each clause of ClocksAndReseat. -/
theorem meets_ClocksAndReseat :
    (∃ (s : State) (temps : List Nat), (s.at64 = true)) ∧
    (∃ (s : State) (n : Nat) (k : Nat), (n < 8) ∧ ((s.stack n).nextStep = some k)) ∧
    (∃ (s : State) (n : Nat), (n < 8) ∧ ((s.stack n).nextStep = none)) ∧
    (∃ (s : State) (who : Requester) (n : Nat), (n < 8) ∧ (s.permit who (Reg.BCH_RESEAT n) = Admit.ok) ∧
      (s.reseatBusy n = false) ∧ (s.stackIdle n = true)) ∧
    (∃ (s : State) (who : Requester) (n : Nat), (n < 8) ∧ (s.permit who (Reg.BCH_RESEAT n) = Admit.ok) ∧
      (s.reseatBusy n = true ∨ s.stackIdle n = false)) ∧
    (∃ (s : State) (who : Requester) (n : Nat), (n < 8) ∧ (s.reseatBusy n = true)) := by
  and_intros
  · exact ⟨live, [60, 60, 60, 60, 60, 60, 60, 120], by decide +kernel⟩
  · exact ⟨live.modStack 0 (fun k => { k with nextStep := some 16 }), 0, 16, by decide +kernel⟩
  · exact ⟨live, 7, by decide +kernel⟩
  · exact ⟨live, .bar0, 0, by decide +kernel⟩
  · exact ⟨joined oneCtx, .bar0, 0, by decide +kernel⟩
  · exact ⟨live.setBit (.BCH_RESEAT 0) BCH_RESEAT_BUSY true, .bar0, 0, by decide +kernel⟩

/-- States and operands that meet the hypotheses of each clause of CoherentWindowsTrackAndInvalidate. -/
theorem meets_CoherentWindowsTrackAndInvalidate :
    (∃ (s : State) (who : Requester) (n : Nat) (v : Word), (n < 8) ∧ (s.permit who (Reg.ABT_CWIN_CFG n) =
      Admit.ok) ∧ (s.cwdPresent = true) ∧ (s.bit (Reg.ABT_CWIN_CFG n) ABT_CWIN_CFG_ENABLE = false) ∧ (s.bit
      (Reg.ABT_CWIN_CFG n) ABT_CWIN_CFG_BUSY = false) ∧ (getF v ABT_CWIN_CFG_ENABLE = 1) ∧ (1 ≤ getF v
      ABT_CWIN_CFG_SIZE) ∧ (getF v ABT_CWIN_CFG_SIZE ≤ 64) ∧ ((getF v ABT_CWIN_CFG_BASE + getF v
      ABT_CWIN_CFG_SIZE) * 1073741824 ≤ s.nearSize n)) ∧
    (∃ (s : State) (who : Requester) (n : Nat) (v : Word), (n < 8) ∧ (s.permit who (Reg.ABT_CWIN_CFG n) =
      Admit.ok) ∧ (s.cwdPresent = true) ∧ (s.bit (Reg.ABT_CWIN_CFG n) ABT_CWIN_CFG_ENABLE = true) ∧ (getF v
      ABT_CWIN_CFG_ENABLE = 0) ∧ ((s.stack n).dir = [])) ∧
    (∃ (s : State) (who : Requester) (n : Nat), (n < 8) ∧ (s.bit (Reg.ABT_CWIN_CFG n) ABT_CWIN_CFG_BUSY =
      true) ∧ ((s.stack n).dir = []) ∧ ((s.stack n).invals = [])) ∧
    (∃ (s : State) (who : Requester) (n : Nat) (p : Packet), (n < 8) ∧ (StandsAlone s n p) ∧ (s.targetOk n p =
      true) ∧ ((s.stack n).repairing = []) ∧ ((s.stack n).nearErr = []) ∧ ((s.stack n).mark false
      (p.offset.toNat / 128) ≠ markPoison) ∧ ((s.stack n).applied? p = none) ∧ (∀ (i : Inval), i ∈ (s.stack
      n).invals → i.line ≠ p.offset.toNat / 128) ∧ (s.whereIs n p.offset.toNat (pktLen p) = Where.near
      p.offset.toNat) ∧ (s.inWindow n p.offset.toNat (pktLen p) = true) ∧ (p.offset.toNat % 128 + pktLen p ≤
      128) ∧ (0 < pktLen p) ∧ (p.op = 1) ∧ (jzb2 p.src = true) ∧ ((s.stack n).dir = [])) ∧
    (∃ (s : State) (who : Requester) (n : Nat) (p : Packet) (h : BitVec 16), (n < 8) ∧ (StandsAlone s n p) ∧
      (s.targetOk n p = true) ∧ ((s.stack n).repairing = []) ∧ ((s.stack n).nearErr = []) ∧ ((s.stack n).mark
      false (p.offset.toNat / 128) ≠ markPoison) ∧ ((s.stack n).applied? p = none) ∧ (∀ (i : Inval), i ∈
      (s.stack n).invals → i.line ≠ p.offset.toNat / 128) ∧ (s.whereIs n p.offset.toNat (pktLen p) =
      Where.near p.offset.toNat) ∧ (s.inWindow n p.offset.toNat (pktLen p) = true) ∧ (p.offset.toNat % 128 +
      pktLen p ≤ 128) ∧ (0 < pktLen p) ∧ (p.op = 2) ∧ ((s.stack n).tracked (p.offset.toNat / 128) = some
      { line := p.offset.toNat / 128, holders := [h] })) ∧
    (∃ (s : State) (who : Requester) (n : Nat) (p : Packet) (i : Inval), (n < 8) ∧ (p.op = 23) ∧ (PortFree s n
      p) ∧ ((s.forwarded p).poison = false) ∧ ((s.stack n).spansIn = []) ∧ ((s.stack n).coreHeld = []) ∧
      (List.find? (fun x => x.number == p.seq && x.holder == p.src) (s.stack n).invals = some i)) ∧
    (∃ (s : State) (who : Requester) (n : Nat) (i : Inval), (n < 8) ∧ (List.find? (fun x => x.number ==
      i.number) (s.stack n).invals = some i) ∧ ((s.stack n).isDead i.holder = false) ∧ (s.silent n i.holder =
      false) ∧ (s.resendDue i.firstSent i.resends = true)) ∧
    (∃ (s : State) (who : Requester) (n : Nat), (n < 8) ∧ (s.permit who (Reg.ABT_LINE_STATUS n) = Admit.ok)) := by
  and_intros
  · exact ⟨live, .bar0, 0, setF (setF (setF 0 ABT_CWIN_CFG_ENABLE 1) ABT_CWIN_CFG_SIZE 64) ABT_CWIN_CFG_BASE 32,
    by decide +kernel⟩
  · exact ⟨live.setBit (.ABT_CWIN_CFG 0) ABT_CWIN_CFG_ENABLE true, .bar0, 0, 0, by decide +kernel⟩
  · exact ⟨live.setBit (.ABT_CWIN_CFG 0) ABT_CWIN_CFG_BUSY true, .bar0, 0, by decide +kernel⟩
  · exact ⟨((open0.setBit (.SEC_TENANT 1) SEC_TENANT_FORERUNNER true).setBit (.ABT_CWIN_CFG 0) ABT_CWIN_CFG_ENABLE true).setFld (.ABT_CWIN_CFG 0) ABT_CWIN_CFG_SIZE 1,
    .bar0, 0, { pkt 1 63 0x140 [] with src := 0x8001 },
      by delta StandsAlone PortFree; decide +kernel⟩
  · exact ⟨((open0.modStack 0 (fun k => { k with dir := [⟨2, [0x8001]⟩] })).setBit (.ABT_CWIN_CFG 0) ABT_CWIN_CFG_ENABLE true).setFld (.ABT_CWIN_CFG 0) ABT_CWIN_CFG_SIZE 1,
    .bar0, 0, pkt 2 0 0x100 [1, 2], 0x8001,
      by delta StandsAlone PortFree; decide +kernel⟩
  · exact ⟨live.modStack 0 (fun k => { k with dir := [⟨2, [0x8001, 0x8002]⟩], invals := [⟨9, 2, 0x8001, 0, 0⟩] }),
    .bar0, 0, { pkt 0x17 0 0 [] with src := 0x8001 }, ⟨9, 2, 0x8001, 0, 0⟩, by delta PortFree; decide +kernel⟩
  · exact ⟨({ live with now := 75200000 }).modStack 0 (fun k => { k with heard := [(0x8001, 75200000)], invals := [⟨9, 2, 0x8001, 0, 0⟩] }),
    .bar0, 0, ⟨9, 2, 0x8001, 0, 0⟩,


      by decide +kernel⟩
  · exact ⟨live.setFld (.ABT_LINE_STATUS 0) ABT_LINE_STATUS_MAX_WAITING 7, .bar0, 0, by decide +kernel⟩

/-- States and operands that meet the hypotheses of each clause of CollectiveRoundsFollow. -/
theorem meets_CollectiveRoundsFollow :
    (∃ (s : State) (n : Nat) (f : Frame) (x : Group) (c : Coll) (d : Desc), (s.desc? c.desc = some d) ∧
      (DownFrame s n 0 f x c) ∧ (c.phase = 1) ∧ (headerMismatch (frameLanes f) = false) ∧ (chunkIncomplete f =
      false) ∧ (d.count ≠ 0) ∧ (d.flag 3 63 = false) ∧ (c.early = [])) ∧
    (∃ (s : State) (n : Nat) (f : Frame) (x : Group) (c : Coll) (d : Desc), (s.desc? c.desc = some d) ∧
      (DownFrame s n 0 f x c) ∧ (c.phase = 1) ∧ (headerMismatch (frameLanes f) = true)) ∧
    (∃ (s : State) (n : Nat) (f : Frame) (x : Group) (c : Coll) (d : Desc), (s.desc? c.desc = some d) ∧
      (DownFrame s n 1 f x c) ∧ (c.phase = 1)) ∧
    (∃ (s : State) (n : Nat) (f : Frame) (x : Group) (c : Coll) (d : Desc) (q : Seg) (o : Nat), (s.desc?
      c.desc = some d) ∧ (n < 8) ∧ (s.group? n x.id = some x) ∧ (s.coll? n x.id = some c) ∧ (c.phase = 2) ∧
      (d.flag 3 63 = false) ∧ (d.contributes = true) ∧ (d.segsOf 1 = [q]) ∧ (q.rights.getLsbD 0 = true) ∧
      (d.stack = n) ∧ (s.whereIs n q.offset q.len = Where.near o) ∧ ((s.stack n).nearErr = []) ∧ ((s.stack
      n).repairing = []) ∧ (∀ (line : Nat), line ∈ linesOf o q.len → (s.stack n).mark false line ≠ markPoison)
      ∧ (s.sourceHeld d = false) ∧ (UpRoom s n x.up (List.map frameCells (s.dataFrames n d c.inst.toNat
      (plainBytes (s.stack n) false o q.len))).sum)) ∧
    (∃ (s : State) (n : Nat) (f : Frame) (x : Group) (c : Coll) (d : Desc) (q : Seg), (s.desc? c.desc = some
      d) ∧ (DownFrame s n 1 f x c) ∧ (c.phase = 3) ∧ (chunkFailed f = false) ∧ (chunkIncomplete f = false) ∧
      (d.stack = n) ∧ (d.cop = 0) ∧ ((chunkData f).length % d.elemBytes = 0) ∧ (0 < (chunkData f).length) ∧
      ((chunkData f).length ≤ 8192) ∧ (chunkE0 f + (chunkData f).length / d.elemBytes ≤ d.count) ∧ (d.segsOf 2
      = [q]) ∧ (q.len = d.count * d.elemBytes) ∧ (q.rights.getLsbD 1 = true) ∧ (q.node ≠ 65535) ∧ (OnePiece
      (storePiece q)
      { word := q.word, va := q.va + chunkE0 f * d.elemBytes, len := (chunkData f).length, node := q.node, offset := q.offset, rights := q.rights, page := q.page })) ∧
    (∃ (s : State) (n : Nat) (f : Frame) (x : Group) (c : Coll) (d : Desc), (s.desc? c.desc = some d) ∧ (n <
      8) ∧ (s.group? n x.id = some x) ∧ (s.coll? n x.id = some c) ∧ (c.phase = 3) ∧ (c.expected = 0) ∧ (UpRoom
      s n x.up 3)) ∧
    (∃ (s : State) (n : Nat) (f : Frame) (x : Group) (c : Coll) (d : Desc), (s.desc? c.desc = some d) ∧
      (DownFrame s n 2 f x c) ∧ (c.phase = 4) ∧ ((c.addTally f).tallied = true) ∧ (d.st = DescSt.running) ∧
      (d.phase = DescPhase.held) ∧ (s.descReqs d = []) ∧ (d.status = 0)) := by
  and_intros
  · exact ⟨inColl grp (collAt 1 0) [lanesFrame true], 0, lanesFrame true, grp, collAt 1 0, collDesc, by
          exact ⟨by decide +kernel, ⟨by decide +kernel, by decide +kernel, by decide +kernel,
          by decide +kernel, by decide +kernel, lanes_crc_ok true, by decide +kernel, by decide +kernel,
          by decide +kernel⟩, by decide +kernel, by decide +kernel, by decide +kernel, by decide +kernel,
          by decide +kernel, by decide +kernel⟩⟩
  · exact ⟨inColl grp (collAt 1 0) [lanesFrame false], 0, lanesFrame false, grp, collAt 1 0, collDesc,
    by exact ⟨by decide +kernel, ⟨by decide +kernel, by decide +kernel, by decide +kernel, by decide +kernel, by decide +kernel, lanes_crc_ok false, by decide +kernel, by decide +kernel, by decide +kernel⟩, by decide +kernel⟩⟩
  · exact ⟨inColl grp (collAt 1 0) [down 1 0 (grain.take 4)], 0, down 1 0 (grain.take 4), grp, collAt 1 0,
          collDesc, by delta DownFrame; decide +kernel⟩
  · exact ⟨inColl grp (collAt 2 0) [], 0, data6, grp, collAt 2 0, collDesc, seg 1 256, 0x400000,
      by delta UpRoom; decide +kernel⟩
  · exact ⟨inColl grp (collAt 3 2) [down 1 0 (grain.take 4)], 0, down 1 0 (grain.take 4), grp, collAt 3 2, collDesc,
    { seg 2 256 with offset := 0x2000 }, by delta OnePiece DownFrame; decide +kernel⟩
  · exact ⟨inColl grp (collAt 3 0) [], 0, data6, grp, collAt 3 0, collDesc, by delta UpRoom; decide +kernel⟩
  · exact ⟨inColl grp { collAt 4 0 with tally := [(0, 2), (1, 0), (3, 1), (4, 1), (6, 1)] } [down 2 1 (leBytes 4 7)],
    0, down 2 1 (leBytes 4 7), grp, { collAt 4 0 with tally := [(0, 2), (1, 0), (3, 1), (4, 1), (6, 1)] },
    collDesc,


      by delta DownFrame; decide +kernel⟩

/-- States and operands that meet the hypotheses of each clause of ComparisonsAndReductions. -/
theorem meets_ComparisonsAndReductions :
    (∃ (s : State) (c : CtxId) (f : VForm) (op : Cmp) (i : Instr), (Runs s c) ∧ ((op, i) ∈ [(Cmp.eq,
      Instr.vcmpeq c f), (Cmp.lt, Instr.vcmplt c f), (Cmp.le, Instr.vcmple c f)]) ∧ (s.runsV 72 f = true)) ∧
    (∃ (s : State) (c : CtxId) (f : VForm), (Runs s c) ∧ (s.runsV 86 f = true)) ∧
    (∃ (s : State) (c : CtxId) (f : VForm), (Runs s c) ∧ (s.runsV 87 f = true)) := by
  and_intros
  · exact ⟨run, c0, vf 4 0 1 2 0 0 1, .le, .vcmple c0 (vf 4 0 1 2 0 0 1), by delta Runs; decide +kernel⟩
  · exact ⟨run, c0, vf 4 0 1 0 0 0 1, by delta Runs; decide +kernel⟩
  · exact ⟨run, c0, vf 4 0 1 0 0 0 1, by delta Runs; decide +kernel⟩

/-- States and operands that meet the hypotheses of each clause of CoreAccessesAct. -/
theorem meets_CoreAccessesAct :
    (∃ (s : State) (n : Nat) (c : Nat) (a : Nat) (bytes : Nat) (v : Word) (cmp : Word) (sub : BitVec 4), (n <
      8) ∧ (c < 8) ∧ (s.coreActive n c = true) ∧ (0 < bytes) ∧ (bytes ≤ 8) ∧ (a + bytes ≤ 8388608)) ∧
    (∃ (s : State) (n : Nat) (c : Nat) (bytes : Nat) (v : Word) (cmp : Word) (o : Nat) (op : CoreOp × Bool),
      (n < 8) ∧ (c < 8) ∧ (s.coreActive n c = true) ∧ (0 < bytes) ∧ (bytes ≤ 8) ∧ (o + bytes ≤ 4194304) ∧ (op
      ∈ [(CoreOp.load, false), (CoreOp.store, true)])) ∧
    (∃ (s : State) (n : Nat) (c : Nat) (bytes : Nat) (v : Word) (cmp : Word), (n < 8) ∧ (c < 8) ∧
      (s.coreActive n c = true) ∧ (0 < bytes) ∧ (bytes ≤ 8)) ∧
    (∃ (s : State) (n : Nat) (c : Nat) (bytes : Nat) (v : Word) (cmp : Word) (off : Nat) (far : Bool) (o :
      Nat), (n < 8) ∧ (c < 8) ∧ (s.coreActive n c = true) ∧ (0 < bytes) ∧ (bytes ≤ 8) ∧ (off + bytes ≤
      3302829850624) ∧ (s.whereIs n off bytes = if far = true then Where.far o else Where.near o) ∧ ((s.stack
      n).repairing = []) ∧ ((s.stack n).nearErr = []) ∧ ((s.stack n).farErr = []) ∧ ((s.stack n).anyPoison far
      (linesOf o bytes) = false) ∧ (s.inWindow n off bytes = false) ∧ (∀ (b : CoreAcc), b ∈ (s.stack
      n).coreHeld → b.core ≠ c) ∧ ((s.stack n).lineHolds = []) ∧ (∀ (line : Nat), line ∈ linesOf off bytes →
      s.lineWaiters n line = [])) ∧
    (∃ (s : State) (n : Nat) (c : Nat) (a : Nat) (bytes : Nat) (v : Word) (cmp : Word), (n < 8) ∧ (c < 8) ∧
      (s.coreActive n c = true) ∧ (0 < bytes) ∧ (bytes ≤ 8) ∧ (coreWhere a bytes = CoreWhere.nothing)) := by
  and_intros
  · exact ⟨cored 1, 0, 2, 0x7FFFF8, 8, 5, 0, 0, by decide +kernel⟩
  · exact ⟨cored 1, 0, 2, 8, 5, 0, 0x3FFFF8, (.store, true), by decide +kernel⟩
  · exact ⟨cored 1, 0, 2, 4, 5, 0, by decide +kernel⟩
  · exact ⟨(cored 1).modStack 0 (fun k => { k with near := Mem.writeBytes [] 0x100 grain }), 0, 2, 8, 5, 0,
          0x100, false, 0x100, by decide +kernel⟩
  · exact ⟨cored 1, 0, 2, 0x800000, 4, 5, 0, by decide +kernel⟩

/-- States and operands that meet the hypotheses of each clause of DebugAccessesAct. -/
theorem meets_DebugAccessesAct :
    (∃ (s : State) (ctl : Word) (r : Reg), (s.boot.bar0 = true) ∧ (s.ready = true) ∧ (s.debugOpen = true) ∧
      (s.bit Reg.SEC_DEBUG_ACCESS_CTL SEC_DEBUG_ACCESS_CTL_BUSY = false) ∧ (getF ctl SEC_DEBUG_ACCESS_CTL_GO =
      1) ∧ (getF ctl SEC_DEBUG_ACCESS_CTL_SPACE = 0) ∧ (PlainReg r) ∧ (getF ctl SEC_DEBUG_ACCESS_CTL_ADDR =
      r.offset) ∧ (s.unitAnswers (getF ctl SEC_DEBUG_ACCESS_CTL_ADDR) = true) ∧ (getF ctl
      SEC_DEBUG_ACCESS_CTL_WRITE = 1)) ∧
    (∃ (s : State) (ctl : Word) (r : Reg), (s.boot.bar0 = true) ∧ (s.ready = true) ∧ (s.debugOpen = true) ∧
      (s.bit Reg.SEC_DEBUG_ACCESS_CTL SEC_DEBUG_ACCESS_CTL_BUSY = false) ∧ (getF ctl SEC_DEBUG_ACCESS_CTL_GO =
      1) ∧ (getF ctl SEC_DEBUG_ACCESS_CTL_SPACE = 0) ∧ (PlainReg r) ∧ (getF ctl SEC_DEBUG_ACCESS_CTL_ADDR =
      r.offset) ∧ (s.unitAnswers (getF ctl SEC_DEBUG_ACCESS_CTL_ADDR) = true) ∧ (getF ctl
      SEC_DEBUG_ACCESS_CTL_WRITE = 0)) ∧
    (∃ (s : State) (ctl : Word) (r : Reg), (s.boot.bar0 = true) ∧ (s.ready = true) ∧ (s.debugOpen = true) ∧
      (s.bit Reg.SEC_DEBUG_ACCESS_CTL SEC_DEBUG_ACCESS_CTL_BUSY = false) ∧ (getF ctl SEC_DEBUG_ACCESS_CTL_GO =
      1) ∧ (getF ctl SEC_DEBUG_ACCESS_CTL_SPACE = 0) ∧ (getF ctl SEC_DEBUG_ACCESS_CTL_WRITE = 1) ∧ (getF ctl
      SEC_DEBUG_ACCESS_CTL_ADDR = r.offset) ∧ (PlainReg r ∧ s.unitAnswers (getF ctl SEC_DEBUG_ACCESS_CTL_ADDR)
      = false ∨ (∃ m, m < 8 ∧ (r = Reg.ABT_CWIN_CFG m ∨ r = Reg.ABT_CWIN_STATUS m)) ∧ s.cwdPresent = false)) ∧
    (∃ (s : State) (ctl : Word), (s.boot.bar0 = true) ∧ (s.ready = true) ∧ (s.debugOpen = true) ∧ (s.bit
      Reg.SEC_DEBUG_ACCESS_CTL SEC_DEBUG_ACCESS_CTL_BUSY = false) ∧ (getF ctl SEC_DEBUG_ACCESS_CTL_GO = 1) ∧
      (getF ctl SEC_DEBUG_ACCESS_CTL_SPACE = 1) ∧ (s.stackUp (getF ctl SEC_DEBUG_ACCESS_CTL_STACK) = true) ∧
      (getF ctl SEC_DEBUG_ACCESS_CTL_ADDR % 8 = 0) ∧ (getF ctl SEC_DEBUG_ACCESS_CTL_ADDR + 8 ≤ s.tierSize
      (getF ctl SEC_DEBUG_ACCESS_CTL_STACK) (getF ctl SEC_DEBUG_ACCESS_CTL_TIER == 1)) ∧ ((s.stack (getF ctl
      SEC_DEBUG_ACCESS_CTL_STACK)).nearErr = []) ∧ ((s.stack (getF ctl SEC_DEBUG_ACCESS_CTL_STACK)).farErr =
      []) ∧ ((s.stack (getF ctl SEC_DEBUG_ACCESS_CTL_STACK)).repairing = []) ∧ ((s.stack (getF ctl
      SEC_DEBUG_ACCESS_CTL_STACK)).anyPoison (getF ctl SEC_DEBUG_ACCESS_CTL_TIER == 1) (linesOf (getF ctl
      SEC_DEBUG_ACCESS_CTL_ADDR) 8) = false) ∧ ((s.stack (getF ctl SEC_DEBUG_ACCESS_CTL_STACK)).lineHolds =
      []) ∧ (∀ (line : Nat), line ∈ linesOf ((if (getF ctl SEC_DEBUG_ACCESS_CTL_TIER == 1) = true then
      1099511627776 else 0) + getF ctl SEC_DEBUG_ACCESS_CTL_ADDR) 8 → s.lineWaiters (getF ctl
      SEC_DEBUG_ACCESS_CTL_STACK) line = []) ∧ (getF ctl SEC_DEBUG_ACCESS_CTL_WRITE = 1)) ∧
    (∃ (s : State) (ctl : Word), (s.boot.bar0 = true) ∧ (s.ready = true) ∧ (s.debugOpen = true) ∧ (s.bit
      Reg.SEC_DEBUG_ACCESS_CTL SEC_DEBUG_ACCESS_CTL_BUSY = false) ∧ (getF ctl SEC_DEBUG_ACCESS_CTL_GO = 1) ∧
      (getF ctl SEC_DEBUG_ACCESS_CTL_SPACE = 1) ∧ (s.stackUp (getF ctl SEC_DEBUG_ACCESS_CTL_STACK) = true) ∧
      (getF ctl SEC_DEBUG_ACCESS_CTL_ADDR % 8 = 0) ∧ (getF ctl SEC_DEBUG_ACCESS_CTL_ADDR + 8 ≤ s.tierSize
      (getF ctl SEC_DEBUG_ACCESS_CTL_STACK) (getF ctl SEC_DEBUG_ACCESS_CTL_TIER == 1)) ∧ ((s.stack (getF ctl
      SEC_DEBUG_ACCESS_CTL_STACK)).nearErr = []) ∧ ((s.stack (getF ctl SEC_DEBUG_ACCESS_CTL_STACK)).farErr =
      []) ∧ ((s.stack (getF ctl SEC_DEBUG_ACCESS_CTL_STACK)).repairing = []) ∧ ((s.stack (getF ctl
      SEC_DEBUG_ACCESS_CTL_STACK)).anyPoison (getF ctl SEC_DEBUG_ACCESS_CTL_TIER == 1) (linesOf (getF ctl
      SEC_DEBUG_ACCESS_CTL_ADDR) 8) = false) ∧ ((s.stack (getF ctl SEC_DEBUG_ACCESS_CTL_STACK)).lineHolds =
      []) ∧ (∀ (line : Nat), line ∈ linesOf ((if (getF ctl SEC_DEBUG_ACCESS_CTL_TIER == 1) = true then
      1099511627776 else 0) + getF ctl SEC_DEBUG_ACCESS_CTL_ADDR) 8 → s.lineWaiters (getF ctl
      SEC_DEBUG_ACCESS_CTL_STACK) line = []) ∧ (getF ctl SEC_DEBUG_ACCESS_CTL_WRITE = 0)) ∧
    (∃ (s : State) (ctl : Word) (h : Packet), (s.boot.bar0 = true) ∧ (s.ready = true) ∧ (s.debugOpen = true) ∧
      (s.bit Reg.SEC_DEBUG_ACCESS_CTL SEC_DEBUG_ACCESS_CTL_BUSY = false) ∧ (getF ctl SEC_DEBUG_ACCESS_CTL_GO =
      1) ∧ (getF ctl SEC_DEBUG_ACCESS_CTL_SPACE = 1) ∧ (s.stackUp (getF ctl SEC_DEBUG_ACCESS_CTL_STACK) =
      true) ∧ (getF ctl SEC_DEBUG_ACCESS_CTL_ADDR % 8 = 0) ∧ (getF ctl SEC_DEBUG_ACCESS_CTL_ADDR + 8 ≤
      s.tierSize (getF ctl SEC_DEBUG_ACCESS_CTL_STACK) (getF ctl SEC_DEBUG_ACCESS_CTL_TIER == 1)) ∧
      (s.lineHolder (getF ctl SEC_DEBUG_ACCESS_CTL_STACK) (((if (getF ctl SEC_DEBUG_ACCESS_CTL_TIER == 1) =
      true then 1099511627776 else 0) + getF ctl SEC_DEBUG_ACCESS_CTL_ADDR) / 128) = some h) ∧
      (s.keeper.debugHeld = none) ∧ ((s.stack (getF ctl SEC_DEBUG_ACCESS_CTL_STACK)).turns (debugPacket
      (s.node (getF ctl SEC_DEBUG_ACCESS_CTL_STACK))
      { write := getF ctl SEC_DEBUG_ACCESS_CTL_WRITE == 1, stack := getF ctl SEC_DEBUG_ACCESS_CTL_STACK, far := getF ctl SEC_DEBUG_ACCESS_CTL_TIER == 1, addr := getF ctl SEC_DEBUG_ACCESS_CTL_ADDR, data := s.reg Reg.SEC_DEBUG_ACCESS_DATA })
      = 0)) ∧
    (∃ (s : State) (ctl : Word) (c : CtxId), (s.boot.bar0 = true) ∧ (s.ready = true) ∧ (s.debugOpen = true) ∧
      (s.bit Reg.SEC_DEBUG_ACCESS_CTL SEC_DEBUG_ACCESS_CTL_BUSY = false) ∧ (getF ctl SEC_DEBUG_ACCESS_CTL_GO =
      1) ∧ (getF ctl SEC_DEBUG_ACCESS_CTL_SPACE = 2) ∧ (c.wf = true) ∧ (c.stack = getF ctl
      SEC_DEBUG_ACCESS_CTL_STACK) ∧ (c.bench + 65536 * c.ctx = getF ctl SEC_DEBUG_ACCESS_CTL_ADDR) ∧
      (s.stackUp (getF ctl SEC_DEBUG_ACCESS_CTL_STACK) = true) ∧ (s.vacant (getF ctl
      SEC_DEBUG_ACCESS_CTL_STACK) c.bench = false) ∧ (getF ctl SEC_DEBUG_ACCESS_CTL_WRITE = 1) ∧ (s.reg
      Reg.SEC_DEBUG_ACCESS_DATA = 1)) ∧
    (∃ (s : State) (ctl : Word) (c : CtxId), (s.boot.bar0 = true) ∧ (s.ready = true) ∧ (s.debugOpen = true) ∧
      (s.bit Reg.SEC_DEBUG_ACCESS_CTL SEC_DEBUG_ACCESS_CTL_BUSY = false) ∧ (getF ctl SEC_DEBUG_ACCESS_CTL_GO =
      1) ∧ (getF ctl SEC_DEBUG_ACCESS_CTL_SPACE = 2) ∧ (c.wf = true) ∧ (c.stack = getF ctl
      SEC_DEBUG_ACCESS_CTL_STACK) ∧ (c.bench + 65536 * c.ctx = getF ctl SEC_DEBUG_ACCESS_CTL_ADDR) ∧
      (s.stackUp (getF ctl SEC_DEBUG_ACCESS_CTL_STACK) = true) ∧ (s.vacant (getF ctl
      SEC_DEBUG_ACCESS_CTL_STACK) c.bench = false) ∧ (getF ctl SEC_DEBUG_ACCESS_CTL_WRITE = 1) ∧ (s.reg
      Reg.SEC_DEBUG_ACCESS_DATA = 2)) ∧
    (∃ (s : State) (ctl : Word) (c : CtxId), (s.boot.bar0 = true) ∧ (s.ready = true) ∧ (s.debugOpen = true) ∧
      (s.bit Reg.SEC_DEBUG_ACCESS_CTL SEC_DEBUG_ACCESS_CTL_BUSY = false) ∧ (getF ctl SEC_DEBUG_ACCESS_CTL_GO =
      1) ∧ (getF ctl SEC_DEBUG_ACCESS_CTL_SPACE = 2) ∧ (c.wf = true) ∧ (c.stack = getF ctl
      SEC_DEBUG_ACCESS_CTL_STACK) ∧ (c.bench + 65536 * c.ctx = getF ctl SEC_DEBUG_ACCESS_CTL_ADDR) ∧
      (s.stackUp (getF ctl SEC_DEBUG_ACCESS_CTL_STACK) = true) ∧ (s.vacant (getF ctl
      SEC_DEBUG_ACCESS_CTL_STACK) c.bench = false) ∧ (getF ctl SEC_DEBUG_ACCESS_CTL_WRITE = 0)) ∧
    (∃ (s : State) (ctl : Word), (s.boot.bar0 = true) ∧ (s.ready = true) ∧ (s.debugOpen = true) ∧ (s.bit
      Reg.SEC_DEBUG_ACCESS_CTL SEC_DEBUG_ACCESS_CTL_BUSY = true) ∧ (getF ctl SEC_DEBUG_ACCESS_CTL_GO = 1) ∧
      (getF ctl SEC_DEBUG_ACCESS_CTL_SPACE = 1)) ∧
    (∃ (s : State) (ctl : Word) (data : Word), (s.boot.powered = true) ∧ (s.boot.trstHigh = true) ∧
      (s.keeper.jtagIr = 16) ∧ (s.debugOpen = true) ∧ (getF ctl SEC_DEBUG_ACCESS_CTL_GO = 0)) ∧
    (∃ (s : State) (ctl : Word) (data : Word), (s.boot.powered = true) ∧ (s.boot.trstHigh = true) ∧
      (s.keeper.jtagIr = 1)) ∧
    (∃ (s : State) (ctl : Word) (data : Word), (s.boot.powered = true) ∧ (s.boot.trstHigh = true) ∧
      (s.keeper.jtagIr = 0 ∨ s.keeper.jtagIr = 2)) ∧
    (∃ (s : State) (ctl : Word) (data : Word), (s.boot.powered = true) ∧ (s.boot.trstHigh = true) ∧
      (s.keeper.jtagIr = 255)) ∧
    (∃ (s : State) (ctl : Word) (data : Word), (s.boot.powered = true) ∧ (s.boot.trstHigh = false)) := by
  and_intros
  · exact ⟨dataOf 0xFFFFFFFFFFFFFFFF debugIn, acc 0 1 0 Reg.SWC_CELL_CFG.offset, .SWC_CELL_CFG,
    by delta PlainReg; decide +kernel⟩
  · exact ⟨debugIn, acc 0 0 0 Reg.SWC_CELL_CFG.offset, .SWC_CELL_CFG, by delta PlainReg; decide +kernel⟩
  · exact ⟨debugIn.setBit .CAP_UNITS CAP_UNITS_CWD_PRESENT false, acc 0 1 0 (Reg.ABT_CWIN_CFG 3).offset,
          .ABT_CWIN_CFG 3, by
      and_intros <;> first | decide +kernel | exact .inr ⟨⟨3, by decide, .inl rfl⟩, by decide +kernel⟩⟩
  · exact ⟨dataOf 0x1122334455667788 debugIn, acc 1 1 0 0x100, by decide +kernel⟩
  · exact ⟨debugIn.modStack 0 (fun k => { k with near := Mem.writeBytes [] 0x100 grain }), acc 1 0 0 0x108,
      by decide +kernel⟩
  · exact ⟨(sw (fun w => { w with egress := [(16 * 64, [{ pkt 2 0 0x100 [1] with src := 0x4B52 }])] })
          debugIn).modStack 0 (fun k =>
          { k with lineHolds := [⟨{ pkt 2 0 0x100 [1] with src := 0x4B52 }, 1⟩] }), acc 1 0 0 0x108,
          { pkt 2 0 0x100 [1] with src := 0x4B52 }, by decide +kernel⟩
  · exact ⟨dataOf 1 debugIn, acc 2 1 0 0x10003, ⟨0, 3, 1⟩, by decide +kernel⟩
  · exact ⟨dataOf 2 debugIn, acc 2 1 0 0x10003, ⟨0, 3, 1⟩, by decide +kernel⟩
  · exact ⟨debugIn, acc 2 0 0 0x10003, ⟨0, 3, 1⟩, by decide +kernel⟩
  · exact ⟨debugIn.setBit .SEC_DEBUG_ACCESS_CTL SEC_DEBUG_ACCESS_CTL_BUSY true, acc 1 0 0 0,
          by decide +kernel⟩
  · exact ⟨debugJtag, 0, 0x1234, by decide +kernel⟩
  · exact ⟨live, 0, 5, by decide +kernel⟩
  · exact ⟨{ live with keeper := { live.keeper with jtagIr := 2 } }, 1, 5, by decide +kernel⟩
  · exact ⟨{ live with keeper := { live.keeper with jtagIr := 0xFF } }, 1, 5, by decide +kernel⟩
  · exact ⟨{ debugJtag with boot := { live.boot with trstHigh := false } }, 1, 0x1234, by decide +kernel⟩

/-- States and operands that meet the hypotheses of each clause of DebugOpensAndCloses. -/
theorem meets_DebugOpensAndCloses :
    (∃ (s : State) (ir : BitVec 8), (s.debugOpen = false) ∧ (s.jtagOpen = false) ∧ (s.permit Requester.bar0
      Reg.SEC_DEBUG = Admit.ok)) ∧
    (∃ (s : State) (ir : BitVec 8), (s.debugOpen = false) ∧ (s.jtagOpen = false) ∧ (s.boot.powered = true) ∧
      (s.boot.trstHigh = true) ∧ (ir ≠ 255) ∧ (ir ≠ 1)) ∧
    (∃ (s : State) (ir : BitVec 8), (s.debugOpen = true) ∧ (s.jtagOpen = false) ∧ (s.permit Requester.bar0
      Reg.SEC_DEBUG = Admit.ok)) ∧
    (∃ (s : State) (ir : BitVec 8), (s.debugOpen = true) ∧ (s.jtagOpen = true) ∧ (s.permit Requester.bar0
      Reg.SEC_DEBUG = Admit.ok)) ∧
    (∃ (s : State) (ir : BitVec 8), (s.debugOpen = true) ∧ (s.boot.powered = true) ∧ (s.bit Reg.SEC_DEBUG
      SEC_DEBUG_OPEN = false) ∧ (s.boot.trstHigh = true) ∧ (ir = 255 ∨ ir = 1)) ∧
    (∃ (s : State) (ir : BitVec 8), (s.debugOpen = true) ∧ (s.boot.powered = true) ∧ (s.bit Reg.SEC_DEBUG
      SEC_DEBUG_OPEN = false)) ∧
    (∃ (s : State) (ir : BitVec 8), (s.boot.trstHigh = false) ∧ (ir ≠ 255) ∧ (ir ≠ 1)) := by
  and_intros
  · exact ⟨paged 1, 1, by decide +kernel⟩
  · exact ⟨paged 1, 0x10, by decide +kernel⟩
  · exact ⟨debugIn, 1, by decide +kernel⟩
  · exact ⟨debugJtag, 1, by decide +kernel⟩
  · exact ⟨debugJtag, 0xFF, by decide +kernel⟩
  · exact ⟨debugJtag, 0xFF, by decide +kernel⟩
  · exact ⟨{ paged 1 with boot := { live.boot with trstHigh := false } }, 0x10, by decide +kernel⟩

/-- States and operands that meet the hypotheses of each clause of DescriptorsAreFetchedAndCompleted. -/
theorem meets_DescriptorsAreFetchedAndCompleted :
    (∃ (s : State) (n : Nat) (r : Nat), (r < 64) ∧ (s.hostMayFetch r = true) ∧ (s.ringTurn (RingId.host r) =
      true)) ∧
    (∃ (s : State) (n : Nat) (r : Nat), (n < 8) ∧ (r < 8) ∧ (s.devMayFetch n r = true) ∧ (s.ringTurn
      (RingId.dev n r) = true)) ∧
    (∃ (s : State) (n : Nat) (r : Nat) (h : Nat) (bs : List Byte) (d : Desc), (s.desc? h = some d) ∧ (d.st =
      DescSt.fetched) ∧ (s.turnOk d = true) ∧ (s.endsAtTurn d = true)) ∧
    (∃ (s : State) (n : Nat) (r : Nat) (h : Nat) (bs : List Byte) (d : Desc), (s.desc? h = some d) ∧ (d.st =
      DescSt.fetched) ∧ (s.turnOk d = true) ∧ (s.endsAtTurn d = false) ∧ (d.needsEngine = false)) ∧
    (∃ (s : State) (n : Nat) (r : Nat) (h : Nat) (bs : List Byte) (d : Desc) (i : Nat), (s.desc? h = some d) ∧
      (d.st = DescSt.fetched) ∧ (s.turnOk d = true) ∧ (s.endsAtTurn d = false) ∧ (d.needsEngine = true) ∧ (i <
      16) ∧ (s.unitFailed kindDma d.stack i = false) ∧ (∀ (e : Desc), e ∈ s.host.descs → e.stack = d.stack →
      e.engine ≠ i + 1) ∧ (∀ (b : Rebuild), b ∈ (s.stack d.stack).rebuilds → b.engine ≠ i + 1) ∧ (∀ (j : Nat),
      j < i → s.unitFailed kindDma d.stack j = true)) ∧
    (∃ (s : State) (n : Nat) (r : Nat) (h : Nat) (bs : List Byte) (d : Desc), (s.desc? h = some d) ∧ (d.st =
      DescSt.fetched) ∧ (s.turnOk d = true) ∧ (s.endsAtTurn d = false) ∧ (d.needsEngine = true) ∧
      (s.freeEngine d.stack = none)) ∧
    (∃ (s : State) (h : Nat) (r : Nat) (n : Nat) (d : Desc), (s.desc? h = some d) ∧ (s.settledDesc d = true) ∧
      (∀ (e : Desc), e ∈ s.host.descs → e.st ≠ DescSt.waitSegs) ∧ (d.ring = RingId.host r)) ∧
    (∃ (s : State) (h : Nat) (r : Nat) (n : Nat) (d : Desc), (s.desc? h = some d) ∧ (s.settledDesc d = true) ∧
      (∀ (e : Desc), e ∈ s.host.descs → e.st ≠ DescSt.waitSegs) ∧ (d.ring = RingId.dev n r) ∧ (0 < s.dringSize
      n r) ∧ (s.bit (Reg.HCORE_DRING_CFG n r) HCORE_DRING_CFG_IRQ = false)) := by
  and_intros
  · exact ⟨posted, 0, 0, by decide +kernel⟩
  · exact ⟨devRing, 0, 7, by decide +kernel⟩
  · exact ⟨given { desc 0x0E [] with st := .fetched, status := 8 }, 0, 0, 1, [],
    { desc 0x0E [] with st := .fetched, status := 8 }, by decide +kernel⟩
  · exact ⟨given { desc 0x0E [] with st := .fetched }, 0, 0, 1, [], { desc 0x0E [] with st := .fetched },
      by decide +kernel⟩
  · exact ⟨given { desc 2 [] with st := .fetched }, 0, 0, 1, [], { desc 2 [] with st := .fetched }, 0,
      by decide +kernel⟩
  · exact ⟨(given { desc 1 [] with st := .fetched }).modStack 0 (fun k =>
          { k with rebuilds := (List.range 16).map (fun i => ⟨region 64, true, i + 1, true, 0, 5⟩) }), 0, 0,
          1, [], { desc 1 [] with st := .fetched }, by decide +kernel⟩
  · exact ⟨given (finishedDesc (desc 0x0E [])), 1, 0, 0, finishedDesc (desc 0x0E []), by decide +kernel⟩
  · exact ⟨{ devRing with host := { devRing.host with descs := [{ finishedDesc (desc 0x0E []) with ring := .dev 0 7 }] } },
    1, 7, 0, { finishedDesc (desc 0x0E []) with ring := .dev 0 7 },


      by decide +kernel⟩

/-- States and operands that meet the hypotheses of each clause of DeviceRingsAreSetUpAndPosted. -/
theorem meets_DeviceRingsAreSetUpAndPosted :
    (∃ (s : State) (who : Requester) (n : Nat) (r : Nat) (value : Word), (n < 8) ∧ (r < 8) ∧ (s.permit who
      (Reg.HCORE_DRING_CFG n r) = Admit.ok) ∧ (getF value HCORE_DRING_CFG_SIZE = 0)) ∧
    (∃ (s : State) (who : Requester) (n : Nat) (r : Nat) (value : Word), (n < 8) ∧ (r < 8) ∧ (s.permit who
      (Reg.HCORE_DRING_CFG n r) = Admit.ok) ∧ (getF value HCORE_DRING_CFG_SIZE ∈ [16, 32, 64, 128, 256, 512,
      1024, 2048, 4096])) ∧
    (∃ (s : State) (who : Requester) (n : Nat) (r : Nat) (value : Word), (n < 8) ∧ (r < 8) ∧ (s.permit who
      (Reg.HCORE_DRING_CFG n r) = Admit.ok) ∧ (getF value HCORE_DRING_CFG_SIZE ≠ 0) ∧ (¬getF value
      HCORE_DRING_CFG_SIZE ∈ [16, 32, 64, 128, 256, 512, 1024, 2048, 4096])) ∧
    (∃ (s : State) (who : Requester) (n : Nat) (r : Nat) (value : Word), (n < 8) ∧ (r < 8) ∧ (s.permit who
      (Reg.HCORE_DRING_IDX n r) = Admit.ok)) := by
  and_intros
  · exact ⟨cored 1, .core 0 2, 0, 7, 0, by decide +kernel⟩
  · exact ⟨cored 1, .core 0 2, 0, 0, setF 0 HCORE_DRING_CFG_SIZE 4096, by decide +kernel⟩
  · exact ⟨cored 1, .core 0 2, 0, 7, setF 0 HCORE_DRING_CFG_SIZE 65, by decide +kernel⟩
  · exact ⟨cored 1, .core 0 2, 0, 7, setF 0 HCORE_DRING_IDX_TAIL 3, by decide +kernel⟩

/-- States and operands that meet the hypotheses of each clause of DrawerInstructions. -/
theorem meets_DrawerInstructions :
    (∃ (s : State) (c : CtxId) (f : MForm), (Runs s c) ∧ (mOk 34 f = true) ∧ (InDrawer (BitVec.toNat ((s.ctx
      c).sreg f.sa.toNat + BitVec.signExtend 64 f.imm)) 8 8) ∧ (DrawerClean s c (BitVec.toNat ((s.ctx c).sreg
      f.sa.toNat + BitVec.signExtend 64 f.imm)) 8)) ∧
    (∃ (s : State) (c : CtxId) (f : MForm), (Runs s c) ∧ (mOk 35 f = true) ∧ (InDrawer (BitVec.toNat ((s.ctx
      c).sreg f.sa.toNat + BitVec.signExtend 64 f.imm)) 8 8)) ∧
    (∃ (s : State) (c : CtxId) (f : MForm), (Runs s c) ∧ (InDrawer (BitVec.toNat ((s.ctx c).sreg f.sa.toNat +
      BitVec.signExtend 64 f.imm)) 64 (64 * fmtBytes f.sub)) ∧ (mOk 32 f = true) ∧ (DrawerClean s c
      (BitVec.toNat ((s.ctx c).sreg f.sa.toNat + BitVec.signExtend 64 f.imm)) (64 * fmtBytes f.sub))) ∧
    (∃ (s : State) (c : CtxId) (f : MForm), (Runs s c) ∧ (InDrawer (BitVec.toNat ((s.ctx c).sreg f.sa.toNat +
      BitVec.signExtend 64 f.imm)) 64 (64 * fmtBytes f.sub)) ∧ (mOk 33 f = true)) ∧
    (∃ (s : State) (c : CtxId) (f : MForm) (i : Instr) (op : Nat) (len : Nat), (Runs s c) ∧ ((i, op, len) ∈
      [(Instr.sld c f, 34, 8), (Instr.vld c f, 32, 64 * fmtBytes f.sub)]) ∧ (mOk op f = true) ∧ (InDrawer
      (BitVec.toNat ((s.ctx c).sreg f.sa.toNat + BitVec.signExtend 64 f.imm)) (min len 64) len) ∧ (s.ctxBad c
      (BitVec.toNat ((s.ctx c).sreg f.sa.toNat + BitVec.signExtend 64 f.imm)) len = true)) ∧
    (∃ (s : State) (c : CtxId) (f : MForm) (len : Nat) (w : Nat), (Runs s c)) ∧
    (∃ (s : State) (c : CtxId) (f : MForm) (len : Nat), (Runs s c)) ∧
    (∃ (s : State) (c : CtxId) (f : MForm) (i : Instr) (op : Nat) (align : Nat) (w : Nat), (Runs s c) ∧ ((i,
      op, align, w) ∈ [(Instr.sld c f, 34, 8, 8), (Instr.sst c f, 35, 8, 8), (Instr.vld c f, 32, 64, 64 *
      fmtBytes f.sub), (Instr.vst c f, 33, 64, 64 * fmtBytes f.sub)]) ∧ (mOk op f = true) ∧ (0 < w) ∧ (1048576
      < BitVec.toNat ((s.ctx c).sreg f.sa.toNat + BitVec.signExtend 64 f.imm) + w ∨ BitVec.toNat ((s.ctx
      c).sreg f.sa.toNat + BitVec.signExtend 64 f.imm) % align ≠ 0)) := by
  and_intros
  · exact ⟨run, c0, mf 31 8 0 0 0 0 0xFFFFFF8, by delta Runs DrawerClean InDrawer; decide +kernel⟩
  · exact ⟨run, c0, mf 2 8 0 0 0 0 0xFFFFFF8, by delta Runs InDrawer; decide +kernel⟩
  · exact ⟨run, c0, mf 63 8 0 0 0 4 0xFFFFF00, by delta Runs DrawerClean InDrawer; decide +kernel⟩
  · exact ⟨run, c0, mf 1 8 0 0 0 4 0xFFFFF00, by delta Runs InDrawer; decide +kernel⟩
  · exact ⟨run.modStack 0 (fun k => { k with drawerBad := [131071] }), c0, mf 31 8 0 0 0 0 0xFFFFFF8, .sld
          c0 (mf 31 8 0 0 0 0 0xFFFFFF8), 0x22, 8, by delta Runs InDrawer; decide +kernel⟩
  · exact ⟨run, c0, mf 2 8 0 0 0 0 0xFFFFFF8, 8, 0, by delta Runs; decide +kernel⟩
  · exact ⟨run, c0, mf 2 8 0 0 0 0 0xFFFFFF8, 8, by delta Runs; decide +kernel⟩
  · exact ⟨run, c0, mf 31 8 0 0 0 0 0xFFFFFFC, .sld c0 (mf 31 8 0 0 0 0 0xFFFFFFC), 0x22, 8, 8,
    by delta Runs; decide +kernel⟩

/-- States and operands that meet the hypotheses of each clause of FabricInstructionsHandAccessToAbutment. -/
theorem meets_FabricInstructionsHandAccessToAbutment :
    (∃ (s : State) (c : CtxId) (f : MForm) (e : TlbEntry), (Runs s c) ∧ (BitVec.toNat ((s.ctx c).sreg
      f.sb.toNat) ≤ 256) ∧ (mOk 36 f = true) ∧ (s.mayAccess c = true) ∧ (Translated s c 1 ((s.ctx c).sreg
      f.sa.toNat + BitVec.signExtend 64 f.imm) (BitVec.toNat ((s.ctx c).sreg f.sb.toNat)) e)) ∧
    (∃ (s : State) (c : CtxId) (f : MForm) (e : TlbEntry), (Runs s c) ∧ (BitVec.toNat ((s.ctx c).sreg
      f.sc.toNat) ≤ 8192) ∧ (InDrawer (BitVec.toNat ((s.ctx c).sreg f.sb.toNat)) 64 (BitVec.toNat ((s.ctx
      c).sreg f.sc.toNat))) ∧ (DrawerClean s c (BitVec.toNat ((s.ctx c).sreg f.sb.toNat)) (BitVec.toNat
      ((s.ctx c).sreg f.sc.toNat))) ∧ (mOk 37 f = true) ∧ (s.mayAccess c = true) ∧ (Translated s c 2 ((s.ctx
      c).sreg f.sa.toNat + BitVec.signExtend 64 f.imm) (BitVec.toNat ((s.ctx c).sreg f.sc.toNat)) e)) ∧
    (∃ (s : State) (c : CtxId) (f : MForm) (e : TlbEntry), (Runs s c) ∧ (BitVec.toNat ((s.ctx c).sreg
      f.sa.toNat + BitVec.signExtend 64 f.imm) % 8 = 0) ∧ (mOk 38 f = true) ∧ (s.mayAccess c = true) ∧
      (Translated s c 3 ((s.ctx c).sreg f.sa.toNat + BitVec.signExtend 64 f.imm) 8 e)) ∧
    (∃ (s : State) (c : CtxId) (f : MForm) (e : TlbEntry), (Runs s c) ∧ (BitVec.toNat ((s.ctx c).sreg
      f.sa.toNat + BitVec.signExtend 64 f.imm) % atomicSize f.sub.toNat (f.opt.getLsbD 0) = 0) ∧ (f.sub ≠ 4) ∧
      (mOk 39 f = true) ∧ (s.mayAccess c = true) ∧ (Translated s c 4 ((s.ctx c).sreg f.sa.toNat +
      BitVec.signExtend 64 f.imm) (atomicSize f.sub.toNat (f.opt.getLsbD 0)) e)) ∧
    (∃ (s : State) (c : CtxId) (f : MForm) (e : TlbEntry), (Runs s c) ∧ (BitVec.toNat ((s.ctx c).sreg
      f.sa.toNat + BitVec.signExtend 64 f.imm) % atomicSize 4 (f.opt.getLsbD 0) = 0) ∧ (f.sub = 4) ∧ (mOk 39 f
      = true) ∧ (s.mayAccess c = true) ∧ (Translated s c 4 ((s.ctx c).sreg f.sa.toNat + BitVec.signExtend 64
      f.imm) (atomicSize 4 (f.opt.getLsbD 0)) e)) ∧
    (∃ (s : State) (c : CtxId) (f : MForm) (e : TlbEntry), (Runs s c) ∧ (BitVec.toNat ((s.ctx c).sreg
      f.sc.toNat) ≤ 8192) ∧ (InDrawer (BitVec.toNat ((s.ctx c).sreg f.sb.toNat)) 64 (BitVec.toNat ((s.ctx
      c).sreg f.sc.toNat))) ∧ (DrawerClean s c (BitVec.toNat ((s.ctx c).sreg f.sb.toNat)) (BitVec.toNat
      ((s.ctx c).sreg f.sc.toNat))) ∧ (BitVec.toNat ((s.ctx c).sreg f.sa.toNat + BitVec.signExtend 64 f.imm) %
      fmtBytes f.sub = 0) ∧ (BitVec.toNat ((s.ctx c).sreg f.sc.toNat) % fmtBytes f.sub = 0) ∧ (mOk 40 f =
      true) ∧ (mAbsent s.intPresent 40 f = false) ∧ (s.mayAccess c = true) ∧ (Translated s c 5 ((s.ctx c).sreg
      f.sa.toNat + BitVec.signExtend 64 f.imm) (BitVec.toNat ((s.ctx c).sreg f.sc.toNat)) e)) ∧
    (∃ (s : State) (c : CtxId) (f : MForm) (e : TlbEntry), (Runs s c) ∧ (mOk 41 f = true)) ∧
    (∃ (s : State) (c : CtxId) (f : MForm) (e : TlbEntry), (Runs s c) ∧ (mOk 36 f = true) ∧ ((s.ctx c).sreg
      f.sb.toNat = 0)) ∧
    (∃ (s : State) (c : CtxId) (f : MForm) (e : TlbEntry), (Runs s c) ∧ (mOk 37 f = true) ∧ ((s.ctx c).sreg
      f.sc.toNat = 0)) ∧
    (∃ (s : State) (c : CtxId) (f : MForm) (e : TlbEntry), (Runs s c) ∧ (mOk 40 f = true) ∧ (mAbsent
      s.intPresent 40 f = false) ∧ ((s.ctx c).sreg f.sc.toNat = 0)) ∧
    (∃ (s : State) (c : CtxId) (f : MForm) (e : TlbEntry), (Runs s c) ∧ (0 < BitVec.toNat ((s.ctx c).sreg
      f.sb.toNat)) ∧ (BitVec.toNat ((s.ctx c).sreg f.sb.toNat) ≤ 256) ∧ (mOk 36 f = true) ∧ (s.mayAccess c =
      true) ∧ ((s.stack c.stack).lookup (s.ctx c).xctx (BitVec.toNat ((s.ctx c).sreg f.sa.toNat +
      BitVec.signExtend 64 f.imm)) = Xl.miss)) ∧
    (∃ (s : State) (c : CtxId) (f : MForm) (e : TlbEntry), (Runs s c) ∧ (0 < BitVec.toNat ((s.ctx c).sreg
      f.sb.toNat)) ∧ (BitVec.toNat ((s.ctx c).sreg f.sb.toNat) ≤ 256) ∧ (BitVec.toNat ((s.ctx c).sreg
      f.sb.toNat) ≤ e.left (BitVec.toNat ((s.ctx c).sreg f.sa.toNat + BitVec.signExtend 64 f.imm))) ∧ (mOk 36
      f = true) ∧ (s.mayAccess c = true) ∧ (s.role c.stack = 0) ∧ ((s.stack c.stack).lookup (s.ctx c).xctx
      (BitVec.toNat ((s.ctx c).sreg f.sa.toNat + BitVec.signExtend 64 f.imm)) = Xl.hit e) ∧ (hasRight e.rights
      1 = false)) ∧
    (∃ (s : State) (c : CtxId) (f : MForm) (e : TlbEntry), (Runs s c) ∧ (BitVec.toNat ((s.ctx c).sreg
      f.sa.toNat + BitVec.signExtend 64 f.imm) % 8 = 0) ∧ (8 ≤ e.left (BitVec.toNat ((s.ctx c).sreg f.sa.toNat
      + BitVec.signExtend 64 f.imm))) ∧ (mOk 38 f = true) ∧ (s.mayAccess c = true) ∧ (s.role c.stack = 0) ∧
      ((s.stack c.stack).lookup (s.ctx c).xctx (BitVec.toNat ((s.ctx c).sreg f.sa.toNat + BitVec.signExtend 64
      f.imm)) = Xl.hit e) ∧ (hasRight e.rights 3 = false)) ∧
    (∃ (s : State) (c : CtxId) (f : MForm) (e : TlbEntry) (i : Instr) (op : Nat), (Runs s c) ∧ ((i, op) ∈
      [(Instr.fld c f, 36), (Instr.fst c f, 37), (Instr.fstk c f, 38), (Instr.fatom c f, 39), (Instr.facc c f,
      40)]) ∧ (s.inLimit c op f (s.ctx c) = false)) := by
  and_intros
  · exact ⟨mapped, c0, mf 1 0 4 0 0 0 0, page, by delta Runs Translated; decide +kernel⟩
  · exact ⟨mapped, c0, mf 0 0 1 6 0 0 0x40, page, by delta Runs DrawerClean InDrawer Translated; decide +kernel⟩
  · exact ⟨mapped, c0, mf 0 1 2 0 0 0 0, page, by delta Runs Translated; decide +kernel⟩
  · exact ⟨mapped, c0, mf 3 1 2 0 1 7 0, page, by delta Runs Translated; decide +kernel⟩
  · exact ⟨mapped, c0, mf 3 1 2 0 1 4 0, page, by delta Runs Translated; decide +kernel⟩
  · exact ⟨mapped, c0, mf 0 0 1 6 2 4 0, page, by delta Runs DrawerClean InDrawer Translated; decide +kernel⟩
  · exact ⟨mapped, c0, mf 0 0 0 0 0 0 0, page, by delta Runs; decide +kernel⟩
  · exact ⟨mapped, c0, mf 0 0 0 0 0 0 0, page, by delta Runs; decide +kernel⟩
  · exact ⟨mapped, c0, mf 0 0 0 0 0 0 0, page, by delta Runs; decide +kernel⟩
  · exact ⟨mapped, c0, mf 0 0 0 0 0 0 0, page, by delta Runs; decide +kernel⟩
  · exact ⟨run, c0, mf 0 1 2 0 0 0 0, page, by delta Runs; decide +kernel⟩
  · exact ⟨run.modStack 0 (fun k => { k with tlb := [{ page with rights := 0 }] }), c0, mf 0 1 2 0 0 0 0,
          { page with rights := 0 }, by delta Runs; decide +kernel⟩
  · exact ⟨run.modStack 0 (fun k => { k with tlb := [{ page with rights := 1 }] }), c0, mf 0 1 2 0 0 0 0,
          { page with rights := 1 }, by delta Runs; decide +kernel⟩
  · exact ⟨run.modStack 0 (fun k =>
          { k with reqs := (List.range 64).map (fun i => { req with id := i + 1, acc := i, st := .sent }) }),
          c0, mf 1 0 4 0 0 0 0, page, .fld c0 (mf 1 0 4 0 0 0 0), 36, by delta Runs; decide +kernel⟩

/-- States and operands that meet the hypotheses of each clause of FailuresAreListed. -/
theorem meets_FailuresAreListed :
    (∃ (s : State) (u : UnitId), (s.ready = true) ∧ (s.host.notices.length < 256) ∧ (s.unitExists u = true) ∧
      (s.unitFailed u.kind u.stack u.index = false) ∧ (s.namesIt (unitEntry u causeLate s.boot.startCount) =
      false) ∧ (s.boot.defects.length + s.boot.unwritten.length < 4096) ∧ (u.kind = kindAbutment) ∧
      (s.stackJobs u.stack = [])) ∧
    (∃ (s : State) (u : UnitId), (s.ready = true) ∧ (s.host.notices.length < 256) ∧ (s.unitExists u = true) ∧
      (s.unitFailed u.kind u.stack u.index = false) ∧ (s.namesIt (unitEntry u causeLate s.boot.startCount) =
      false) ∧ (s.boot.defects.length + s.boot.unwritten.length < 4096) ∧ (u.kind = kindAtomic)) ∧
    (∃ (s : State) (u : UnitId), (s.ready = true) ∧ (s.host.notices.length < 256) ∧ (s.unitExists u = true) ∧
      (s.unitFailed u.kind u.stack u.index = false) ∧ (s.namesIt (unitEntry u causeLate s.boot.startCount) =
      false) ∧ (s.boot.defects.length + s.boot.unwritten.length < 4096) ∧ (u.kind = kindBench) ∧ (s.logicalOf
      u.stack u.index = none) ∧ (s.stackBroken u.stack = false)) ∧
    (∃ (s : State), (s.ready = true) ∧ (s.host.notices.length < 256) ∧ (s.boot.secondCopy ≠ s.boot.defects)) ∧
    (∃ (s : State) (e : Word) (rest : List Word), (s.ready = true) ∧ (s.host.notices.length < 256) ∧
      (s.boot.unwritten = e :: rest) ∧ (s.boot.secondCopy = s.boot.defects)) ∧
    (∃ (s : State), (s.ready = true) ∧ (s.host.notices.length < 256)) := by
  and_intros
  · exact ⟨live, ⟨kindAbutment, 7, 0⟩, by decide +kernel⟩
  · exact ⟨live, ⟨kindAtomic, 0, 0⟩, by decide +kernel⟩
  · exact ⟨live, ⟨kindBench, 7, 351⟩, by decide +kernel⟩
  · exact ⟨{ live with boot := { live.boot with secondCopy := [5] } }, by decide +kernel⟩
  · exact ⟨{ live with boot := { live.boot with unwritten := [5, 6] } }, 5, [6], by decide +kernel⟩
  · exact ⟨live, by decide +kernel⟩

/-- States and operands that meet the hypotheses of each clause of FlitsAreCarriedInOrder. -/
theorem meets_FlitsAreCarriedInOrder :
    (∃ (s : State) (p : Nat) (f : Flit), (p < 36) ∧ (s.portState p = 6) ∧ (f.fecOk = false ∨ f.crcOk = false)
      ∧ (f.kind = 0)) ∧
    (∃ (s : State) (p : Nat) (f : Flit), (p < 36) ∧ (s.portState p = 6) ∧ (f.fecOk = true) ∧ (f.crcOk = true)
      ∧ (f.kind = 0) ∧ (f.seq = (s.port p).rxSeq + 1) ∧ (f.tagOk = true)) ∧
    (∃ (s : State) (p : Nat) (f : Flit), (p < 36) ∧ (s.portState p = 6) ∧ (f.fecOk = true) ∧ (f.crcOk = true)
      ∧ (f.kind = 0) ∧ (f.seq = (s.port p).rxSeq + 1) ∧ (f.tagOk = false) ∧ (PortIdle p s)) ∧
    (∃ (s : State) (p : Nat) (f : Flit), (p < 36) ∧ (s.portState p = 6) ∧ (f.fecOk = true) ∧ (f.crcOk = true)
      ∧ (f.kind = 0) ∧ (f.seq ≠ (s.port p).rxSeq + 1)) ∧
    (∃ (s : State) (p : Nat) (f : Flit), (p < 36) ∧ (s.portState p = 6) ∧ (f.fecOk = true) ∧ (f.crcOk = true)
      ∧ (f.kind = 1)) ∧
    (∃ (s : State) (p : Nat) (f : Flit), (p < 36) ∧ (s.portState p = 6) ∧ (f.fecOk = true) ∧ (f.crcOk = true)
      ∧ (2 ≤ f.kind.toNat)) ∧
    (∃ (s : State) (p : Nat), (p < 36) ∧ (s.portState p = 6) ∧ (s.replayDue p = false) ∧ ((s.port p).txItem =
      none) ∧ ((s.port p).replay.length < 1024) ∧ (∀ (r : Nat), r < 9 → s.sw.egressQ p r = if r = 5 then []
      else []) ∧ (s.sw.framesAt p = [])) ∧
    (∃ (s : State) (p : Nat) (g : Frame), (p < 36) ∧ (s.portState p = 6) ∧ (s.replayDue p = false) ∧ ((s.port
      p).txItem = none) ∧ ((s.port p).replay.length < 1024) ∧ (∀ (r : Nat), r < 9 → s.sw.egressQ p r = if r =
      5 then [] else []) ∧ (s.sw.framesAt p = [g]) ∧ (8 + g.payload.length ≤ 484) ∧ (∀ (c : Nat), s.spanCells
      p g.label.toNat = some c → Tab.get 0 (s.port p).spanUsed g.label.toNat + frameCells g ≤ c) ∧ (s.tailPort
      (Sum.inr g) = none)) ∧
    (∃ (s : State) (p : Nat) (k : Packet), (p < 36) ∧ (s.portState p = 6) ∧ (s.replayDue p = false) ∧ ((s.port
      p).txItem = none) ∧ ((s.port p).replay.length < 1024) ∧ (∀ (r : Nat), r < 9 → s.sw.egressQ p r = if r =
      5 then [k] else []) ∧ (s.sw.framesAt p = []) ∧ (pktQueue k = 5) ∧ (24 + 64 * ((k.payload.length + 63) /
      64) ≤ 484) ∧ (pktCells k ≤ Tab.get 0 (s.port p).credit 5) ∧ (s.tailPort (Sum.inl k) = none) ∧ (k.op ≠
      3)) ∧
    (∃ (s : State) (p : Nat), (p < 36) ∧ (s.portState p = 6) ∧ (s.replayDue p = true) ∧ (∀ (x : TxFlit), x ∈
      (s.port p).replay → x.sends < 8)) ∧
    (∃ (s : State) (p : Nat) (x : TxFlit), (p < 36) ∧ (s.portState p = 6) ∧ (s.replayDue p = true) ∧ (x ∈
      (s.port p).replay) ∧ (8 ≤ x.sends) ∧ (PortIdle p s)) ∧
    (∃ (s : State) (p : Nat), (p < 36) ∧ (s.portState p = 6) ∧ (s.replayDue p = false) ∧ ((s.port
      p).replay.length < 1024) ∧ ((s.port p).txCut = true) ∧ (∃ x, (s.port p).txItem = some x)) ∧
    (∃ (s : State) (p : Nat), (p < 36) ∧ (s.portState p = 6) ∧ ((decide (2 ^ 44 ≤ (s.port p).txCount) ||
      decide (2 ^ 44 ≤ (s.port p).rxCount)) = false)) ∧
    (∃ (s : State) (p : Nat), (p < 36) ∧ (s.portState p = 6) ∧ ((decide (2 ^ 44 ≤ (s.port p).txCount) ||
      decide (2 ^ 44 ≤ (s.port p).rxCount)) = true) ∧ ((s.port p).keyWork = none)) ∧
    (∃ (s : State) (p : Nat) (i : Nat), (p < 36) ∧ (s.portState p = 6) ∧ ((decide (2 ^ 44 ≤ (s.port
      p).txCount) || decide (2 ^ 44 ≤ (s.port p).rxCount)) = true) ∧ ((s.port p).keyWork = some i) ∧ ((s.port
      p).farShare = none)) ∧
    (∃ (s : State) (p : Nat) (i : Nat) (m : FarShare), (p < 36) ∧ (s.portState p = 6) ∧ ((decide (2 ^ 44 ≤
      (s.port p).txCount) || decide (2 ^ 44 ≤ (s.port p).rxCount)) = true) ∧ ((s.port p).keyWork = some i) ∧
      ((s.port p).farShare = some m) ∧ (m.authOk = true)) ∧
    (∃ (s : State) (p : Nat) (i : Nat) (m : FarShare), (p < 36) ∧ (s.portState p = 6) ∧ ((decide (2 ^ 44 ≤
      (s.port p).txCount) || decide (2 ^ 44 ≤ (s.port p).rxCount)) = true) ∧ ((s.port p).keyWork = some i) ∧
      ((s.port p).farShare = some m) ∧ (m.authOk = false) ∧ (PortIdle p s)) ∧
    (∃ (s : State) (p : Nat), (p < 36) ∧ (s.portState p = 6) ∧ (PortIdle p s) ∧ (2 ^ 45 ≤ (s.port p).txCount ∨
      2 ^ 45 ≤ (s.port p).rxCount)) := by
  and_intros
  · exact ⟨port8 6 id, 8, { flit with badWords := 1 }, by decide +kernel⟩
  · exact ⟨port8 6 (fun x => { x with replay := [tx 1] }), 8,
    { flit with items := [.inl (pkt 1 0 0 []), .inr data6], creditClass := 3, credits := 9, seq := 0 + (live.port 8).rxSeq + 1 },


      by decide +kernel⟩
  · exact ⟨port8 6 id, 8, { flit with tagOk := false, seq := (live.port 8).rxSeq + 1 },
      by delta PortIdle; decide +kernel⟩
  · exact ⟨port8 6 id, 8, { flit with seq := (live.port 8).rxSeq + 2, nak := true }, by decide +kernel⟩
  · exact ⟨port8 6 id, 8, { flit with kind := 1, nak := true }, by decide +kernel⟩
  · exact ⟨port8 6 id, 8, { flit with kind := 3, nak := true }, by decide +kernel⟩
  · exact ⟨port8 6 id, 8, by decide +kernel⟩
  · exact ⟨sw (fun w => { w with frames := [(8, [data6])] }) (port8 6 id), 8, data6, by decide +kernel⟩
  · exact ⟨sw (fun w => { w with egress := [(8 * 16 + 5, [{ pkt 1 0 0 [] with cls := 2 }])] }) (port8 6 (fun
          x => { x with credit := [(5, 10)] })), 8, { pkt 1 0 0 [] with cls := 2 }, by decide +kernel⟩
  · exact ⟨port8 6 (fun x => { x with replay := [tx 1, tx 7], farNak := true }), 8, by decide +kernel⟩
  · exact ⟨port8 6 (fun x => { x with replay := [tx 1, tx 8], farNak := true }), 8, tx 8,
    by delta PortIdle; decide +kernel⟩
  · exact ⟨port8 6 (fun x => { x with txCut := true, txItem := some (.inr frame0) }), 8, by exact
          ⟨by decide +kernel, by decide +kernel, by decide +kernel, by decide +kernel, by decide +kernel,
          ⟨.inr frame0, by decide +kernel⟩⟩⟩
  · exact ⟨port8 6 (fun x => { x with replay := [tx 1, tx 7], farNak := true }), 8, by decide +kernel⟩
  · exact ⟨port8 6 (fun x => { x with txCount := 2 ^ 45 }), 8, by decide +kernel⟩
  · exact ⟨port8 6 (fun x => { x with txCount := 2 ^ 44, keyWork := some 3 }), 8, 3, by decide +kernel⟩
  · exact ⟨port8 6 (fun x => { x with txCount := 2 ^ 44, keyWork := some 3, farShare := some ⟨[], true⟩ }),
          8, 3, ⟨[], true⟩, by decide +kernel⟩
  · exact ⟨port8 6 (fun x => { x with txCount := 2 ^ 44, keyWork := some 3, farShare := some ⟨[], false⟩ }),
          8, 3, ⟨[], false⟩, by delta PortIdle; decide +kernel⟩
  · exact ⟨port8 6 (fun x => { x with txCount := 2 ^ 45 }), 8, by delta PortIdle; decide +kernel⟩

/-- States and operands that meet the hypotheses of each clause of GroupsAreBoundAndBroken. -/
theorem meets_GroupsAreBoundAndBroken :
    (∃ (s : State) (n : Nat) (g : Group) (up : BitVec 16) (down : BitVec 16) (c : Coll) (d : Desc), (n < 8) ∧
      (s.group? n g.id = some g) ∧ (s.fmNode ≠ 65535) ∧ (g.bound = false) ∧ (s.coll? n g.id = some c) ∧
      (s.desc? c.desc = some d) ∧ (d.group = g.id) ∧ (d.stack = n) ∧ (g.members = d.members) ∧ (g.rank =
      d.rank)) ∧
    (∃ (s : State) (n : Nat) (g : Group) (reason : Byte) (c : Coll) (d : Desc), (n < 8) ∧ (s.group? n g.id =
      some g) ∧ (s.fmNode ≠ 65535) ∧ (s.coll? n g.id = some c) ∧ (c.phase = 0) ∧ (DescHeld s c.desc d)) ∧
    (∃ (s : State) (n : Nat) (g : Group) (c : Coll) (d : Desc), (n < 8) ∧ (s.group? n g.id = some g) ∧
      (s.fmNode ≠ 65535) ∧ (g.bound = true) ∧ (s.coll? n g.id = some c) ∧ (c.phase < 5) ∧ (DescHeld s c.desc
      d)) ∧
    (∃ (s : State) (n : Nat) (g : Group) (src : BitVec 16) (c : Coll) (d : Desc), (n < 8) ∧ (s.group? n g.id =
      some g) ∧ (s.coll? n g.id = some c) ∧ (DescHeld s c.desc d) ∧ (g.bound = false) ∧ (c.phase = 0) ∧
      (g.since + 5 * 75200000 ≤ s.now)) ∧
    (∃ (s : State) (n : Nat) (g : Group) (src : BitVec 16) (c : Coll) (d : Desc), (n < 8) ∧ (s.group? n g.id =
      some g) ∧ (s.coll? n g.id = some c) ∧ (DescHeld s c.desc d) ∧ (0 < min 1000 (s.fld (Reg.ABT_COLL_CFG n)
      ABT_COLL_CFG_LIMIT)) ∧ (0 < c.phase) ∧ (c.phase < 5) ∧ (c.started + min 1000 (s.fld (Reg.ABT_COLL_CFG n)
      ABT_COLL_CFG_LIMIT) * 75200000 ≤ s.now)) := by
  and_intros
  · exact ⟨inColl { grp with bound := false } (collAt 0 0) [], 0, { grp with bound := false }, 40, 41, collAt 0 0,
    collDesc, by decide +kernel⟩
  · exact ⟨inColl { grp with bound := false } (collAt 0 0) [], 0, { grp with bound := false }, 3, collAt 0 0, collDesc,



      by delta DescHeld; decide +kernel⟩
  · exact ⟨inColl grp (collAt 3 1) [], 0, grp, collAt 3 1, collDesc, by delta DescHeld; decide +kernel⟩
  · exact ⟨later (inColl { grp with bound := false } (collAt 0 0) []), 0, { grp with bound := false }, 0, collAt 0 0,
    collDesc,


      by delta DescHeld; decide +kernel⟩
  · exact ⟨later (inColl grp (collAt 3 1) []), 0, grp, 0, collAt 3 1, collDesc, by delta DescHeld; decide +kernel⟩

/-- States and operands that meet the hypotheses of each clause of HeldDescriptorsBegin. -/
theorem meets_HeldDescriptorsBegin :
    (∃ (s : State) (h : Nat) (d : Desc), (s.desc? h = some d) ∧ (d.st = DescSt.started) ∧ (d.opcode = 9) ∧
      (s.span? d.stack d.spanId = none) ∧ ((s.stack d.stack).spansOut.length < 1024) ∧ (BitVec.ofNat 16
      (d.bits 1 63 48) ≠ s.node d.stack) ∧ (s.fmNode ≠ 65535)) ∧
    (∃ (s : State) (h : Nat) (d : Desc), (s.desc? h = some d) ∧ (d.st = DescSt.started) ∧ (d.opcode = 10) ∧
      (s.span? d.stack d.closes ≠ none)) ∧
    (∃ (s : State) (h : Nat) (d : Desc) (g : Group), (s.desc? h = some d) ∧ (d.st = DescSt.started) ∧
      (d.opcode = 4) ∧ (s.collAhead d = false) ∧ (s.group? d.stack d.group = some g) ∧ (g.bound = true) ∧
      (g.broken = false) ∧ (g.members = d.members) ∧ (g.rank = d.rank) ∧ (UpRoom s d.stack g.up 1)) ∧
    (∃ (s : State) (h : Nat) (d : Desc), (s.desc? h = some d) ∧ (d.st = DescSt.started) ∧ (d.opcode = 4) ∧
      (s.collAhead d = false) ∧ (s.group? d.stack d.group = none) ∧ (s.boundGroups d.stack < 64) ∧ (s.fmNode ≠
      65535)) ∧
    (∃ (s : State) (h : Nat) (d : Desc), (s.desc? h = some d) ∧ (d.st = DescSt.started) ∧ (d.opcode = 13) ∧
      (d.bits 2 39 0 = 0)) ∧
    (∃ (s : State) (h : Nat) (d : Desc), (s.desc? h = some d) ∧ (d.st = DescSt.started) ∧ (d.opcode = 13) ∧ (0
      < d.bits 2 39 0) ∧ (d.flag 2 62 = false) ∧ (∀ (e : Desc), e ∈ s.host.descs → e.segsHit d.stack d.xctx
      (BitVec.toNat (d.word 1)) (d.bits 2 39 0) = false ∧ e.st ≠ DescSt.waitSegs)) ∧
    (∃ (s : State) (h : Nat) (d : Desc), (s.desc? h = some d) ∧ (d.st = DescSt.started) ∧ (d.opcode = 12)) := by
  and_intros
  · exact ⟨given (desc 9 [5 * 2 ^ 48, 3 * 2 ^ 48 + 4096]), 1, desc 9 [5 * 2 ^ 48, 3 * 2 ^ 48 + 4096],
    by decide +kernel⟩
  · exact ⟨(given (desc 10 [3 * 2 ^ 48])).modStack 0 (fun k => { k with spansOut := [live.newSpan (desc 9 [5 * 2 ^ 48, 3 * 2 ^ 48 + 4096])] }),
    1, desc 10 [3 * 2 ^ 48],


      by decide +kernel⟩
  · exact ⟨grouped grp coll, 1, coll, grp, by delta UpRoom; decide +kernel⟩
  · exact ⟨given coll, 1, coll, by decide +kernel⟩
  · exact ⟨given (desc 13 [0, 0]), 1, desc 13 [0, 0], by decide +kernel⟩
  · exact ⟨(given (desc 13 [0, 4096])).modStack 0 (fun k => { k with tlb := [page] }), 1, desc 13 [0, 4096],
      by decide +kernel⟩
  · exact ⟨given (desc 12 [1, 2, 3, 4, 0x40]), 1, desc 12 [1, 2, 3, 4, 0x40], by decide +kernel⟩

/-- States and operands that meet the hypotheses of each clause of HostCoresRunAndAreWatched. -/
theorem meets_HostCoresRunAndAreWatched :
    (∃ (s : State) (who : Requester) (n : Nat) (core : Nat) (value : Word) (addr : Word) (a1 : Word), (n < 8)
      ∧ (core < 8) ∧ (s.permit who (Reg.HCORE_BOOT n) = Admit.ok) ∧ (getF value HCORE_BOOT_GO = 1) ∧ (s.bound
      n = true) ∧ (s.bit (Reg.HCORE_BOOT n) HCORE_BOOT_RUNNING = false) ∧ (0 < getF value HCORE_BOOT_SIZE) ∧
      (getF value HCORE_BOOT_SIZE ≤ 1024) ∧ (4096 * (getF value HCORE_BOOT_ADDR + getF value HCORE_BOOT_SIZE)
      ≤ s.nearSize n)) ∧
    (∃ (s : State) (who : Requester) (n : Nat) (core : Nat) (value : Word) (addr : Word) (a1 : Word) (addr1 :
      Nat) (pages : Nat), (n < 8) ∧ (core < 8) ∧ (s.stackUp n = true) ∧ ((s.stack n).booting = some (addr1,
      pages)) ∧ (s.tierBusy n false addr1 (4096 * pages) = false) ∧ ((s.loadTier n false addr1 (4096 *
      pages)).poisoned = false) ∧ (s.firstCore n = some core)) ∧
    (∃ (s : State) (who : Requester) (n : Nat) (core : Nat) (value : Word) (addr : Word) (a1 : Word), (n < 8)
      ∧ (core < 8) ∧ (s.stackUp n = true) ∧ (s.bit (Reg.HCORE_BOOT n) HCORE_BOOT_RUNNING = true) ∧ (s.coreSt n
      core = 0) ∧ (s.unitFailed kindCore n core = false)) ∧
    (∃ (s : State) (who : Requester) (n : Nat) (core : Nat) (value : Word) (addr : Word) (a1 : Word), (n < 8)
      ∧ (core < 8) ∧ (s.stackUp n = true) ∧ (s.coreSt n core = 1 ∨ s.coreSt n core = 3)) ∧
    (∃ (s : State) (who : Requester) (n : Nat) (core : Nat) (value : Word) (addr : Word) (a1 : Word) (user :
      Bool), (n < 8) ∧ (core < 8) ∧ (s.stackUp n = true) ∧ (s.coreSt n core = 1 ∨ s.coreSt n core = 3)) ∧
    (∃ (s : State) (who : Requester) (n : Nat) (core : Nat) (value : Word) (addr : Word) (a1 : Word), (n < 8)
      ∧ (core < 8) ∧ (s.stackUp n = true) ∧ (s.coreSt n core = 2)) ∧
    (∃ (s : State) (who : Requester) (n : Nat) (core : Nat) (value : Word) (addr : Word) (a1 : Word), (n < 8)
      ∧ (core < 8) ∧ (s.stackUp n = true) ∧ (s.bit (Reg.HCORE_BOOT n) HCORE_BOOT_RUNNING = true)) ∧
    (∃ (s : State) (who : Requester) (n : Nat) (core : Nat), (n < 8) ∧ (core < 8) ∧ (s.stackUp n = true) ∧
      (s.coreSt n core = 1 ∨ s.coreSt n core = 2) ∧ (s.coreTimer n core 1 = true)) ∧
    (∃ (s : State) (who : Requester) (n : Nat) (core : Nat), (n < 8) ∧ (core < 8) ∧ (s.stackUp n = true) ∧
      (s.coreSt n core = 3) ∧ (s.coreTimer n core 2 = true)) ∧
    (∃ (s : State) (who : Requester) (n : Nat) (core : Nat), (n < 8) ∧ (core < 8) ∧ (s.permit who
      (Reg.HCORE_CORE n core) = Admit.ok)) ∧
    (∃ (s : State) (who : Requester) (n : Nat) (core : Nat), (n < 8) ∧ (core < 8) ∧ (s.permit who
      (Reg.HCORE_CORE n core) = Admit.ok) ∧ (s.coreSt n core ≠ 0) ∧ (s.unitFailed kindCore n core = false)) := by
  and_intros
  · exact ⟨live, .bar0, 0, 0, setF (setF (setF 0 HCORE_BOOT_GO 1) HCORE_BOOT_SIZE 1024) HCORE_BOOT_ADDR 1, 0,
      by decide +kernel⟩
  · exact ⟨live.modStack 0 (fun k => { k with booting := some (0, 1) }), .bar0, 0, 0, 0, 0, 0, 0, 1,
      by decide +kernel⟩
  · exact ⟨cored 0, .bar0, 0, 2, 0x1000, 5, by decide +kernel⟩
  · exact ⟨later (cored 1), .bar0, 0, 2, by decide +kernel⟩
  · exact ⟨cored 3, .bar0, 0, 2, 0, 0, 0, true, by decide +kernel⟩
  · exact ⟨cored 2, .bar0, 0, 2, 0, 0, 0, by decide +kernel⟩
  · exact ⟨cored 0, .bar0, 0, 2, 0x1000, 5, by decide +kernel⟩
  · exact ⟨later (cored 1), .bar0, 0, 2, by decide +kernel⟩
  · exact ⟨later (cored 3), .bar0, 0, 2, by decide +kernel⟩
  · exact ⟨cored 3, .core 0 2, 0, 2, by decide +kernel⟩
  · exact ⟨cored 4, .bar0, 0, 2, by decide +kernel⟩

/-- States and operands that meet the hypotheses of each clause of IntervalAndJobAreWritten. -/
theorem meets_IntervalAndJobAreWritten :
    (∃ (s : State) (who : Requester) (n : Nat) (b : Nat) (value : Word), (n < 8) ∧ (b < 336) ∧ (s.permit who
      (Reg.BCH_WDOG_CFG n) = Admit.ok)) ∧
    (∃ (s : State) (who : Requester) (n : Nat) (b : Nat) (value : Word), (n < 8) ∧ (b < 336) ∧ (s.permit who
      (Reg.BCH_BENCH_CFG n b) = Admit.ok) ∧ (s.reseatBusy n = true ∨ (s.bench n b).quietCtxs = false)) ∧
    (∃ (s : State) (who : Requester) (n : Nat) (b : Nat) (value : Word), (n < 8) ∧ (b < 336) ∧ (s.permit who
      (Reg.BCH_BENCH_CFG n b) = Admit.ok) ∧ (s.reseatBusy n = false) ∧ ((s.bench n b).quietCtxs = true) ∧
      (s.vacant n b = true)) ∧
    (∃ (s : State) (who : Requester) (n : Nat) (b : Nat) (value : Word), (n < 8) ∧ (b < 336) ∧ (s.permit who
      (Reg.BCH_BENCH_CFG n b) = Admit.ok) ∧ (s.reseatBusy n = false) ∧ ((s.bench n b).quietCtxs = true) ∧
      (s.vacant n b = false)) := by
  and_intros
  · exact ⟨live, .bar0, 7, 0, 100, by decide +kernel⟩
  · exact ⟨run, .bar0, 0, 0, 9, by decide +kernel⟩
  · exact ⟨vacated live, .bar0, 0, 0, 0xFFFF, by decide +kernel⟩
  · exact ⟨live, .bar0, 0, 335, 0xFFFF, by decide +kernel⟩

/-- States and operands that meet the hypotheses of each clause of KeeperBindsAndReleases. -/
theorem meets_KeeperBindsAndReleases :
    (∃ (s : State) (v : Word), (s.permit Requester.bar0 Reg.SEC_CMD = Admit.ok) ∧ (s.bit Reg.SEC_CMD
      SEC_CMD_BUSY = false) ∧ (getF v SEC_CMD_GO = 1) ∧ (getF v SEC_CMD_CODE = 3)) ∧
    (∃ (s : State) (v : Word), (s.permit Requester.bar0 Reg.SEC_CMD = Admit.ok) ∧ (s.bit Reg.SEC_CMD
      SEC_CMD_BUSY = false) ∧ (getF v SEC_CMD_GO = 1) ∧ (getF v SEC_CMD_CODE = 1) ∧ (s.bindResult (bindReq
      (s.hostRead (4096 * getF v SEC_CMD_ADDR) 4096)) ≠ 0)) ∧
    (∃ (s : State) (v : Word), (s.permit Requester.bar0 Reg.SEC_CMD = Admit.ok) ∧ (s.bit Reg.SEC_CMD
      SEC_CMD_BUSY = false) ∧ (getF v SEC_CMD_GO = 1) ∧ (getF v SEC_CMD_CODE = 1) ∧ (s.bindResult (bindReq
      (s.hostRead (4096 * getF v SEC_CMD_ADDR) 4096)) = 0)) ∧
    (∃ (s : State) (v : Word) (n : Nat) (tenant : Byte), (s.permit Requester.bar0 Reg.SEC_CMD = Admit.ok) ∧
      (s.bit Reg.SEC_CMD SEC_CMD_BUSY = false) ∧ (getF v SEC_CMD_GO = 1) ∧ (getF v SEC_CMD_CODE = 2) ∧ (n < 8)
      ∧ (s.hostRead (4096 * getF v SEC_CMD_ADDR) 2 = [tenant, 1#8 <<< n]) ∧ (s.bound n = true) ∧ (s.tenantOf n
      = BitVec.toNat tenant) ∧ (s.jobsOn n = []) ∧ ((s.stack n).benches = []) ∧ (∀ (d : Desc), d ∈
      s.host.descs → d.stack ≠ n) ∧ ((s.stack n).groups = []) ∧ ((s.stack n).spansOut = []) ∧ (s.hostedBy n =
      []) ∧ ((s.stack n).tears = []) ∧ ((s.stack n).reqs = []) ∧ ((s.stack n).shoots = [])) ∧
    (∃ (s : State) (n : Nat), (n < 8) ∧ (s.stackState n = 2) ∧ (s.bit Reg.SEC_CMD SEC_CMD_BUSY = true) ∧
      ((s.stack n).releasing = 2) ∧ (s.releaseQuiet n = true) ∧ ((s.stack n).shoots = [])) ∧
    (∃ (s : State) (n : Nat), (n < 8) ∧ (s.stackState n = 2) ∧ (s.bit Reg.SEC_CMD SEC_CMD_BUSY = true) ∧
      ((s.stack n).releasing = 5) ∧ (s.bit (Reg.MEM_STATUS n) MEM_STATUS_ZERO_BUSY = true)) ∧
    (∃ (s : State) (n : Nat), (n < 8) ∧ (s.stackState n = 2) ∧ (s.bit Reg.SEC_CMD SEC_CMD_BUSY = true) ∧
      ((s.stack n).releasing = 5) ∧ (s.bit (Reg.MEM_STATUS n) MEM_STATUS_ZERO_BUSY = false) ∧ (s.fld
      (Reg.SEC_TENANT (s.tenantOf n)) SEC_TENANT_STACKS = 2 ^ n) ∧ (s.keeper.releaseMask = 1#8 <<< n)) := by
  and_intros
  · exact ⟨paged 2, cmd 3, by decide +kernel⟩
  · exact ⟨paged 0, cmd 1, by decide +kernel⟩
  · exact ⟨paged 2, cmd 1, by decide +kernel⟩
  · exact ⟨paged 1, cmd 2, 0, 1, by decide +kernel⟩
  · exact ⟨releasing 2, 0, by decide +kernel⟩
  · exact ⟨(releasing 5).setBit (.MEM_STATUS 0) MEM_STATUS_ZERO_BUSY true, 0, by decide +kernel⟩
  · exact ⟨releasing 5, 0, by decide +kernel⟩

/-- States and operands that meet the hypotheses of each clause of KillStopsThenDrains. -/
theorem meets_KillStopsThenDrains :
    (∃ (s : State) (c : CtxId) (who : Requester), (c.wf = true) ∧ (s.permit who (Reg.BCH_CTX_CTRL c.stack
      c.bench c.ctx) = Admit.ok) ∧ (killable (s.ctx c).st = true) ∧ (s.haltDone c = false) ∧ (∀ (x : Bench), x
      = s.bench c.stack c.bench → x.txQueue = [] ∧ x.rxQueue = [] ∧ x.txOwner = [] ∧ x.rxOwner = [])) ∧
    (∃ (s : State) (c : CtxId) (who : Requester), (c.wf = true) ∧ (s.permit who (Reg.BCH_CTX_CTRL c.stack
      c.bench c.ctx) = Admit.ok) ∧ ((s.ctx c).st = CtxSt.killed)) ∧
    (∃ (s : State) (c : CtxId) (who : Requester), (c.wf = true) ∧ (s.permit who (Reg.BCH_CTX_CTRL c.stack
      c.bench c.ctx) = Admit.ok) ∧ ((s.ctx c).st = CtxSt.idle ∨ (s.ctx c).st = CtxSt.halted)) ∧
    (∃ (s : State) (c : CtxId) (who : Requester), (c.wf = true) ∧ ((s.ctx c).st = CtxSt.killed) ∧ (∀ (r :
      Req), r ∈ (s.stack c.stack).reqs → r.src = Src.ctx c.bench c.ctx → r.st = ReqSt.done)) := by
  and_intros
  · exact ⟨run, c0, .bar0, by simp only [forall_eq]; decide +kernel⟩
  · exact ⟨at0 { busy with st := .killed }, c0, .bar0, by decide +kernel⟩
  · exact ⟨at0 { busy with st := .halted }, c0, .bar0, by decide +kernel⟩
  · exact ⟨at0 { busy with st := .killed }, c0, .bar0, by decide +kernel⟩

/-- States and operands that meet the hypotheses of each clause of LaunchStartsAndCompletes. -/
theorem meets_LaunchStartsAndCompletes :
    (∃ (s : State) (h : Nat) (d : Desc) (x : Seg), (s.desc? h = some d) ∧ (d.opcode = 3) ∧ (d.st =
      DescSt.started) ∧ (s.mayLack = true ∨ s.benchesBad d = false) ∧ (d.segsOf 1 = [x]) ∧ (OnePiece 256 x) ∧
      (x.rights.getLsbD 0 = true) ∧ (x.node ≠ 65535)) ∧
    (∃ (s : State) (h : Nat) (d : Desc), (s.desc? h = some d) ∧ (d.opcode = 3) ∧ (d.st = DescSt.started) ∧
      (d.phase ≠ DescPhase.ending) ∧ (d.status = 0) ∧ (s.mayLack = false) ∧ (s.benchesBad d = true) ∧
      (s.descReqs d = [])) ∧
    (∃ (s : State) (h : Nat) (d : Desc) (n : Nat) (p : Packet) (e : Desc), (s.desc? h = some d) ∧ (d.opcode =
      3) ∧ (d.handle = h) ∧ (ImageCame s n p d e) ∧ (s.programFlaw e = Flaw.absent)) ∧
    (∃ (s : State) (h : Nat) (d : Desc) (n : Nat) (p : Packet) (e : Desc), (s.desc? h = some d) ∧ (d.opcode =
      3) ∧ (d.handle = h) ∧ (ImageCame s n p d e) ∧ (s.programFlaw e = Flaw.badDesc ∨ s.programFlaw e =
      Flaw.none ∧ (e.headerBad = true ∨ s.benchesBad e = true))) ∧
    (∃ (s : State) (h : Nat) (d : Desc) (n : Nat) (p : Packet) (e : Desc) (b : Nat), (s.desc? h = some d) ∧
      (d.opcode = 3) ∧ (d.handle = h) ∧ (ImageCame s n p d e) ∧ (s.programFlaw e = Flaw.none) ∧ (e.headerBad =
      false) ∧ (s.benchesBad e = false) ∧ (s.vacantNamed e = some b)) ∧
    (∃ (s : State) (h : Nat) (d : Desc) (n : Nat) (p : Packet) (e : Desc), (s.desc? h = some d) ∧ (d.opcode =
      3) ∧ (d.handle = h) ∧ (ImageCame s n p d e) ∧ (s.programFlaw e = Flaw.none) ∧ (e.headerBad = false) ∧
      (s.benchesBad e = false) ∧ (s.vacantNamed e = none)) ∧
    (∃ (s : State) (h : Nat) (d : Desc), (s.desc? h = some d) ∧ (d.opcode = 3) ∧ (d.st = DescSt.running) ∧
      (d.phase = DescPhase.held) ∧ (d.status = 0) ∧ (∀ (p : Nat × Ctx), p ∈ s.launched d → p.snd.st =
      CtxSt.idle ∨ p.snd.st = CtxSt.halted)) := by
  and_intros
  · exact ⟨bench9 (given launch), 1, launch, seg 1 64, by delta OnePiece; decide +kernel⟩
  · exact ⟨given launch, 1, launch, by decide +kernel⟩
  · exact ⟨(lastCome fetched).setBit .CAP_UNITS CAP_UNITS_INT_PRESENT false, 1, fetched, 0, pkt 0x11 0 0
          (needsInt.data.drop 64), { fetched with data := needsInt.data }, by exact ⟨by decide +kernel, rfl,
          rfl, ⟨by decide, rfl, by decide +kernel, rfl, rfl, rfl, rfl, rfl, by delta PortFree; decide +kernel,
          by decide +kernel, ⟨lastRead, by decide +kernel, by decide +kernel, by decide +kernel⟩,
          by decide +kernel⟩, by decide +kernel⟩⟩
  · exact ⟨lastCome fetched, 1, fetched, 0, pkt 0x11 0 0 (image.drop 64), { fetched with data := image }, by
          exact ⟨by decide +kernel, rfl, rfl, ⟨by decide, rfl, by decide +kernel, rfl, rfl, rfl, rfl, rfl,
          by delta PortFree; decide +kernel, by decide +kernel, ⟨lastRead, by decide +kernel,
          by decide +kernel, by decide +kernel⟩, by decide +kernel⟩, by decide +kernel⟩⟩
  · exact ⟨vacated (bench9 (lastCome fetched)), 1, fetched, 0, pkt 0x11 0 0 (image.drop 64),
          { fetched with data := image }, 0, by exact ⟨by decide +kernel, rfl, rfl, ⟨by decide, rfl,
          by decide +kernel, rfl, rfl, rfl, rfl, rfl, by delta PortFree; decide +kernel, by decide +kernel,
          ⟨lastRead, by decide +kernel, by decide +kernel, by decide +kernel⟩, by decide +kernel⟩,
          by decide +kernel, by decide +kernel, by decide +kernel, by decide +kernel⟩⟩
  · exact ⟨bench9 (lastCome fetched), 1, fetched, 0, pkt 0x11 0 0 (image.drop 64),
          { fetched with data := image }, by exact ⟨by decide +kernel, rfl, rfl, ⟨by decide, rfl,
          by decide +kernel, rfl, rfl, rfl, rfl, rfl, by delta PortFree; decide +kernel, by decide +kernel,
          ⟨lastRead, by decide +kernel, by decide +kernel, by decide +kernel⟩, by decide +kernel⟩,
          by decide +kernel, by decide +kernel, by decide +kernel, by decide +kernel⟩⟩
  · exact ⟨ended, 1, launched, by decide +kernel⟩

/-- States and operands that meet the hypotheses of each clause of LinksCheckTheBeat. -/
theorem meets_LinksCheckTheBeat :
    (∃ (s : State) (p : Nat), (p < 36) ∧ (s.checks p = true) ∧ (s.beat.loaded = true) ∧ ((s.link p).sentAt = 0
      ∨ (s.link p).sentAt - 1 + 1024 ≤ s.beatsPassed)) ∧
    (∃ (s : State) (p : Nat) (farBeat : BitVec 48) (farPhase : Nat), (p < 36) ∧ (s.checks p = true) ∧
      (s.beat.loaded = true) ∧ (farPhase < 256)) ∧
    (∃ (s : State) (p : Nat), (p < 36) ∧ ((s.link p).part = true) ∧ ((s.link p).heardAt + 2048 ≤
      s.beatsPassed)) := by
  and_intros
  · exact ⟨linked, 8, by decide +kernel⟩
  · exact ⟨linked, 8, 0x1000, 0, by decide +kernel⟩
  · exact ⟨{ linked with beat := { linked.beat with total := 2048, links := [(8, ⟨true, true, 0, 0, 0⟩)] } },
          8, by decide +kernel⟩

/-- States and operands that meet the hypotheses of each clause of PortsRetrainAndHold. -/
theorem meets_PortsRetrainAndHold :
    (∃ (s : State) (p : Nat) (reason : Nat), (p < 36) ∧ (PortIdle p s) ∧ (s.portPresent p = true) ∧ (reason ∈
      [6, 11, 13, 14, 15, 16]) ∧ (s.portState p = 6)) ∧
    (∃ (s : State) (p : Nat) (reason : Nat), (p < 36) ∧ (PortIdle p s) ∧ (s.portPresent p = true) ∧ (reason ∈
      [6, 11, 13, 14, 15, 16]) ∧ (s.attempting p = true)) ∧
    (∃ (s : State) (p : Nat) (who : Requester) (v : Word), (p < 36) ∧ (PortIdle p s) ∧ (s.portPresent p =
      true) ∧ (s.permit who (Reg.PORT_CTRL p) = Admit.ok) ∧ (getF v PORT_CTRL_HOLD = 0) ∧ (getF v
      PORT_CTRL_RETRAIN = 1) ∧ (s.portState p = 6)) ∧
    (∃ (s : State) (p : Nat) (who : Requester) (v : Word), (p < 36) ∧ (PortIdle p s) ∧ (s.portPresent p =
      true) ∧ (s.permit who (Reg.PORT_CTRL p) = Admit.ok) ∧ (getF v PORT_CTRL_HOLD = 0) ∧ (getF v
      PORT_CTRL_RETRAIN = 1) ∧ (s.portState p = 7)) ∧
    (∃ (s : State) (p : Nat) (who : Requester) (v : Word), (p < 36) ∧ (PortIdle p s) ∧ (s.portPresent p =
      true) ∧ (s.permit who (Reg.PORT_CTRL p) = Admit.ok) ∧ (getF v PORT_CTRL_HOLD = 0) ∧ (getF v
      PORT_CTRL_RETRAIN = 1) ∧ (s.attempting p = true)) ∧
    (∃ (s : State) (p : Nat) (who : Requester) (v : Word), (p < 36) ∧ (PortIdle p s) ∧ (s.portPresent p =
      true) ∧ (s.permit who (Reg.PORT_CTRL p) = Admit.ok) ∧ (getF v PORT_CTRL_HOLD = 1) ∧ (s.portState p = 6)) ∧
    (∃ (s : State) (p : Nat) (who : Requester) (v : Word), (p < 36) ∧ (PortIdle p s) ∧ (s.portPresent p =
      true) ∧ (s.permit who (Reg.PORT_CTRL p) = Admit.ok) ∧ (getF v PORT_CTRL_HOLD = 1) ∧ (s.attempting p =
      true ∨ s.portState p = 7)) ∧
    (∃ (s : State) (p : Nat) (who : Requester) (v : Word) (i : Instr), (p < 36) ∧ (PortIdle p s) ∧
      (s.portPresent p = true) ∧ (s.permit who (Reg.PORT_CTRL p) = Admit.ok) ∧ (i ∈ [Instr.retrain who p v,
      Instr.hold who p v])) ∧
    (∃ (s : State) (p : Nat) (loss : Bool) (alarms : BitVec 32), (p < 36) ∧ (PortIdle p s) ∧ (s.portPresent p
      = true) ∧ (s.portState p = 6)) ∧
    (∃ (s : State) (p : Nat) (loss : Bool) (alarms : BitVec 32), (p < 36) ∧ (PortIdle p s) ∧ (s.portPresent p
      = true) ∧ (s.portState p ≠ 0) ∧ (alarms ≠ 0) ∧ (s.host.notices.length < 256)) ∧
    (∃ (s : State) (p : Nat), (p < 36) ∧ (PortIdle p s) ∧ (s.portPresent p = true) ∧ (s.portState p = 6) ∧ (0
      < s.fld (Reg.PORT_CTRL p) PORT_CTRL_UNCORR_LIMIT) ∧ (s.fld (Reg.PORT_CTRL p) PORT_CTRL_UNCORR_LIMIT <
      (s.port p).uncorr)) ∧
    (∃ (s : State) (p : Nat), (p < 36) ∧ (PortIdle p s) ∧ (s.portPresent p = true) ∧ (s.portState p = 6) ∧
      (s.fld (Reg.PORT_CTRL p) PORT_CTRL_UNCORR_LIMIT = 0 ∨ (s.port p).uncorr ≤ s.fld (Reg.PORT_CTRL p)
      PORT_CTRL_UNCORR_LIMIT)) := by
  and_intros
  · exact ⟨port8 6 id, 8, 13, by delta PortIdle; decide +kernel⟩
  · exact ⟨port8 3 id, 8, 11, by delta PortIdle; decide +kernel⟩
  · exact ⟨port8 6 id, 8, .bar0, setF 0 PORT_CTRL_RETRAIN 1, by delta PortIdle; decide +kernel⟩
  · exact ⟨port8 7 id, 8, .bar0, setF 0 PORT_CTRL_RETRAIN 1, by delta PortIdle; decide +kernel⟩
  · exact ⟨port8 4 id, 8, .bar0, setF 0 PORT_CTRL_RETRAIN 1, by delta PortIdle; decide +kernel⟩
  · exact ⟨port8 6 id, 8, .fm, setF 0 PORT_CTRL_HOLD 1, by delta PortIdle; decide +kernel⟩
  · exact ⟨port8 7 id, 8, .fm, setF 0 PORT_CTRL_HOLD 1, by delta PortIdle; decide +kernel⟩
  · exact ⟨port8 6 id, 8, .bar0, setF (setF (setF 0 PORT_CTRL_HOLD 1) PORT_CTRL_JFP_MAX 3) PORT_CTRL_UNCORR_LIMIT 77,
    .hold .bar0 8 (setF (setF (setF 0 PORT_CTRL_HOLD 1) PORT_CTRL_JFP_MAX 3) PORT_CTRL_UNCORR_LIMIT 77),



      by delta PortIdle; decide +kernel⟩
  · exact ⟨port8 6 id, 8, true, 5, by delta PortIdle; decide +kernel⟩
  · exact ⟨port8 6 id, 8, true, 5, by delta PortIdle; decide +kernel⟩
  · exact ⟨(port8 6 (fun x => { x with uncorr := 9 })).setFld (.PORT_CTRL 8) PORT_CTRL_UNCORR_LIMIT 8, 8,
    by delta PortIdle; decide +kernel⟩
  · exact ⟨(port8 6 (fun x => { x with uncorr := 8 })).setFld (.PORT_CTRL 8) PORT_CTRL_UNCORR_LIMIT 8, 8,
    by delta PortIdle; decide +kernel⟩

/-- States and operands that meet the hypotheses of each clause of PortsTrain. -/
theorem meets_PortsTrain :
    (∃ (s : State) (p : Nat), (p < 36) ∧ (s.inStep 7 = true) ∧ (s.startCause = 0) ∧ (s.portState p = 0) ∧
      (s.portFld p PORT_STATUS_ATTEMPTS = 0) ∧ (s.portFld p PORT_STATUS_REASON = 0) ∧ (s.offReason p = 0)) ∧
    (∃ (s : State) (p : Nat), (p < 36) ∧ (s.inStep 7 = true) ∧ (s.startCause = 0) ∧ (s.portState p = 0) ∧
      (s.portFld p PORT_STATUS_ATTEMPTS = 0) ∧ (s.portFld p PORT_STATUS_REASON = 0) ∧ (s.offReason p ≠ 0)) ∧
    (∃ (s : State) (p : Nat), (p < 36) ∧ (s.portState p = 7) ∧ ((s.port p).since + 1000 * 2 ^ min ((s.port
      p).backoff - 1) 6 * 75200000 ≤ s.now)) ∧
    (∃ (s : State) (p : Nat) (c : CableAnswer) (k : Nat), (p < 36) ∧ (s.portState p = 1) ∧ ((c, k) ∈
      [(CableAnswer.none, 0), (CableAnswer.passive, 1), (CableAnswer.active, 2)])) ∧
    (∃ (s : State) (p : Nat) (c : CableAnswer), (p < 36) ∧ (s.portState p = 1) ∧ (c ∈
      [CableAnswer.noApplication, CableAnswer.moduleFault, CableAnswer.tooSlow])) ∧
    (∃ (s : State) (p : Nat) (pairs : List PairDc), (p < 36) ∧ (s.portState p = 2) ∧ ((s.port p).crossedAt =
      0) ∧ (noSignal pairs = false)) ∧
    (∃ (s : State) (p : Nat) (pairs : List PairDc), (p < 36) ∧ (s.portState p = 2) ∧ ((s.port p).crossedAt =
      0) ∧ (noSignal pairs = true)) ∧
    (∃ (s : State) (p : Nat) (pairs : List PairDc), (p < 36) ∧ (s.portState p = 2) ∧ ((s.port p).crossedAt =
      0)) ∧
    (∃ (s : State) (p : Nat) (pairs : List PairDc) (waited : Nat), (p < 36) ∧ (s.portState p = 2) ∧ ((s.port
      p).crossedAt ≠ 0) ∧ (waited ≤ 7) ∧ (noSignal pairs = false)) ∧
    (∃ (s : State) (p : Nat) (pairs : List PairDc) (waited : Nat), (p < 36) ∧ (s.portState p = 2) ∧ ((s.port
      p).crossedAt ≠ 0) ∧ (waited ≤ 7) ∧ ((s.port p).since + 20 * 75200000 ≤ s.now)) ∧
    (∃ (s : State) (p : Nat) (pairs : List PairDc) (waited : Nat), (p < 36) ∧ (s.portState p = 2) ∧ ((s.port
      p).crossedAt ≠ 0) ∧ (waited ≤ 7) ∧ (s.now < (s.port p).since + 20 * 75200000)) ∧
    (∃ (s : State) (p : Nat) (lanes : List LaneResult), (p < 36) ∧ (s.portState p = 3) ∧ ((s.port
      p).usableLanes lanes = [])) ∧
    (∃ (s : State) (p : Nat) (lanes : List LaneResult), (p < 36) ∧ (s.portState p = 3) ∧ ((s.port
      p).usableLanes lanes ≠ []) ∧ ((if 8 ≤ ((s.port p).usableLanes lanes).length then 8 else if 4 ≤ ((s.port
      p).usableLanes lanes).length then 4 else ((s.port p).usableLanes lanes).length - ((s.port p).usableLanes
      lanes).length / 3) < 2 ^ (s.port p).minWidth)) ∧
    (∃ (s : State) (p : Nat) (lanes : List LaneResult), (p < 36) ∧ (s.portState p = 3) ∧ ((s.port
      p).usableLanes lanes ≠ []) ∧ (2 ^ (s.port p).minWidth ≤ if 8 ≤ ((s.port p).usableLanes lanes).length
      then 8 else if 4 ≤ ((s.port p).usableLanes lanes).length then 4 else ((s.port p).usableLanes
      lanes).length - ((s.port p).usableLanes lanes).length / 3)) ∧
    (∃ (s : State) (p : Nat) (lo : Nat) (hi : Nat) (far : BitVec 16) (farPort : Nat) (v : Variant) (auth :
      Bool) (farKey : List Byte), (p < 36) ∧ (s.portState p = 4) ∧ (farPort < 64) ∧ (min (s.port p).maxJfp hi
      < max 2 lo)) ∧
    (∃ (s : State) (p : Nat) (lo : Nat) (hi : Nat) (far : BitVec 16) (farPort : Nat) (v : Variant) (auth :
      Bool) (farKey : List Byte), (p < 36) ∧ (s.portState p = 4) ∧ (farPort < 64) ∧ (max 2 lo ≤ min (s.port
      p).maxJfp hi)) ∧
    (∃ (s : State) (p : Nat) (latency : Nat), (p < 36) ∧ (s.portState p = 5) ∧ (s.wired p (BitVec.ofNat 16
      (s.portFld p PORT_STATUS_FAR_NODE)) = false)) ∧
    (∃ (s : State) (p : Nat) (latency : Nat), (p < 36) ∧ (s.portState p = 5) ∧ (s.wired p (BitVec.ofNat 16
      (s.portFld p PORT_STATUS_FAR_NODE)) = true) ∧ (s.unusedB p (BitVec.ofNat 16 (s.portFld p
      PORT_STATUS_FAR_NODE)) = true)) ∧
    (∃ (s : State) (p : Nat) (latency : Nat) (b : Nat), (p < 36) ∧ (s.portState p = 5) ∧ (s.wired p
      (BitVec.ofNat 16 (s.portFld p PORT_STATUS_FAR_NODE)) = true) ∧ (s.unusedB p (BitVec.ofNat 16 (s.portFld
      p PORT_STATUS_FAR_NODE)) = false) ∧ (b < 36) ∧ (b ≠ p) ∧ (s.bUnused b = true) ∧ ((portUse s.variant
      b).fst = (portUse s.variant p).fst) ∧ (s.portState b ≠ 6)) ∧
    (∃ (s : State) (p : Nat) (latency : Nat), (p < 36) ∧ (s.portState p = 5) ∧ (s.wired p (BitVec.ofNat 16
      (s.portFld p PORT_STATUS_FAR_NODE)) = true) ∧ (s.unusedB p (BitVec.ofNat 16 (s.portFld p
      PORT_STATUS_FAR_NODE)) = false) ∧ (∀ (b : Nat), b < 36 → s.bUnused b = true → (portUse s.variant b).fst
      ≠ (portUse s.variant p).fst)) ∧
    (∃ (s : State) (p : Nat), (p < 36) ∧ (s.portState p = 7) ∧ (s.waitOver p = true)) ∧
    (∃ (s : State) (p : Nat) (limit : Nat), (p < 36) ∧ ((s.portState p, limit) ∈ [(1, 2000), (2, 20), (3,
      500), (4, 200), (5, 80)]) ∧ ((s.port p).since + limit * 75200000 ≤ s.now)) := by
  and_intros
  · exact ⟨inStep 7 0 (port8 0 id), 8, by decide +kernel⟩
  · exact ⟨(inStep 7 0 (port8 0 id)).setBit (.PORT_CTRL 8) PORT_CTRL_HOLD true, 8, by decide +kernel⟩
  · exact ⟨{ port8 7 (fun x => { x with backoff := 1 }) with now := 1000 * 75200000 }, 8, by decide +kernel⟩
  · exact ⟨port8 1 id, 8, .active, 2, by decide +kernel⟩
  · exact ⟨port8 1 id, 8, .tooSlow, by decide +kernel⟩
  · exact ⟨port8 2 id, 8, [⟨false, 0, true, false⟩, ⟨true, 3, false, true⟩], by decide +kernel⟩
  · exact ⟨port8 2 id, 8, (List.range 8).map (fun i => ⟨false, BitVec.ofNat 3 i, true, false⟩),
          by decide +kernel⟩
  · exact ⟨port8 2 id, 8, [], by decide +kernel⟩
  · exact ⟨port8 2 (fun x => { x with crossedAt := 5 }), 8, [⟨true, 3, false, true⟩], 7, by decide +kernel⟩
  · exact ⟨{ port8 2 (fun x => { x with crossedAt := 5 }) with now := 20 * 75200000 }, 8, [], 7,
          by decide +kernel⟩
  · exact ⟨port8 2 (fun x => { x with crossedAt := 5 }), 8, [], 7, by decide +kernel⟩
  · exact ⟨port8 3 id, 8, [], by decide +kernel⟩
  · exact ⟨port8 3 (fun x => { x with minWidth := 3 }), 8, good8.take 5, by decide +kernel⟩
  · exact ⟨(port8 3 id).setFld (.PORT_CTRL 8) PORT_CTRL_MIN_WIDTH 2, 8, good8.take 5, by decide +kernel⟩
  · exact ⟨port8 4 (fun x => { x with maxJfp := 4 }), 8, 5, 5, 0x4B60, 8, .x, true, [], by decide +kernel⟩
  · exact ⟨port8 4 (fun x => { x with maxJfp := 4 }), 8, 2, 4, 0x4B60, 8, .x, true, [], by decide +kernel⟩
  · exact ⟨port8 5 id, 8, 77, by decide +kernel⟩
  · exact ⟨(port16 5 (fun x => { x with farVariant := .l })).setFld (.PORT_STATUS 16) PORT_STATUS_FAR_NODE 0x4B40, 16,
    77,


      by decide +kernel⟩
  · exact ⟨(port8 5 (fun x => { x with farVariant := .l })).setFld (.PORT_STATUS 8) PORT_STATUS_FAR_NODE
          0x4A50, 8, 77, 27, by decide +kernel⟩
  · exact ⟨(port8 5 id).setFld (.PORT_STATUS 8) PORT_STATUS_FAR_NODE 0x4A50, 8, 77, by decide +kernel⟩
  · exact ⟨{ port8 7 id with now := 10000000000000 }, 8, by decide +kernel⟩
  · exact ⟨{ port8 1 id with now := 2000 * 75200000 }, 8, 2000, by decide +kernel⟩

/-- States and operands that meet the hypotheses of each clause of PowerFollowsItsPins. -/
theorem meets_PowerFollowsItsPins :
    (∃ (s : State) (volts : Nat) (us : Nat), (s.boot.powered = true) ∧ (s.sag = false) ∧ (volts < 3900) ∧ (20
      ≤ us)) ∧
    (∃ (s : State) (volts : Nat) (us : Nat), (s.boot.powered = true) ∧ (s.sag = true) ∧ (4000 < volts) ∧ (1000
      ≤ us)) ∧
    (∃ (s : State) (volts : Nat) (us : Nat), (s.boot.powered = true) ∧ (s.boot.shedHigh = true) ∧ (5 ≤ us)) ∧
    (∃ (s : State) (volts : Nat) (us : Nat), (s.boot.powered = true) ∧ (s.boot.shedHigh = false)) ∧
    (∃ (s : State) (volts : Nat) (us : Nat), (s.boot.powered = true) ∧ (2000 < volts) ∧ (volts < 3600) ∧ (5 ≤
      us)) ∧
    (∃ (s : State) (volts : Nat) (us : Nat), (s.boot.powered = true) ∧ (10 ≤ us)) ∧
    (∃ (s : State) (volts : Nat) (us : Nat) (celsius : Nat), (s.boot.powered = true) ∧ (110 ≤ celsius)) ∧
    (∃ (s : State) (us : Nat), (us < 2)) ∧
    (∃ (s : State), (s.boot.epoHigh = false)) ∧
    (∃ (s : State) (p : Nat) (demand : Nat) (can : List BallastBench) (input : Nat) (temps : List Nat) (steps
      : List Nat), (s.boot.powered = true) ∧ (s.beatNow.toNat % 64 = 0) ∧ (p ≤ 1020 * s.power.peak) ∧ (∀ (f :
      Nat × Nat), f ∈ s.power.falls → s.now + 64 * 75200 ≤ f.fst + 200 * 75200 ∨ p ≤ 1000 * f.snd) ∧ (p <
      65536000) ∧ (input < 65536)) ∧
    (∃ (s : State) (p : Nat) (demand : Nat) (can : List BallastBench) (input : Nat) (temps : List Nat) (steps
      : List Nat), (1020 * s.power.peak < p ∨ ∃ f, f ∈ s.power.falls ∧ f.fst + 136 * 75200 < s.now ∧ 1000 *
      f.snd < p)) := by
  and_intros
  · exact ⟨live, 3899, 20, by decide +kernel⟩
  · exact ⟨live.setBit .PWR_STATUS PWR_STATUS_SAG true, 4001, 1000, by decide +kernel⟩
  · exact ⟨live, 0, 5, by decide +kernel⟩
  · exact ⟨{ live with boot := { live.boot with shedHigh := false } }, 0, 0, by decide +kernel⟩
  · exact ⟨live, 2001, 5, by decide +kernel⟩
  · exact ⟨live, 0, 10, by decide +kernel⟩
  · exact ⟨live, 0, 0, 110, by decide +kernel⟩
  · exact ⟨live, 1, by decide +kernel⟩
  · exact ⟨{ live with boot := { live.boot with epoHigh := false } }, by decide +kernel⟩
  · exact ⟨{ live with power := { live.power with peak := 500 } }, 500000, 300, [⟨0, 0, 5⟩], 310, [60, 100],
          List.replicate 48 0, by decide +kernel⟩
  · exact ⟨live, 1000000000000, 300, [], 310, [60, 100], List.replicate 48 0, by decide +kernel⟩

/-- States and operands that meet the hypotheses of each clause of RecoveryMessagesAct. -/
theorem meets_RecoveryMessagesAct :
    (∃ (s : State), (s.fmReachable = true)) ∧
    (∃ (s : State) (number : BitVec 32), (s.fmNode ≠ 65535)) ∧
    (∃ (s : State) (n : Nat) (job : BitVec 16), (s.fmNode ≠ 65535) ∧ (n < 8) ∧ (job ≠ 0) ∧ (s.stackUp n =
      false ∨ s.jobBenches n job.toNat = [])) ∧
    (∃ (s : State) (n : Nat) (job : BitVec 16) (c : CtxId), (s.fmNode ≠ 65535) ∧ (n < 8) ∧ (job ≠ 0) ∧
      (s.stackUp n = true) ∧ (s.jobBenches n job.toNat ≠ []) ∧ (s.jobCtxs n job.toNat = [c]) ∧ (killable
      (s.ctx c).st = true) ∧ ((s.stack n).tears = []) ∧ (s.host.descs = []) ∧ ((s.stack n).spansOut = []) ∧ (∀
      (x : Bench), x = s.bench n c.bench → x.txQueue = [] ∧ x.rxQueue = [] ∧ x.txOwner = [] ∧ x.rxOwner = [])) ∧
    (∃ (s : State) (node : BitVec 16) (stackMask : BitVec 8), (s.fmNode ≠ 65535)) ∧
    (∃ (s : State) (tag : BitVec 32) (off : BitVec 32) (v : Word), (s.fmNode ≠ 65535) ∧ ((∀ (p : Nat),
      portOfOffset off.toNat = some p → s.portPresent p = false) ∧ (portOfOffset off.toNat).isSome = true ∨
      off.toNat % 8 ≠ 0 ∨ inSwcOrPort off.toNat = false)) ∧
    (∃ (s : State) (tag : BitVec 32) (off : BitVec 32) (v : Word) (r : Reg) (p : Nat) (k : Nat), (s.fmNode ≠
      65535) ∧ (r ∈ [Reg.SWC_CELL_CFG, Reg.SWC_TENANT_Q, Reg.SWC_RACK_ROUTE_GW k, Reg.PORT_SHARE p,
      Reg.PORT_FWD p]) ∧ (k < 64) ∧ (s.portPresent p = true) ∧ (off.toNat = r.offset)) ∧
    (∃ (s : State) (who : Requester) (v : Word), (s.permit who Reg.SWC_QUIET_CLEAR = Admit.ok)) ∧
    (∃ (s : State) (n : Nat) (x : Tear), (n < 8) ∧ ((s.stack n).tears = [x]) ∧ (s.tornQuiet n x.job.toNat =
      true) ∧ (s.host.notices.length < 256)) ∧
    (∃ (s : State) (m : Nat), (m < 4) ∧ (s.bit Reg.HOSTIF_LINK { hi := 48 + m, lo := 48 + m } = true)) := by
  and_intros
  · exact ⟨live.setFld .SWC_ROUTE_CFG SWC_ROUTE_CFG_FM_NODE 0x4B57, by decide +kernel⟩
  · exact ⟨live, 7, by decide +kernel⟩
  · exact ⟨live, 0, 9, by decide +kernel⟩
  · exact ⟨job9, 0, 9, c0, by simp only [forall_eq]; decide +kernel⟩
  · exact ⟨live.modStack 0 (fun k => { k with dead := [0x4B60, 5], fenced := [0x4B60] }), 0x4B60, 1,
      by decide +kernel⟩
  · exact ⟨live, 77, 3, 5, by decide +kernel⟩
  · exact ⟨live, 77, BitVec.ofNat 32 (Reg.PORT_SHARE 8).offset, 0xFFFFFFFFFFFFFFFF, .PORT_SHARE 8, 8, 0,
    by decide +kernel⟩
  · exact ⟨live.setFld (.SWC_QUIET 3 2) SWC_QUIET_COUNT 55, .fm, 8, by decide +kernel⟩
  · exact ⟨(job9.setCtx c0 Ctx.reset).modStack 0 (fun k => { k with tears := [tear], owner := [(0, 9)] }), 0, tear,
    by decide +kernel⟩
  · exact ⟨live.setBit .HOSTIF_LINK ⟨50, 50⟩ true, 2, by decide +kernel⟩

/-- States and operands that meet the hypotheses of each clause of RefusedAndRepeatedRequestsTouchNothing. -/
theorem meets_RefusedAndRepeatedRequestsTouchNothing :
    (∃ (s : State) (n : Nat) (p : Packet) (c : Instr), (p.op = 1 ∧ c = Instr.load n p ∨ p.op = 2 ∧ c =
      Instr.store n p ∨ p.op = 3 ∧ c = Instr.routedKeystone n p ∨ p.op = 4 ∧ c = Instr.atomic n p ∨ p.op = 5 ∧
      c = Instr.accum n p) ∧ (StandsAlone s n p) ∧ ((s.stack n).applied? p = none) ∧ (s.targetOk n p = false ∨
      (jzb2 p.src = true ∧ ∀ (w : Nat × Nat), w ∈ s.windowsOf n → ¬(w.fst ≤ p.offset.toNat ∧ p.offset.toNat +
      pktLen p ≤ w.fst + w.snd)) ∨ NamesNothing s n p ∧ s.inWindow n p.offset.toNat (pktLen p) = false)) ∧
    (∃ (s : State) (n : Nat) (p : Packet) (c : Instr) (a : Applied), (p.op = 1 ∧ c = Instr.load n p ∨ p.op = 2
      ∧ c = Instr.store n p ∨ p.op = 3 ∧ c = Instr.routedKeystone n p ∨ p.op = 4 ∧ c = Instr.atomic n p ∨ p.op
      = 5 ∧ c = Instr.accum n p) ∧ (StandsAlone s n p) ∧ (p.op ≠ 1) ∧ ((s.stack n).applied? p = some a) ∧
      ((s.stack n).repairing = []) ∧ (s.windowsOf n = [])) ∧
    (∃ (s : State) (n : Nat) (p : Packet) (c : Instr), (p.op = 1 ∧ c = Instr.load n p ∨ p.op = 2 ∧ c =
      Instr.store n p ∨ p.op = 3 ∧ c = Instr.routedKeystone n p ∨ p.op = 4 ∧ c = Instr.atomic n p ∨ p.op = 5 ∧
      c = Instr.accum n p) ∧ (n < 8) ∧ (s.stackPresent n = true) ∧ (s.serves n = false) ∧ (s.sw.merges = []) ∧
      (s.hasCome n p = true) ∧ (p ∈ s.sw.egressQ (64 + n) (pktQueue p))) ∧
    (∃ (s : State) (n : Nat) (p : Packet) (c : Instr) (line : Nat) (h : Packet), (p.op = 1 ∧ c = Instr.load n
      p ∨ p.op = 2 ∧ c = Instr.store n p ∨ p.op = 3 ∧ c = Instr.routedKeystone n p ∨ p.op = 4 ∧ c =
      Instr.atomic n p ∨ p.op = 5 ∧ c = Instr.accum n p) ∧ (n < 8) ∧ (s.serves n = true) ∧ (s.sw.merges = [])
      ∧ ((pktLines p).head? = some line) ∧ ((s.stack n).turns p = 0) ∧ (s.lineHolder n line = some h)) := by
  and_intros
  · exact ⟨live, 0, pkt 4 0x41 0x108 (leBytes 16 5), .atomic 0 (pkt 4 0x41 0x108 (leBytes 16 5)), by exact
          ⟨.inr (.inr (.inr (.inl ⟨rfl, rfl⟩))), by delta StandsAlone PortFree; decide +kernel,
          by decide +kernel, .inl (by decide +kernel)⟩⟩
  · exact ⟨open0.modStack 0 (fun k => { k with applied := [⟨0x4B51, 9, [1], false⟩] }), 0, pkt 2 0 0x108 [1, 2],
    .store 0 (pkt 2 0 0x108 [1, 2]), ⟨0x4B51, 9, [1], false⟩, by delta StandsAlone PortFree; decide +kernel⟩
  · exact ⟨sw (fun w => { w with egress := [(16 * 65, [{ pkt 2 0 0 [] with dst := 0x4B51 }])] }) live, 1,
          { pkt 2 0 0 [] with dst := 0x4B51 }, .store 1 { pkt 2 0 0 [] with dst := 0x4B51 }, by exact ⟨.inr
          (.inl ⟨rfl, rfl⟩), by decide +kernel, by decide +kernel, by decide +kernel, by decide +kernel,
          by decide +kernel, by decide +kernel⟩⟩
  · exact ⟨(sw (fun w =>
          { w with egress := [(16 * 64, [{ pkt 2 0 0x100 [1] with src := 0x4B52 }, pkt 2 0 0x100 [2]])] })
          open0).modStack 0 (fun k =>
          { k with lineHolds := [⟨{ pkt 2 0 0x100 [1] with src := 0x4B52 }, 1⟩] }), 0, pkt 2 0 0x100 [2],
          .store 0 (pkt 2 0 0x100 [2]), 2, { pkt 2 0 0x100 [1] with src := 0x4B52 }, by exact ⟨.inr (.inl
          ⟨rfl, rfl⟩), by decide +kernel, by decide +kernel, by decide +kernel, by decide +kernel,
          by decide +kernel, by decide +kernel⟩⟩

/-- States and operands that meet the hypotheses of each clause of RegisterAccessesAct. -/
theorem meets_RegisterAccessesAct :
    (∃ (s : State) (who : Requester) (r : Reg) (v : Word), (PlainReg r) ∧ (s.permit who r = Admit.ok) ∧
      (s.reaches who r.offset = true)) ∧
    (∃ (s : State) (who : Requester) (r : Reg) (v : Word) (lo : BitVec 32), (PlainReg r) ∧ (s.permit who r =
      Admit.ok) ∧ (s.reaches who (r.offset + 4) = true) ∧ (s.latch? who r.offset = some lo)) ∧
    (∃ (s : State) (who : Requester) (r : Reg) (v : Word), (PlainReg r) ∧ (s.permit who r = Admit.ok) ∧
      (s.reaches who (r.offset + 4) = true) ∧ (s.latch? who r.offset = none)) ∧
    (∃ (s : State) (who : Requester) (a : BarAccess), (s.reaches who a.offset = true) ∧ (a.write = true ∨ who
      = Requester.bar0) ∧ (accessOk a.offset a.bytes = false ∨ regAt (a.offset - a.offset % 8) = none ∧ inMsix
      a.offset = false)) ∧
    (∃ (s : State) (who : Requester) (r : Reg) (v : Word), (PlainReg r) ∧ (s.boot.bar0 = true) ∧ (s.ready =
      false)) ∧
    (∃ (s : State) (who : Requester) (n : Nat) (v : Word), (n < 8) ∧ (s.permit who (Reg.ABT_METER n) =
      Admit.ok) ∧ (s.reaches who (Reg.ABT_METER n).offset = true)) ∧
    (∃ (s : State) (who : Requester) (n : Nat) (v : Word), (n < 8) ∧ ((s.stack n).rowReads = []) ∧ (s.permit
      who (Reg.MEM_CFG n) = Admit.ok) ∧ (s.reaches who (Reg.MEM_CFG n).offset = true)) ∧
    (∃ (s : State) (who : Requester) (r : Reg), (PlainReg r) ∧ (s.boot.bar0 = true) ∧ (s.readable r.offset =
      true)) ∧
    (∃ (s : State) (who : Requester) (r : Reg) (v : Word), (PlainReg r) ∧ (s.boot.bar0 = true) ∧ (s.ready =
      true) ∧ (s.unitAnswers r.offset = false)) ∧
    (∃ (s : State) (who : Requester) (n : Nat) (c : Nat) (v : Word) (w : Word) (r : Reg), (s.boot.bar0 = true)
      ∧ (PlainReg r) ∧ (s.permit (Requester.core n c) r = Admit.ok) ∧ (s.permit Requester.bar0 r = Admit.ok)) ∧
    (∃ (s : State) (who : Requester) (n : Nat) (c : Nat) (v : Word) (w : Word) (x : CtxId), (s.boot.bar0 =
      true) ∧ (x.wf = true) ∧ (s.latches = []) ∧ (s.permit (Requester.core n c) (Reg.BCH_CTX_CTRL x.stack
      x.bench x.ctx) = Admit.ok) ∧ (s.permit Requester.bar0 (Reg.BCH_CTX_CTRL x.stack x.bench x.ctx) =
      Admit.ok)) ∧
    (∃ (s : State) (who : Requester) (i : Nat) (j : Nat) (v : Word), (i < 64) ∧ (j < 4) ∧ (s.boot.bar0 = true)
      ∧ (s.ready = true)) := by
  and_intros
  · exact ⟨live, .bar0, .PWR_EVENTS, 0xFFFFFFFFFFFFFFFF, by delta PlainReg; decide +kernel⟩
  · exact ⟨{ live with latches := (match execRegisterWrite .bar0 (.one ⟨true, Reg.SWC_ROUTE_CFG.offset, 4, 5⟩) live with | .next t => t.latches | _ => []) },
    .bar0, .SWC_ROUTE_CFG, 0x1234567887654321, 5,


      by delta PlainReg; decide +kernel⟩
  · exact ⟨live, .bar0, .SWC_ROUTE_CFG, 0x1234567887654321, by delta PlainReg; decide +kernel⟩
  · exact ⟨live, .bar0, ⟨true, 3, 8, 5⟩, by decide +kernel⟩
  · exact ⟨live.setReg .CAP_START 0x500, .bar0, .PWR_EVENTS, 5, by delta PlainReg; decide +kernel⟩
  · exact ⟨live, .bar0, 0, 5, by decide +kernel⟩
  · exact ⟨live, .bar0, 0, 5, by decide +kernel⟩
  · exact ⟨live, .bar0, .BEAT_STATUS, by delta PlainReg; decide +kernel⟩
  · exact ⟨live.setFld .CAP_UNITS CAP_UNITS_IODIE_PRESENT 3, .bar0, .PORT_SHARE 30, 5, by exact ⟨.inr (.inr
          (.inl ⟨30, by decide, by decide⟩)), by decide +kernel, by decide +kernel, by decide +kernel⟩⟩
  · exact ⟨cored 1, .bar0, 0, 2, 5, 6, .MEM_STATUS 0, by exact ⟨by decide +kernel, .inr (.inr (.inr ⟨0, by
          decide, by decide⟩)), by decide +kernel, by decide +kernel⟩⟩
  · exact ⟨cored 1, .bar0, 0, 2, 5, 6, c0, by decide +kernel⟩
  · exact ⟨live, .bar0, 63, 3, 5, by decide +kernel⟩

/-- States and operands that meet the hypotheses of each clause of ReplyWritesItsRegister. -/
theorem meets_ReplyWritesItsRegister :
    (∃ (s : State) (c : CtxId) (r : Req), (c.wf = true) ∧ (List.find? (fun q => q.id == r.id) (s.stack
      c.stack).reqs = some r) ∧ (r.src = Src.ctx c.bench c.ctx) ∧ (r.st = ReqSt.done) ∧ (∀ (q : Req), q ∈
      (s.stack c.stack).reqs → q.src = r.src → q.acc = r.acc → q = r) ∧ (r.poisoned = false) ∧ (0 < r.dest) ∧
      (r.dest < 32) ∧ (r.destOff = 0)) ∧
    (∃ (s : State) (c : CtxId) (r : Req), (c.wf = true) ∧ (List.find? (fun q => q.id == r.id) (s.stack
      c.stack).reqs = some r) ∧ (r.src = Src.ctx c.bench c.ctx) ∧ (r.st = ReqSt.done) ∧ (∀ (q : Req), q ∈
      (s.stack c.stack).reqs → q.src = r.src → q.acc = r.acc → q = r) ∧ (r.poisoned = false) ∧ (32 ≤ r.dest) ∧
      (r.destOff = 0) ∧ (r.reply.length ≤ 256)) ∧
    (∃ (s : State) (c : CtxId) (r : Req), (c.wf = true) ∧ (List.find? (fun q => q.id == r.id) (s.stack
      c.stack).reqs = some r) ∧ (r.src = Src.ctx c.bench c.ctx) ∧ (r.st = ReqSt.done) ∧ (∀ (q : Req), q ∈
      (s.stack c.stack).reqs → q.src = r.src → q.acc = r.acc → q = r) ∧ (r.poisoned = true) ∧ (stoppable
      (s.ctx c).st = true)) ∧
    (∃ (s : State) (c : CtxId) (r : Req), (c.wf = true) ∧ (List.find? (fun q => q.id == r.id) (s.stack
      c.stack).reqs = some r) ∧ (r.src = Src.ctx c.bench c.ctx) ∧ (r.st = ReqSt.done) ∧ (∀ (q : Req), q ∈
      (s.stack c.stack).reqs → q.src = r.src → q.acc = r.acc → q = r) ∧ (r.poisoned = true) ∧ ((s.ctx c).st =
      CtxSt.hung) ∧ ((s.ctx c).stopDue = 0)) := by
  and_intros
  · exact ⟨run.modStack 0 (fun k => { k with reqs := [req] }), c0, req, by decide +kernel⟩
  · exact ⟨run.modStack 0 (fun k => { k with reqs := [{ req with dest := 40 }] }), c0,
          { req with dest := 40 }, by decide +kernel⟩
  · exact ⟨run.modStack 0 (fun k => { k with reqs := [{ req with poisoned := true }] }), c0,
    { req with poisoned := true }, by decide +kernel⟩
  · exact ⟨(at0 { busy with st := .hung }).modStack 0 (fun k =>
          { k with reqs := [{ req with poisoned := true }] }), c0, { req with poisoned := true },
          by decide +kernel⟩

/-- States and operands that meet the hypotheses of each clause of RequestsLeaveTheirSource. -/
theorem meets_RequestsLeaveTheirSource :
    (∃ (s : State) (n : Nat) (r : Req), (n < 8) ∧ ((s.stack n).req? r.id = some r) ∧ (r.st = ReqSt.held) ∧
      ((s.stack n).isDead r.node = false) ∧ (¬r.node ∈ (s.stack n).fenced) ∧ (s.mayGo n r = true) ∧ ((s.stack
      n).spanFor r = none) ∧ (s.mayRoute n r = true)) ∧
    (∃ (s : State) (n : Nat) (r : Req) (x : SpanOut), (n < 8) ∧ ((s.stack n).req? r.id = some r) ∧ (r.st =
      ReqSt.held) ∧ ((s.stack n).isDead r.node = false) ∧ (¬r.node ∈ (s.stack n).fenced) ∧ (s.mayGo n r =
      true) ∧ ((s.stack n).spanFor r = some x) ∧ (x.paused = false)) := by
  and_intros
  · exact ⟨run.modStack 0 (fun k => { k with reqs := [{ req with st := .held }] }), 0, { req with st := .held },
    by decide +kernel⟩
  · exact ⟨(spanned { spanOut with st := .active } coll).modStack 0 (fun k =>
          { k with reqs := [{ req with st := .held, op := 2, payload := grain.take 8, node := 0x4B51, offset := 0, offers := [3] }] }),
          0,
          { req with st := .held, op := 2, payload := grain.take 8, node := 0x4B51, offset := 0, offers := [3] },
          { spanOut with st := .active },


      by decide +kernel⟩

/-- States and operands that meet the hypotheses of each clause of ResetLeavesResetValues. -/
theorem meets_ResetLeavesResetValues :
    ∃ (n : Nat), (n < 8) :=
  ⟨7, by decide +kernel⟩

/-- States and operands that meet the hypotheses of each clause of RingsAreEnabledAndPolled. -/
theorem meets_RingsAreEnabledAndPolled :
    (∃ (s : State) (who : Requester) (r : Nat) (value : Word), (r < 64) ∧ (s.permit who (Reg.HOSTIF_RING_CFG
      r) = Admit.ok) ∧ (s.ringDrained r = true) ∧ (∃ i, i < 13 ∧ getF value HOSTIF_RING_CFG_SIZE = 16 * 2 ^ i)
      ∧ (getF value HOSTIF_RING_CFG_SEALED = 0 → 2 ≤ getF value HOSTIF_RING_CFG_VER_REQ) ∧ (getF value
      HOSTIF_RING_CFG_SEALED = 1 → 4 ≤ getF value HOSTIF_RING_CFG_VER_REQ ∧ ∀ (n : Nat), n < 8 → bitOf (getF
      value HOSTIF_RING_CFG_STACKS) n = true → s.stackUp n = true → s.bound n = true → s.tenantOf n = getF
      value HOSTIF_RING_CFG_TENANT)) ∧
    (∃ (s : State) (who : Requester) (r : Nat) (value : Word), (r < 64) ∧ (s.permit who (Reg.HOSTIF_RING_CFG
      r) = Admit.ok) ∧ (s.ringOn r = true) ∧ (getF value HOSTIF_RING_CFG_SIZE = 0)) ∧
    (∃ (s : State) (who : Requester) (r : Nat) (value : Word), (r < 64) ∧ (s.ringOn r = true ∨ s.ringDrained r
      = false) ∧ (s.permit who (Reg.HOSTIF_RING_CFG r) = Admit.ok) ∧ (s.ringOn r = true → getF value
      HOSTIF_RING_CFG_SIZE ≠ 0)) ∧
    (∃ (s : State) (who : Requester) (r : Nat) (value : Word) (q : Reg), (r < 64) ∧ (s.ringOn r = true ∨
      s.ringDrained r = false) ∧ (q ∈ [Reg.HOSTIF_RING_DESC r, Reg.HOSTIF_RING_CPL r, Reg.HOSTIF_RING_DB r]) ∧
      (s.permit who q = Admit.ok) ∧ (s.reaches who q.offset = true)) ∧
    (∃ (s : State) (who : Requester) (r : Nat) (value : Word) (cells : List Host.Cell), (r < 64) ∧ (s.ringOn r
      = true) ∧ ((s.ring r).lineHeld = true)) ∧
    (∃ (s : State) (who : Requester) (r : Nat) (value : Word), (r < 64) ∧ (s.ringOn r = true) ∧ ((s.ring
      r).reading = true)) ∧
    (∃ (s : State) (who : Requester) (r : Nat) (value : Word), (r < 64) ∧ (s.ringOn r = true)) := by
  and_intros
  · exact ⟨live, .bar0, 63, setF (setF 0 HOSTIF_RING_CFG_SIZE 65536) HOSTIF_RING_CFG_VER_REQ 4, by decide +kernel⟩
  · exact ⟨live.setFld (.HOSTIF_RING_CFG 0) HOSTIF_RING_CFG_VER 4, .bar0, 0, 0, by decide +kernel⟩
  · exact ⟨(live.setFld (.HOSTIF_RING_CFG 0) HOSTIF_RING_CFG_VER 4).modRing 0 (fun x => { x with size := 16, reading := true }),
    .bar0, 0, 3,
      by decide +kernel⟩
  · exact ⟨(live.setFld (.HOSTIF_RING_CFG 0) HOSTIF_RING_CFG_VER 4).modRing 0 (fun x =>
          { x with size := 16, reading := true }), .bar0, 0, 3, .HOSTIF_RING_DESC 0, by decide +kernel⟩
  · exact ⟨(live.setFld (.HOSTIF_RING_CFG 0) HOSTIF_RING_CFG_VER 4).modRing 0 (fun x => { x with size := 16, lineHeld := true }),
    .bar0, 0, 0, [(0x1000, 5), (0x1000, 6)],


      by decide +kernel⟩
  · exact ⟨(live.setFld (.HOSTIF_RING_CFG 0) HOSTIF_RING_CFG_VER 4).modRing 0 (fun x => { x with size := 16, reading := true }),
    .bar0, 0, 3,


      by decide +kernel⟩
  · exact ⟨(live.setFld (.HOSTIF_RING_CFG 0) HOSTIF_RING_CFG_VER 4).modRing 0 (fun x => { x with size := 16 }), .bar0,
    0, 3,


      by decide +kernel⟩

/-- States and operands that meet the hypotheses of each clause of RowsAreRepairedAndScrubbed. -/
theorem meets_RowsAreRepairedAndScrubbed :
    (∃ (s : State) (n : Nat) (row : RowId), (n < 8) ∧ (row.stack = n) ∧ (s.stackUp n = true) ∧ (s.rowDue row =
      true) ∧ (¬row ∈ (s.stack n).repairing)) ∧
    (∃ (s : State) (n : Nat) (row : RowId) (l : Nat) (bad : List Nat), (n < 8) ∧ (row.stack = n) ∧ (row ∈
      (s.stack n).repairing) ∧ (s.linesInRow row [l] = [l]) ∧ (∀ (p : Nat × Nat), (p ∈ if row.far = true then
      (s.stack n).farErr else (s.stack n).nearErr) → p.fst = l) ∧ ((s.stack n).coreHeld = []) ∧ ((s.stack
      n).spansIn = []) ∧ (∀ (d : Desc), d ∈ s.host.descs → d.st ≠ DescSt.waitSegs) ∧ (s.keeper.debugHeld =
      none)) ∧
    (∃ (s : State) (n : Nat) (far : Bool) (line : Nat) (wrong : Nat), (n < 8) ∧ (s.stackUp n = true) ∧ (0 <
      s.fld (Reg.MEM_CFG n) MEM_CFG_SCRUB_PERIOD) ∧ (128 * line < s.tierSize n far) ∧ (s.patrolDue n far line
      = true) ∧ (s.lineBusy n far line = false)) ∧
    (∃ (s : State) (n : Nat), (n < 8) ∧ (s.bit (Reg.MEM_STATUS n) MEM_STATUS_ZERO_BUSY = true) ∧ ((s.stack
      n).repairing = [])) := by
  and_intros
  · exact ⟨live.modStack 0 (fun k => { k with rowsDue := [0] }), 0, row0, by decide +kernel⟩
  · exact ⟨repairing0, 0, rowOfLine0, 0, [], by exact ⟨by decide, rfl, List.mem_singleton.mpr rfl,
          line0_in_row, by decide +kernel, by decide +kernel, by decide +kernel, by decide +kernel,
          by decide +kernel⟩⟩
  · exact ⟨live.modStack 0 (fun k => { k with nearErr := [(3, 2)] }), 0, false, 3, 2, by decide +kernel⟩
  · exact ⟨open0.setBit (.MEM_STATUS 0) MEM_STATUS_ZERO_BUSY true, 0, by decide +kernel⟩

/-- States and operands that meet the hypotheses of each clause of ScalarAndControlInstructions. -/
theorem meets_ScalarAndControlInstructions :
    (∃ (s : State) (c : CtxId) (f : SForm), (Runs s c)) ∧
    (∃ (s : State) (c : CtxId) (f : SForm) (i : Instr), (c.wf = true) ∧ (s.running c = false) ∧ (i ∈
      [Instr.sli c f, Instr.slih c f, Instr.sadd c f, Instr.saddi c f, Instr.ssub c f, Instr.smul c f,
      Instr.sand c f, Instr.sor c f, Instr.sxor c f, Instr.sshl c f, Instr.sshr c f, Instr.scmplt c f,
      Instr.getf c f, Instr.getid c f, Instr.nop c, Instr.jmp c f, Instr.brz c f, Instr.brnz c f, Instr.yield
      c f, Instr.halt c f])) := by
  and_intros
  · exact ⟨run, c0, sf, by delta Runs; decide +kernel⟩
  · exact ⟨live, c0, sf, .slih c0 sf, by decide +kernel⟩

/-- States and operands that meet the hypotheses of each clause of ShadowsCompareAndRegionsRebuild. -/
theorem meets_ShadowsCompareAndRegionsRebuild :
    (∃ (s : State) (m : ShadowSet), (s.fmNode ≠ 65535) ∧ (s.recoveryOk m.stack = true) ∧ (s.peerKnown m.stack
      m.peer = true) ∧ (m.role ≤ 2)) ∧
    (∃ (s : State) (m : ShadowSet), (s.fmNode ≠ 65535) ∧ (m.stack < 8) ∧ (s.recoveryOk m.stack = false ∨
      s.peerKnown m.stack m.peer = false)) ∧
    (∃ (s : State) (n : Nat) (beat : BitVec 48), (s.fmNode ≠ 65535) ∧ (n < 8) ∧ (s.role n ≠ 0)) ∧
    (∃ (s : State) (m : RegionReq) (i : Instr) (ty : BitVec 8), (s.fmNode ≠ 65535) ∧ (m.stack < 8) ∧
      (s.rebuildResult m ≠ 0) ∧ ((i, ty) ∈ [(Instr.rebuild s.fmNode m, 34#8), (Instr.digestReq s.fmNode m,
      36#8)])) ∧
    (∃ (s : State) (m : RegionReq) (i : Nat), (s.fmNode ≠ 65535) ∧ (m.stack < 8) ∧ (s.rebuildResult m = 0) ∧
      (0 < m.length) ∧ ((m.dstOffset % if jzb2 m.dstNode = true then 4096 else 8192) + m.length ≤ if jzb2
      m.dstNode = true then 4096 else 8192) ∧ (s.freeEngine m.stack = some i) ∧ ((s.stack m.stack).repairing =
      []) ∧ ((s.stack m.stack).nearErr = []) ∧ ((s.stack m.stack).farErr = []) ∧ ((s.stack m.stack).anyPoison
      (m.tier == 1) (linesOf m.offset m.length) = false)) ∧
    (∃ (s : State) (m : RegionReq), (s.fmNode ≠ 65535) ∧ (m.stack < 8) ∧ (s.rebuildResult m = 0) ∧
      (s.freeEngine m.stack = none)) ∧
    (∃ (s : State) (m : RegionReq), (s.fmNode ≠ 65535) ∧ (m.stack < 8) ∧ (s.rebuildResult m = 0)) ∧
    (∃ (s : State) (n : Nat) (step : BitVec 32) (own : Word) (d : Word), (n < 8) ∧ (s.role n = 2) ∧ ((s.stack
      n).shadow.own = [(step, own)]) ∧ ((s.stack n).shadow.theirs = [])) ∧
    (∃ (s : State) (src : BitVec 16) (n : Nat) (b : BitVec 48), (n < 8) ∧ ((s.stack n).shadow.swapAt = some b)
      ∧ (s.reached b = true) ∧ (s.role n = 1 ∨ s.role n = 2)) ∧
    (∃ (s : State) (src : BitVec 16) (n : Nat) (b : Rebuild), (n < 8) ∧ ((s.stack n).rebuilds = [b]) ∧ (b.copy
      = true) ∧ (b.begun = true) ∧ ((s.stack n).rebuildQuiet b = true)) ∧
    (∃ (s : State) (src : BitVec 16) (n : Nat) (b : Rebuild), (n < 8) ∧ ((s.stack n).rebuilds = [b]) ∧ (b.copy
      = false) ∧ ((s.stack n).repairing = []) ∧ ((s.stack n).nearErr = []) ∧ ((s.stack n).farErr = []) ∧
      ((s.stack n).anyPoison (b.req.tier == 1) (linesOf b.req.offset b.req.length) = false)) := by
  and_intros
  · exact ⟨recover 0 id, shadowSet, by decide +kernel⟩
  · exact ⟨live, shadowSet, by decide +kernel⟩
  · exact ⟨recover 1 id, 0, 0x500, by decide +kernel⟩
  · exact ⟨live, region 64, .rebuild live.fmNode (region 64), 0x22, by decide +kernel⟩
  · exact ⟨(recover 0 id).modStack 0 (fun k => { k with near := Mem.writeBytes [] 0x100 grain }), region 64,
          0, by decide +kernel⟩
  · exact ⟨{ recover 0 id with host := { live.host with descs := (List.range 16).map (fun i => { desc 1 [] with handle := i + 1, engine := i + 1 }) } },
    region 64,
      by decide +kernel⟩
  · exact ⟨recover 0 id, region 64, by decide +kernel⟩
  · exact ⟨recover 2 (fun x => { x with peer := 0x4B60, own := [(3, 99)] }), 0, 3, 99, 99,
          by decide +kernel⟩
  · exact ⟨recover 2 (fun x => { x with swapAt := some 0 }), 0, 0, 0, by decide +kernel⟩
  · exact ⟨rebuilding ⟨region 64, true, 0, true, 0, 5⟩, 0, 0, ⟨region 64, true, 0, true, 0, 5⟩,
          by decide +kernel⟩
  · exact ⟨rebuilding ⟨region 64, false, 0, true, 0, 5⟩, 0, 0, ⟨region 64, false, 0, true, 0, 5⟩,
          by decide +kernel⟩

/-- States and operands that meet the hypotheses of each clause of SidebandMessagesActOnPower. -/
theorem meets_SidebandMessagesActOnPower :
    (∃ (s : State) (dest : BitVec 7) (v : BitVec 16) (b : BitVec 48) (h : Held), (s.i3cRefuses dest = false) ∧
      (s.capsHeld = false) ∧ (s.reached b = false) ∧ (h.value = v.toNat) ∧ (h.beat = b) ∧ (h.order =
      s.host.nextOrder) ∧ (h.isCap = true)) ∧
    (∃ (s : State) (dest : BitVec 7) (v : BitVec 16) (b : BitVec 48) (h : Held), (s.i3cRefuses dest = false) ∧
      (s.capsHeld = false) ∧ (s.reached b = false) ∧ (h.value = v.toNat) ∧ (h.beat = b) ∧ (h.order =
      s.host.nextOrder) ∧ (h.isCap = false)) ∧
    (∃ (s : State) (dest : BitVec 7) (v : BitVec 16) (b : BitVec 48), (s.i3cRefuses dest = false) ∧
      (s.capsHeld = false) ∧ (s.reached b = true) ∧ (s.power.held = [])) ∧
    (∃ (s : State) (dest : BitVec 7), (s.i3cRefuses dest = false)) ∧
    (∃ (s : State) (dest : BitVec 7) (i : Instr) (code : Nat) (len : Nat) (body : List Byte), (s.i3cRefuses
      dest = false) ∧ ((i, code, len) ∈ [(Instr.capAt { dest := dest, body := body } false, 48, 8),
      (Instr.rampAt { dest := dest, body := body } false, 49, 8), (Instr.lease { dest := dest, body := body } false, 50, 0)]) ∧ (body.length ≠ len)) ∧
    (∃ (s : State) (dest : BitVec 7) (code : Byte) (body : List Byte), (s.i3cRefuses dest = false) ∧
      (knownMessage code = false)) ∧
    (∃ (s : State) (dest : BitVec 7) (i : Instr) (body : List Byte) (code : Byte), (16 ≤ s.power.held.length ∨
      s.i3cAnswers dest = false) ∧ (i ∈ [Instr.capAt { dest := dest, body := body } false,
      Instr.rampAt { dest := dest, body := body } false, Instr.lease { dest := dest, body := body } false,
      Instr.rackSet { dest := dest, body := body } false, Instr.beatSet { dest := dest, body := body } false] ∨
      knownMessage code = false ∧ i = Instr.unknownSidebandMessage code { dest := dest, body := body } false)) ∧
    (∃ (s : State) (h : Held), (s.power.held = [h]) ∧ (s.capsHeld = false) ∧ (s.myTurn (h.beat, 3, h.order) =
      true) ∧ (h.isCap = true)) ∧
    (∃ (s : State) (h : Held), (s.power.held = [h]) ∧ (s.capsHeld = false) ∧ (s.myTurn (h.beat, 3, h.order) =
      true) ∧ (h.isCap = false)) ∧
    (∃ (s : State), (s.boot.powered = true) ∧ (s.leaseLost = false) ∧ (s.power.leaseAt + 2000 * 75200000 ≤
      s.now)) ∧
    (∃ (s : State) (dest : BitVec 7), (s.boot.i3cOn = true)) ∧
    (∃ (s : State), (s.boot.i3cOn = true)) ∧
    (∃ (s : State) (dest : BitVec 7) (a : BitVec 7), (s.boot.i3cOn = true) ∧ (s.boot.i3cDyn = none)) ∧
    (∃ (s : State) (dest : BitVec 7) (a : BitVec 7), (s.boot.i3cOn = true) ∧ (s.boot.i3cDyn = none) ∧
      (dest.toNat = 48 + s.boot.slot.toNat % 2)) ∧
    (∃ (s : State) (dest : BitVec 7) (a : BitVec 7), (s.boot.i3cOn = true) ∧ (s.boot.i3cDyn ≠ none ∨
      dest.toNat ≠ 48 + s.boot.slot.toNat % 2)) ∧
    (∃ (s : State) (dest : BitVec 7) (a : BitVec 7), (s.boot.i3cOn = true) ∧ (s.i3cAnswers dest = true)) ∧
    (∃ (s : State) (dest : BitVec 7) (a : BitVec 7), (s.boot.i3cOn = true) ∧ (s.i3cAnswers dest = false)) ∧
    (∃ (s : State) (c : BitVec 8), (s.boot.i3cOn = true)) := by
  and_intros
  · exact ⟨live, 0x30, 0x190, 0x500, ⟨true, 0x190, 0x500, live.host.nextOrder⟩, by decide +kernel⟩
  · exact ⟨live, 0x30, 0x190, 0x500, ⟨false, 0x190, 0x500, live.host.nextOrder⟩, by decide +kernel⟩
  · exact ⟨live, 0x30, 0x190, 0, by decide +kernel⟩
  · exact ⟨live, by decide +kernel⟩
  · exact ⟨live, 0x30, .capAt ⟨0x30, [1]⟩ false, 0x30, 8, [1], by decide +kernel⟩
  · exact ⟨live, 0x30, 0x35, [1], by decide +kernel⟩
  · exact ⟨live, 0x31, .capAt ⟨0x31, [1]⟩ false, [1], 0, by exact ⟨.inr (by decide +kernel), .inl
          (by decide +kernel)⟩⟩
  · exact ⟨heldNow true, hold1 true, by decide +kernel⟩
  · exact ⟨heldNow false, hold1 false, by decide +kernel⟩
  · exact ⟨{ live with now := 2000 * 75200000 }, by decide +kernel⟩
  · exact ⟨live, 7, by decide +kernel⟩
  · exact ⟨{ live with boot := { live.boot with i3cDyn := some 9 } }, by decide +kernel⟩
  · exact ⟨live, 5, by decide +kernel⟩
  · exact ⟨live, 48, 5, by decide +kernel⟩
  · exact ⟨live, 5, by decide +kernel⟩
  · exact ⟨{ live with boot := { live.boot with i3cDyn := some 9 } }, 9, 5, by decide +kernel⟩
  · exact ⟨live, 5, by decide +kernel⟩
  · exact ⟨live, 7, by decide +kernel⟩

/-- States and operands that meet the hypotheses of each clause of SpansAreAppliedAtTheirTarget. -/
theorem meets_SpansAreAppliedAtTheirTarget :
    (∃ (s : State) (n : Nat) (x : SpanIn) (f : Frame) (e : SpanEntry) (far : Bool) (o : Nat), (n < 8) ∧
      ((s.stack n).spanIn? x.src x.id = some x) ∧ (x.broken = false) ∧ (x.waiting = []) ∧ (s.sw.headFrame (64
      + n) f = true) ∧ (s.tailPort (Sum.inr f) = none) ∧ (s.collFrame n f = false) ∧ (s.sw.lastHop n f = some
      e) ∧ (e.srcNode = x.src) ∧ (e.spanId = x.id) ∧ (s.framesEnd n = false) ∧ (f.kind = 0) ∧ (s.cellsBad
      (Sum.inr f) = false) ∧ (f.epoch = x.epoch) ∧ (x.drain = none) ∧ (frameIsAccess f = true) ∧ (s.targetOk n
      (framePacket x (s.node n) f) = true) ∧ (jzb2 x.src = false) ∧ (s.whereIs n (framePacket x (s.node n)
      f).offset.toNat (pktLen (framePacket x (s.node n) f)) = if far = true then Where.far o else Where.near
      o) ∧ ((framePacket x (s.node n) f).op = 2) ∧ ((s.stack n).nearErr = []) ∧ ((s.stack n).farErr = []) ∧ (∀
      (line : Nat), line ∈ linesOf o (pktLen (framePacket x (s.node n) f)) → (s.stack n).mark far line ≠
      markPoison) ∧ ((s.stack n).repairing = []) ∧ (s.windowsOf n = []) ∧ ((s.stack n).lineHolds = []) ∧ (∀
      (line : Nat), line ∈ pktLines (framePacket x (s.node n) f) → ∀ (q : Packet), q ∈ s.lineWaiters n line →
      q = framePacket x (s.node n) f)) ∧
    (∃ (s : State) (n : Nat) (x : SpanIn) (f : Frame) (e : SpanEntry), (n < 8) ∧ ((s.stack n).spanIn? x.src
      x.id = some x) ∧ (x.broken = false) ∧ (x.waiting = []) ∧ (s.sw.headFrame (64 + n) f = true) ∧
      (s.tailPort (Sum.inr f) = none) ∧ (s.collFrame n f = false) ∧ (s.sw.lastHop n f = some e) ∧ (e.srcNode =
      x.src) ∧ (e.spanId = x.id) ∧ (s.framesEnd n = false) ∧ (f.kind = 1) ∧ (s.cellsBad (Sum.inr f) = false) ∧
      (f.epoch = x.epoch) ∧ (leNat (List.take 4 f.payload) = x.applied)) ∧
    (∃ (s : State) (n : Nat) (x : SpanIn) (f : Frame) (e : SpanEntry) (i : Instr), (n < 8) ∧ ((s.stack
      n).spanIn? x.src x.id = some x) ∧ (x.broken = false) ∧ (x.waiting = []) ∧ (s.sw.headFrame (64 + n) f =
      true) ∧ (s.tailPort (Sum.inr f) = none) ∧ (s.collFrame n f = false) ∧ (s.sw.lastHop n f = some e) ∧
      (e.srcNode = x.src) ∧ (e.spanId = x.id) ∧ (s.framesEnd n = false) ∧ (f.kind = 0 ∧ i = Instr.spanFrame n
      f true ∨ f.kind = 1 ∧ i = Instr.drainMarker n { frame := f, poisoned := true })) ∧
    (∃ (s : State) (n : Nat) (x : SpanIn), (n < 8) ∧ ((s.stack n).spanIn? x.src x.id = some x) ∧ (x.broken =
      false) ∧ (x.waiting = []) ∧ (x.ackFrom ≠ 0) ∧ (x.ackFrom - 1 + 75200 ≤ s.now)) ∧
    (∃ (s : State) (n : Nat) (x : SpanIn) (p : Packet), (n < 8) ∧ ((s.stack n).spanIn? x.src x.id = some x) ∧
      (x.broken = false) ∧ (x.waiting = []) ∧ (p.op = 6) ∧ (PortFree s n p) ∧ (s.serves n = true) ∧
      ((s.forwarded p).poison = false) ∧ (p.src = x.src) ∧ (BitVec.setWidth 16 p.offset = x.id) ∧
      ((BitVec.setWidth 4 p.param - x.epoch).toNat < 8) ∧ (s.changing n x (BitVec.setWidth 4 p.param) =
      false)) := by
  and_intros
  · exact ⟨arrived data6, 0, spanIn, data6, lastHop, false, 0x110, by decide +kernel⟩
  · exact ⟨arrived drain6, 0, spanIn, drain6, lastHop, by decide +kernel⟩
  · exact ⟨arrived drain6, 0, spanIn, drain6, lastHop, .drainMarker 0 ⟨drain6, true⟩, by decide +kernel⟩
  · exact ⟨{ arrived data6 with now := 75200 }, 0, spanIn, by decide +kernel⟩
  · exact ⟨open0.modStack 0 (fun k => { k with spansIn := [spanIn] }), 0, spanIn, pkt 6 15 3 [], by delta PortFree; decide +kernel⟩

/-- States and operands that meet the hypotheses of each clause of SpansLiveAtTheirSource. -/
theorem meets_SpansLiveAtTheirSource :
    (∃ (s : State) (n : Nat) (x : SpanOut) (label : BitVec 16) (reason : Byte) (epoch : BitVec 8), (n < 8) ∧
      (s.span? n x.id = some x) ∧ (s.fmNode ≠ 65535) ∧ (x.st = SpanSt.requested) ∧ (s.reached x.openBeat =
      false)) ∧
    (∃ (s : State) (n : Nat) (x : SpanOut) (label : BitVec 16) (reason : Byte) (epoch : BitVec 8), (n < 8) ∧
      (s.span? n x.id = some x) ∧ (s.fmNode ≠ 65535) ∧ (x.st = SpanSt.requested) ∧ (s.reached x.openBeat =
      true)) ∧
    (∃ (s : State) (n : Nat) (x : SpanOut) (label : BitVec 16) (reason : Byte) (epoch : BitVec 8), (n < 8) ∧
      (s.span? n x.id = some x) ∧ (s.fmNode ≠ 65535) ∧ (x.st = SpanSt.requested)) ∧
    (∃ (s : State) (n : Nat) (x : SpanOut), (n < 8) ∧ (s.span? n x.id = some x) ∧ (x.st = SpanSt.requested) ∧
      (x.since + 5 * 75200000 ≤ s.now)) ∧
    (∃ (s : State) (n : Nat) (x : SpanOut) (d : Desc), (n < 8) ∧ (s.span? n x.id = some x) ∧ (x.st =
      SpanSt.armed) ∧ (s.desc? x.openDesc = some d) ∧ (s.fires d = true)) ∧
    (∃ (s : State) (n : Nat) (x : SpanOut) (d : Desc), (n < 8) ∧ (s.span? n x.id = some x) ∧ (List.find? (fun
      e => e.opcode == 10 && e.stack == n && e.closes == x.id && s.fires e) s.host.descs = some d) ∧ (x.st =
      SpanSt.active) ∧ (x.queue = []) ∧ (x.sent = [])) ∧
    (∃ (s : State) (n : Nat) (x : SpanOut) (d : Desc), (n < 8) ∧ (s.span? n x.id = some x) ∧ (List.find? (fun
      e => e.opcode == 10 && e.stack == n && e.closes == x.id && s.fires e) s.host.descs = some d) ∧ (x.st =
      SpanSt.paused) ∧ (x.sync = 0)) ∧
    (∃ (s : State) (n : Nat) (x : SpanOut) (f : SentFrame) (rest : List SentFrame), (n < 8) ∧ (s.span? n x.id
      = some x) ∧ (x.queue = f :: rest) ∧ (x.st = SpanSt.active ∨ x.st = SpanSt.draining ∨ x.st =
      SpanSt.closing) ∧ (x.sync = 0) ∧ (x.marker = none) ∧ (s.sw.entryRoom (64 + n) (s.stampFrame n x f) =
      true)) ∧
    (∃ (s : State) (n : Nat) (x : SpanOut) (g : Frame), (n < 8) ∧ (s.span? n x.id = some x) ∧ (x.marker = some
      g) ∧ (s.sw.entryRoom (64 + n) g = true)) ∧
    (∃ (s : State) (n : Nat) (x : SpanOut) (p : Packet), (n < 8) ∧ (s.span? n x.id = some x) ∧ (PortFree s n
      p) ∧ ((s.forwarded p).poison = false) ∧ (BitVec.setWidth 16 p.offset = x.id) ∧ (p.op = 19) ∧ (x.st =
      SpanSt.active)) ∧
    (∃ (s : State) (n : Nat) (x : SpanOut) (p : Packet), (n < 8) ∧ (s.span? n x.id = some x) ∧ (PortFree s n
      p) ∧ ((s.forwarded p).poison = false) ∧ (BitVec.setWidth 16 p.offset = x.id) ∧ (p.op = 20) ∧
      (BitVec.setWidth 4 p.param = x.epoch) ∧ (x.st = SpanSt.paused) ∧ (x.sync = 1)) ∧
    (∃ (s : State) (n : Nat) (x : SpanOut) (p : Packet), (n < 8) ∧ (s.span? n x.id = some x) ∧ (PortFree s n
      p) ∧ ((s.forwarded p).poison = false) ∧ (BitVec.setWidth 16 p.offset = x.id) ∧ (p.op = 20) ∧
      (BitVec.setWidth 4 p.param ≠ x.epoch) ∧ (x.st = SpanSt.paused)) ∧
    (∃ (s : State) (n : Nat) (x : SpanOut) (p : Packet), (n < 8) ∧ (s.span? n x.id = some x) ∧ (PortFree s n
      p) ∧ ((s.forwarded p).poison = false) ∧ (BitVec.setWidth 16 p.offset = x.id) ∧ (p.op = 20) ∧
      (BitVec.setWidth 4 p.param = x.epoch) ∧ (x.st = SpanSt.paused ∨ x.st = SpanSt.closing) ∧ (x.sync = 2) ∧
      (x.queue = []) ∧ (x.sent = [])) ∧
    (∃ (s : State) (n : Nat) (x : SpanOut) (p : Packet), (n < 8) ∧ (s.span? n x.id = some x) ∧ (PortFree s n
      p) ∧ ((s.forwarded p).poison = false) ∧ (BitVec.setWidth 16 p.offset = x.id) ∧ (p.op = 22) ∧ (x.st =
      SpanSt.active ∨ x.st = SpanSt.draining)) ∧
    (∃ (s : State) (n : Nat) (x : SpanOut) (from_ : Nat), (n < 8) ∧ (s.span? n x.id = some x) ∧ (x.syncFrom =
      some from_) ∧ (s.silent n x.dstNode = false) ∧ (s.resendDue from_ x.syncs = true)) ∧
    (∃ (s : State) (n : Nat) (x : SpanOut) (label : BitVec 16) (epoch : Byte), (n < 8) ∧ (s.span? n x.id =
      some x) ∧ (s.fmNode ≠ 65535) ∧ (x.st = SpanSt.active)) ∧
    (∃ (s : State) (n : Nat) (x : SpanOut) (label : BitVec 16) (epoch : Byte) (planned : Byte), (n < 8) ∧
      (s.span? n x.id = some x) ∧ (s.fmNode ≠ 65535) ∧ (x.st = SpanSt.paused) ∧ (x.sync ≠ 2)) ∧
    (∃ (s : State) (n : Nat) (x : SpanOut), (n < 8) ∧ (s.span? n x.id = some x) ∧ (x.st = SpanSt.paused) ∧
      (x.sync ≠ 2) ∧ (x.since + 5 * 75200000 ≤ s.now)) := by
  and_intros
  · exact ⟨span9 { spanOut with openBeat := 16 }, 0, { spanOut with openBeat := 16 }, 40, 3, 0x1F,
      by decide +kernel⟩
  · exact ⟨span9 spanOut, 0, spanOut, 40, 3, 0x1F, by decide +kernel⟩
  · exact ⟨span9 spanOut, 0, spanOut, 40, 3, 0x1F, by decide +kernel⟩
  · exact ⟨later (span9 spanOut), 0, spanOut, by decide +kernel⟩
  · exact ⟨spanned { spanOut with st := .armed } { desc 9 [0, 0, 0] with st := .armed }, 0,
    { spanOut with st := .armed }, { desc 9 [0, 0, 0] with st := .armed }, by decide +kernel⟩
  · exact ⟨spanned { spanOut with st := .active } { desc 10 [3 * 2 ^ 48] with st := .armed }, 0,
    { spanOut with st := .active }, { desc 10 [3 * 2 ^ 48] with st := .armed }, by decide +kernel⟩
  · exact ⟨spanned { spanOut with st := .paused } { desc 10 [3 * 2 ^ 48] with st := .armed }, 0,
          { spanOut with st := .paused }, { desc 10 [3 * 2 ^ 48] with st := .armed }, by decide +kernel⟩
  · exact ⟨span9 { spanOut with st := .active, count := 0xFFFFFFFF, queue := [sent, sent] }, 0,
    { spanOut with st := .active, count := 0xFFFFFFFF, queue := [sent, sent] }, sent, [sent], by decide +kernel⟩
  · exact ⟨span9 { spanOut with marker := some drain6 }, 0, { spanOut with marker := some drain6 }, drain6,
          by decide +kernel⟩
  · exact ⟨span9 { spanOut with st := .active, syncs := 2 }, 0, { spanOut with st := .active, syncs := 2 },
    pkt 0x13 0 3 [], by delta PortFree; decide +kernel⟩
  · exact ⟨span9 { spanOut with st := .paused, sync := 1, epoch := 2 }, 0,
    { spanOut with st := .paused, sync := 1, epoch := 2 }, pkt 0x14 2 3 [], by delta PortFree; decide +kernel⟩
  · exact ⟨span9 { spanOut with st := .paused, sync := 1, epoch := 5 }, 0,
          { spanOut with st := .paused, sync := 1, epoch := 5 }, pkt 0x14 2 3 [],
          by delta PortFree; decide +kernel⟩
  · exact ⟨span9 { spanOut with st := .paused, sync := 2, epoch := 2 }, 0,
          { spanOut with st := .paused, sync := 2, epoch := 2 }, pkt 0x14 2 3 [], by delta PortFree; decide +kernel⟩
  · exact ⟨span9 { spanOut with st := .draining }, 0, { spanOut with st := .draining }, pkt 0x16 0 3 [],
      by delta PortFree; decide +kernel⟩
  · exact ⟨({ span9 { spanOut with sent := [sent] } with now := 75200000 }).modStack 0 (fun k => { k with heard := [(0x4B51, 75200000)] }),
    0, { spanOut with sent := [sent] }, 0,


      by decide +kernel⟩
  · exact ⟨span9 { spanOut with st := .active, count := 9 }, 0, { spanOut with st := .active, count := 9 }, 40, 0x1F,



      by decide +kernel⟩
  · exact ⟨span9 { spanOut with st := .paused }, 0, { spanOut with st := .paused }, 40, 0x1F, 0, by decide +kernel⟩
  · exact ⟨later (span9 { spanOut with st := .paused, epoch := 15 }), 0, { spanOut with st := .paused, epoch := 15 },



      by decide +kernel⟩

/-- States and operands that meet the hypotheses of each clause of StageLinksCarryGranules. -/
theorem meets_StageLinksCarryGranules :
    (∃ (s : State) (c : CtxId) (f : MForm), (f.sub.toNat < 4) ∧ (Runs s c) ∧ ((s.ctx c).waits = []) ∧
      (s.linkOpen c.stack c.bench f.sub.toNat = true) ∧ (Tab.get 0 (s.bench c.stack c.bench).used f.sub.toNat
      < 6) ∧ (Tab.get 0 (s.bench c.stack c.bench).txOwner f.sub.toNat = 0) ∧ (Tab.get [] (s.bench c.stack
      c.bench).txQueue f.sub.toNat = []) ∧ (mOk 42 f = true)) ∧
    (∃ (s : State) (c : CtxId) (f : MForm), (f.sub.toNat < 4) ∧ (Runs s c) ∧ (s.linkOpen c.stack c.bench
      f.sub.toNat = false) ∧ (mOk 42 f = true)) ∧
    (∃ (s : State) (c : CtxId) (f : MForm) (g : List Byte) (rest : List (List Byte)), (f.sub.toNat < 4) ∧
      (Runs s c) ∧ ((s.ctx c).waits = []) ∧ (s.linkOpen c.stack c.bench f.sub.toNat = true) ∧ (Tab.get []
      (s.bench c.stack c.bench).rx f.sub.toNat = g :: rest) ∧ (g ≠ []) ∧ (Tab.get 0 (s.bench c.stack
      c.bench).rxOwner f.sub.toNat = 0) ∧ (Tab.get [] (s.bench c.stack c.bench).rxQueue f.sub.toNat = []) ∧
      (mOk 43 f = true)) ∧
    (∃ (s : State) (c : CtxId) (f : MForm), (f.sub.toNat < 4) ∧ (Runs s c) ∧ (s.linkOpen c.stack c.bench
      f.sub.toNat = false) ∧ (mOk 43 f = true)) ∧
    (∃ (s : State) (c : CtxId) (f : MForm), (f.sub.toNat < 4) ∧ (Runs s c) ∧ ((s.ctx c).waits = []) ∧
      (s.linkOpen c.stack c.bench f.sub.toNat = true) ∧ (InDrawer (BitVec.toNat ((s.ctx c).sreg f.sb.toNat))
      64 (BitVec.toNat ((s.ctx c).sreg f.sc.toNat))) ∧ (BitVec.toNat ((s.ctx c).sreg f.sc.toNat) % 256 = 0) ∧
      (Tab.get 0 (s.bench c.stack c.bench).txOwner f.sub.toNat = 0) ∧ (Tab.get [] (s.bench c.stack
      c.bench).txQueue f.sub.toNat = []) ∧ (DrawerClean s c (BitVec.toNat ((s.ctx c).sreg f.sb.toNat)) (256 *
      min (6 - Tab.get 0 (s.bench c.stack c.bench).used f.sub.toNat) (BitVec.toNat ((s.ctx c).sreg f.sc.toNat)
      / 256))) ∧ (mOk 44 f = true)) ∧
    (∃ (s : State) (c : CtxId) (f : MForm), (f.sub.toNat < 4) ∧ (Runs s c) ∧ ((s.ctx c).waits = []) ∧
      (s.linkOpen c.stack c.bench f.sub.toNat = true) ∧ (InDrawer (BitVec.toNat ((s.ctx c).sreg f.sb.toNat))
      64 (BitVec.toNat ((s.ctx c).sreg f.sc.toNat))) ∧ (BitVec.toNat ((s.ctx c).sreg f.sc.toNat) % 256 = 0) ∧
      (Tab.get 0 (s.bench c.stack c.bench).rxOwner f.sub.toNat = 0) ∧ (Tab.get [] (s.bench c.stack
      c.bench).rxQueue f.sub.toNat = []) ∧ ((Tab.get [] (s.bench c.stack c.bench).rx f.sub.toNat).length ≤ 6)
      ∧ (∀ (g : List Byte), g ∈ Tab.get [] (s.bench c.stack c.bench).rx f.sub.toNat → g.length = 256) ∧ (mOk
      45 f = true)) ∧
    (∃ (s : State) (c : CtxId) (f : MForm) (i : Instr) (op : Nat), (f.sub.toNat < 4) ∧ ((i, op) ∈
      [(Instr.lsendd c f, 44), (Instr.lrecvd c f, 45)]) ∧ (Runs s c) ∧ (mOk op f = true) ∧ (s.linkOpen c.stack
      c.bench f.sub.toNat = false)) ∧
    (∃ (s : State) (c : CtxId) (f : MForm) (i : Instr) (op : Nat), (f.sub.toNat < 4) ∧ ((i, op) ∈
      [(Instr.lsendd c f, 44), (Instr.lrecvd c f, 45)]) ∧ (Runs s c) ∧ (mOk op f = true) ∧ (BitVec.toNat
      ((s.ctx c).sreg f.sc.toNat) % 256 ≠ 0)) ∧
    (∃ (s : State) (c : CtxId) (f : MForm) (d : Nat) (g : List Byte) (rest : List (List Byte)) (bad : Bool),
      (f.sub.toNat < 4) ∧ (c.stack < 8) ∧ (c.bench < 336) ∧ (neighbour c.bench f.sub.toNat = some d) ∧
      (Tab.get [] (s.bench c.stack d).flight (opposite f.sub.toNat) = g :: rest) ∧ (Tab.get 0 (s.bench c.stack
      c.bench).rxOwner f.sub.toNat = 0) ∧ (Tab.get [] (s.bench c.stack c.bench).rxQueue f.sub.toNat = [])) ∧
    (∃ (s : State) (c : CtxId) (f : MForm), (f.sub.toNat < 4) ∧ (c.stack < 8) ∧ (c.bench < 336) ∧ (0 < Tab.get
      0 (s.bench c.stack c.bench).creditBack f.sub.toNat) ∧ (Tab.get 0 (s.bench c.stack c.bench).txOwner
      f.sub.toNat = 0) ∧ (Tab.get [] (s.bench c.stack c.bench).txQueue f.sub.toNat = [])) ∧
    (∃ (s : State) (c : CtxId) (f : MForm) (d : Nat) (g : List Byte) (rest : List (List Byte)) (v : Nat),
      (f.sub.toNat < 4) ∧ (c.wf = true) ∧ (s.linkOpen c.stack c.bench f.sub.toNat = true) ∧ (neighbour c.bench
      f.sub.toNat = some d) ∧ (Tab.get [] (s.bench c.stack d).flight (opposite f.sub.toNat) = g :: rest) ∧
      (g.length = 256) ∧ (Tab.get [] (s.bench c.stack c.bench).rx f.sub.toNat = []) ∧ (HasTurn c (Tab.get 0
      (s.bench c.stack c.bench).rxOwner f.sub.toNat) (Tab.get [] (s.bench c.stack c.bench).rxQueue
      f.sub.toNat)) ∧ ((s.ctx c).waits = [Wait.recvV f.sub.toNat v])) ∧
    (∃ (s : State) (c : CtxId) (f : MForm) (d : Nat) (g : List Byte) (rest : List (List Byte)) (a : Nat) (left
      : Nat), (f.sub.toNat < 4) ∧ (c.wf = true) ∧ (s.linkOpen c.stack c.bench f.sub.toNat = true) ∧ (neighbour
      c.bench f.sub.toNat = some d) ∧ (Tab.get [] (s.bench c.stack d).flight (opposite f.sub.toNat) = g ::
      rest) ∧ (g.length = 256) ∧ (Tab.get [] (s.bench c.stack c.bench).rx f.sub.toNat = []) ∧ (HasTurn c
      (Tab.get 0 (s.bench c.stack c.bench).rxOwner f.sub.toNat) (Tab.get [] (s.bench c.stack c.bench).rxQueue
      f.sub.toNat)) ∧ ((s.ctx c).waits = [Wait.recvD f.sub.toNat a left]) ∧ (InDrawer a 64 left) ∧ (left % 256
      = 0)) ∧
    (∃ (s : State) (c : CtxId) (f : MForm) (d : Nat) (g : List Byte) (rest : List (List Byte)) (w : Wait),
      (f.sub.toNat < 4) ∧ (c.wf = true) ∧ (s.linkOpen c.stack c.bench f.sub.toNat = true) ∧ (neighbour c.bench
      f.sub.toNat = some d) ∧ (Tab.get [] (s.bench c.stack d).flight (opposite f.sub.toNat) = g :: rest) ∧
      (g.length = 256) ∧ (Tab.get [] (s.bench c.stack c.bench).rx f.sub.toNat = []) ∧ (HasTurn c (Tab.get 0
      (s.bench c.stack c.bench).rxOwner f.sub.toNat) (Tab.get [] (s.bench c.stack c.bench).rxQueue
      f.sub.toNat)) ∧ ((s.ctx c).waits = [w]) ∧ (recvWait f.sub.toNat w = true) ∧ (stoppable (s.ctx c).st =
      true)) ∧
    (∃ (s : State) (c : CtxId) (f : MForm) (g : List Byte) (w : List Wait), (f.sub.toNat < 4) ∧ (c.wf = true)
      ∧ (s.linkOpen c.stack c.bench f.sub.toNat = true) ∧ (0 < Tab.get 0 (s.bench c.stack c.bench).creditBack
      f.sub.toNat) ∧ (Tab.get 0 (s.bench c.stack c.bench).used f.sub.toNat = 6) ∧ (HasTurn c (Tab.get 0
      (s.bench c.stack c.bench).txOwner f.sub.toNat) (Tab.get [] (s.bench c.stack c.bench).txQueue
      f.sub.toNat)) ∧ ((s.ctx c).waits = [Wait.send f.sub.toNat [g]] ∧ w = [] ∨ ∃ a left, (s.ctx c).waits =
      [Wait.sendD f.sub.toNat a left] ∧ InDrawer a 64 left ∧ left % 256 = 0 ∧ DrawerClean s c a 256 ∧ g =
      s.ctxBytes c a 256 ∧ w = if left = 256 then [] else [Wait.sendD f.sub.toNat (a + 256) (left - 256)])) := by
  and_intros
  · exact ⟨joined oneCtx, c0, mf 1 0 0 0 0 1 0, by delta Runs; decide +kernel⟩
  · exact ⟨joined oneCtx, c0, mf 1 0 0 0 0 3 0, by delta Runs; decide +kernel⟩
  · exact ⟨joined { oneCtx with rx := [(1, [grain, grain])] }, c0, mf 63 0 0 0 0 1 0, grain, [grain],
    by delta Runs; decide +kernel⟩
  · exact ⟨joined oneCtx, c0, mf 1 0 0 0 0 3 0, by delta Runs; decide +kernel⟩
  · exact ⟨joined { oneCtx with used := [(1, 4)] }, c0, mf 0 0 1 6 0 1 0,
          by delta Runs DrawerClean InDrawer; decide +kernel⟩
  · exact ⟨joined { oneCtx with rx := [(1, [grain, grain])] }, c0, mf 0 0 1 6 0 1 0,
          by delta Runs InDrawer; decide +kernel⟩
  · exact ⟨joined oneCtx, c0, mf 0 0 1 4 0 3 0, .lsendd c0 (mf 0 0 1 4 0 3 0), 44,
          by delta Runs; decide +kernel⟩
  · exact ⟨joined oneCtx, c0, mf 0 0 1 2 0 1 0, .lrecvd c0 (mf 0 0 1 2 0 1 0), 45,
          by delta Runs; decide +kernel⟩
  · exact ⟨(joined oneCtx).modBench 0 1 (fun x => { x with flight := [(3, [grain])] }), c0, mf 0 0 0 0 0 1 0, 1, grain,
    [],


      by decide +kernel⟩
  · exact ⟨joined { oneCtx with used := [(1, 6)], creditBack := [(1, 1)] }, c0, mf 0 0 0 0 0 1 0, by decide +kernel⟩
  · exact ⟨onLink [.recvV 1 5] (fun x => { x with rxQueue := [(1, [0])] }), c0, mf 0 0 0 0 0 1 0, 1, grain,
          [], 5, by delta HasTurn; decide +kernel⟩
  · exact ⟨onLink [.recvD 1 0x40 512] (fun x => { x with rxOwner := [(1, 1)] }), c0, mf 0 0 0 0 0 1 0, 1,
          grain, [], 0x40, 512, by delta HasTurn InDrawer; decide +kernel⟩
  · exact ⟨onLink [.recvV 1 5] (fun x => { x with rxQueue := [(1, [0])] }), c0, mf 0 0 0 0 0 1 0, 1, grain,
          [], .recvV 1 5, by delta HasTurn; decide +kernel⟩
  · exact ⟨onLink [.send 1 [grain]] (fun x =>
          { x with txQueue := [(1, [0])], used := [(1, 6)], creditBack := [(1, 1)] }), c0, mf 0 0 0 0 0 1 0,
          grain, [], by exact ⟨by decide +kernel, by decide +kernel, by decide +kernel, by decide +kernel,
          by decide +kernel, by delta HasTurn; decide +kernel, .inl ⟨rfl, rfl⟩⟩⟩

/-- States and operands that meet the hypotheses of each clause of StartUpReachesReady. -/
theorem meets_StartUpReachesReady :
    (∃ (s : State), (s.inStep 5 = true)) ∧
    (∃ (s : State) (a : Bool) (b : Bool) (u : UnitId), (s.inStep 5 = true) ∧ ((a || b) = true) ∧
      (s.boot.katFailed = [u]) ∧ (u.kind = kindBench) ∧ (u.stack < 8) ∧ (u.index < 352) ∧ (s.ready = false) ∧
      ((s.useCopy a).namesIt (unitEntry u causeKat s.boot.startCount) = false) ∧ ((if a = true then
      s.boot.defects else s.boot.secondCopy).length + s.boot.unwritten.length < 4096) ∧ (∀ (n : Nat),
      s.stackPresent n = true → (s.useCopy a).stackBroken n = false)) ∧
    (∃ (s : State) (results : List TierResult) (l : List Word), (s.inStep 6 = true) ∧ (∀ (r : TierResult), r ∈
      results → r.badRows = [] ∧ r.accFailed = []) ∧ (∀ (n : Nat), s.stackUp n = true → s.stackBroken n =
      false ∧ ∃ r, r ∈ results ∧ r.stack = n ∧ r.trained = true) ∧ ((∀ (e : Word), e ∈ s.boot.defects →
      entryKind e ≠ 8 ∨ BitVec.getLsbD e 19 = true) ∧ l = s.boot.defects ∨ ∃ e, s.boot.defects = [e] ∧
      entryKind e = 8 ∧ BitVec.getLsbD e 19 = false ∧ s.stackUp (entryRow e).stack = true ∧ l = [e |||
      524288])) ∧
    (∃ (s : State) (dest : BitVec 7) (rack : Byte), (s.i3cRefuses dest = false) ∧ (BitVec.toNat rack ≤ 63) ∧
      (s.rackValid = false)) ∧
    (∃ (s : State) (dest : BitVec 7) (rack : Byte), (s.i3cRefuses dest = false) ∧ (63 < BitVec.toNat rack ∨
      s.rackValid = true ∧ s.fld Reg.CAP_POSITION CAP_POSITION_RACK ≠ BitVec.toNat rack)) ∧
    (∃ (s : State) (budget : Bool), (s.inStep 7 = true) ∧ (s.startCause = 0) ∧ (budget = true ∧
      s.boot.portsFrom + 3000 * 75200000 ≤ s.now ∨ ∀ (p : Nat), p < 36 → s.portSettled p = true)) ∧
    (∃ (s : State), (s.inStep 9 = true) ∧ (s.isLocked = true) ∧ (∀ (p : Nat), p < 36 → s.portState p = 6 ∨
      s.portFld p PORT_STATUS_REASON ≠ 0)) ∧
    (∃ (s : State), (s.isLocked = false ∨ ∃ p, p < 36 ∧ s.portState p ≠ 6 ∧ s.portFld p PORT_STATUS_REASON =
      0)) := by
  and_intros
  · exact ⟨inStep 5 0 State.reset, by decide +kernel⟩
  · exact ⟨{ inStep 5 0 State.reset with boot := { (inStep 5 0 State.reset).boot with katFailed := [⟨kindBench, 0, 351⟩] } },
          false, true, ⟨kindBench, 0, 351⟩, by
      and_intros <;> first | decide +kernel | exact below8 (by decide +kernel)⟩
  · exact ⟨inStep 6 0 State.reset, (List.range 8).map (fun n => ⟨n, true, [], []⟩), [],
    ⟨by decide +kernel, by decide +kernel, below8Up (by decide +kernel),
      Or.inl ⟨fun e he => absurd (show e ∈ ([] : List Word) from he) List.not_mem_nil, rfl⟩⟩⟩
  · exact ⟨(inStep 9 0 powered).setBit .BEAT_STATUS BEAT_STATUS_LOCKED true, by decide +kernel⟩
  · exact ⟨(inStep 9 0 powered).setBit .BEAT_STATUS BEAT_STATUS_LOCKED true, by decide +kernel⟩
  · exact ⟨{ inStep 7 0 powered with now := 3000 * 75200000 }, true, by exact ⟨by decide +kernel,
          by decide +kernel, .inl ⟨rfl, by decide +kernel⟩⟩⟩
  · exact ⟨(List.range 36).foldl (fun t p => t.setFld (.PORT_STATUS p) PORT_STATUS_REASON 1) ((inStep 9 0
          powered).setBit .BEAT_STATUS BEAT_STATUS_LOCKED true), by decide +kernel⟩
  · exact ⟨inStep 5 0 State.reset, by decide +kernel⟩

/-- States and operands that meet the hypotheses of each clause of StartUpReachesTheMerge. -/
theorem meets_StartUpReachesTheMerge :
    (∃ (s : State) (volts : Nat) (ms : Nat) (tray : BitVec 5) (slot : BitVec 3), (s.boot.powered = false) ∧
      (s.boot.epoHigh = true) ∧ (s.boot.tripped = false) ∧ (4000 < volts) ∧ (10 ≤ ms)) ∧
    (∃ (s : State) (keys : Bool) (desc : Bool) (fw : Bool) (digest : List Byte), (s.inStep 2 = true) ∧
      (s.boot.bar0 = false)) ∧
    (∃ (s : State) (keys : Bool) (desc : Bool) (fw : Bool) (digest : List Byte), (s.inStep 2 = true) ∧
      (s.boot.bar0 = true) ∧ (s.startCause = 0)) ∧
    (∃ (s : State) (who : Requester) (v : Word), (s.permit who Reg.CAP_RECOVERY = Admit.ok) ∧ (getF v
      CAP_RECOVERY_GO = 1)) ∧
    (∃ (s : State) (size : Nat) (sig : Bool) (flash : Bool), (s.awaitsImage = true) ∧ (s.boot.recovering =
      true)) ∧
    (∃ (s : State), (s.inStep 3 = true)) ∧
    (∃ (s : State) (failed : List UnitId) (sw : Bool), (s.inStep 4 = true)) := by
  and_intros
  · exact ⟨State.reset, 4001, 10, 31, 7, by decide +kernel⟩
  · exact ⟨inStep 2 0 State.reset, true, false, true, [], by decide +kernel⟩
  · exact ⟨{ inStep 2 0 powered with boot := { (inStep 2 0 powered).boot with bar0 := true } }, true, false,
          true, [], by decide +kernel⟩
  · exact ⟨{ (inStep 2 3 live) with pending := [] }, .bar0, setF (setF 0 CAP_RECOVERY_GO 1) CAP_RECOVERY_ADDR 5,
    by decide +kernel⟩
  · exact ⟨{ inStep 2 3 live with boot := { (inStep 2 3 live).boot with recovering := true } }, 4096, true, false,
    by decide +kernel⟩
  · exact ⟨inStep 3 0 State.reset, by decide +kernel⟩
  · exact ⟨inStep 4 0 State.reset, [⟨kindBench, 0, 351⟩], false, by decide +kernel⟩

/-- States and operands that meet the hypotheses of each clause of StepKeepsMemoriesCanonical. -/
theorem meets_StepKeepsMemoriesCanonical :
    ∃ (s : State) (t : State), (s.memWf) ∧ (step s = Host.Outcome.next t) :=
  ⟨{ State.reset with hostMem := [(5, 1)], pending := [.powerGood 4400 10 0x15 2] }, _,
    by exact ⟨⟨by decide, fun _ => rfl⟩, rfl⟩⟩

/-- States and operands that meet the hypotheses of each clause of StepRunsFrontCommand. -/
theorem meets_StepRunsFrontCommand :
    ∃ (s : State), (s.pending = []) :=
  ⟨live, by decide +kernel⟩

/-- States and operands that meet the hypotheses of each clause of SwitchForwardsAndCharges. -/
theorem meets_SwitchForwardsAndCharges :
    (∃ (s : State) (port : Nat) (p : Packet) (rest : List Packet), (Tab.get [] s.sw.arrived port = p :: rest)
      ∧ (s.ingressRoom port p = true) ∧ (p.cls.toNat ≤ 3) ∧ (p.cls ≠ 2) ∧ (knownOp p.op = true) ∧ (p.op ≠ 32)
      ∧ (¬p.dst ∈ s.sw.fences) ∧ (s.fld Reg.SWC_ROUTE_CFG SWC_ROUTE_CFG_MODE = 0) ∧ (nodeRack p.dst = nodeRack
      s.baseNode) ∧ (jzb2 p.dst = false) ∧ (port < 36 → isViaduct s.variant port = false → p.vc = 2 ∧ p.gw =
      BitVec.ofNat 6 (nodeIndex p.dst)) ∧ (nodeIndex p.dst = s.index) ∧ (s.stackPresent (p.dst.toNat % 8) =
      true) ∧ (s.stackFailed (p.dst.toNat % 8) = false) ∧ (s.bound (p.dst.toNat % 8) = true)) ∧
    (∃ (s : State) (port : Nat) (p : Packet) (rest : List Packet) (q : Nat), (Tab.get [] s.sw.arrived port = p
      :: rest) ∧ (s.ingressRoom port p = true) ∧ (p.cls.toNat ≤ 3) ∧ (p.cls ≠ 2) ∧ (knownOp p.op = true) ∧
      (p.op ≠ 32) ∧ (¬p.dst ∈ s.sw.fences) ∧ (s.fld Reg.SWC_ROUTE_CFG SWC_ROUTE_CFG_MODE = 0) ∧ (nodeRack
      p.dst = nodeRack s.baseNode) ∧ (jzb2 p.dst = false) ∧ (port < 36 → isViaduct s.variant port = false →
      p.vc = 2 ∧ p.gw = BitVec.ofNat 6 (nodeIndex p.dst)) ∧ (nodeIndex p.dst ≠ s.index) ∧
      (({ p with vc := 2, hops := if port < 36 then p.hops + 1 else p.hops, gw := BitVec.ofNat 6 (nodeIndex p.dst) }
      : Packet).hops.toNat < 8) ∧ (s.sw.lightest (queueIndex p.cls 2) (List.filter (s.linkTakes
      ({ p with vc := 2, hops := if port < 36 then p.hops + 1 else p.hops, gw := BitVec.ofNat 6 (nodeIndex p.dst) }
      : Packet)) (s.hopPorts (nodeIndex p.dst))) = some q)) ∧
    (∃ (s : State) (port : Nat) (p : Packet) (rest : List Packet), (Tab.get [] s.sw.arrived port = p :: rest)
      ∧ (s.ingressRoom port p = true) ∧ (p.cls.toNat ≤ 3) ∧ (p.cls ≠ 2) ∧ (knownOp p.op = true) ∧ (p.op ≠ 32)
      ∧ (¬p.dst ∈ s.sw.fences) ∧ (s.fld Reg.SWC_ROUTE_CFG SWC_ROUTE_CFG_MODE = 0) ∧ (nodeRack p.dst ≠ nodeRack
      s.baseNode) ∧ (jzb2 p.dst = false) ∧ (36 ≤ port) ∧ (port ≠ 81) ∧ (p.cls = 0) ∧ (s.gateway (queueIndex
      p.cls 0) (nodeRack p.dst) = none)) ∧
    (∃ (s : State) (port : Nat) (p : Packet) (rest : List Packet) (x : Packet) (g : Nat) (o : Nat) (q : Nat),
      (Tab.get [] s.sw.arrived port = p :: rest) ∧ (s.ingressRoom port p = true) ∧ (p.cls.toNat ≤ 3) ∧ (p.cls
      ≠ 2) ∧ (knownOp p.op = true) ∧ (p.op ≠ 32) ∧ (¬p.dst ∈ s.sw.fences) ∧ (s.fld Reg.SWC_ROUTE_CFG
      SWC_ROUTE_CFG_MODE = 0) ∧ (nodeRack p.dst ≠ nodeRack s.baseNode) ∧ (jzb2 p.dst = false) ∧ (36 ≤ port ∧
      p.nonmin = false ∧ s.gateway (queueIndex p.cls 0) (nodeRack p.dst) = some (g, o) ∧ x =
      { dst := p.dst, src := p.src, cls := p.cls, vc := 0, colour := p.colour, mark := p.mark, tenant := p.tenant, poison := p.poison, via := p.via, nonmin := p.nonmin, hops := p.hops, gw := BitVec.ofNat 6 g, op := p.op, param := p.param, offset := p.offset, seq := p.seq, payload := p.payload }
      ∨ port < 36 ∧ isViaduct s.variant port = false ∧ p.vc ≠ 2 ∧ g = p.gw.toNat ∧ x =
      { dst := p.dst, src := p.src, cls := p.cls, vc := p.vc, colour := p.colour, mark := p.mark, tenant := p.tenant, poison := p.poison, via := p.via, nonmin := p.nonmin, hops := p.hops + 1, gw := p.gw, op := p.op, param := p.param, offset := p.offset, seq := p.seq, payload := p.payload }
      ∨ port < 36 ∧ isViaduct s.variant port = true ∧ p.nonmin = true ∧ p.via.toNat = nodeRack s.baseNode ∧
      s.gateway (queueIndex p.cls 1) (nodeRack p.dst) = some (g, o) ∧ x =
      { dst := p.dst, src := p.src, cls := p.cls, vc := 1, colour := p.colour, mark := p.mark, tenant := p.tenant, poison := p.poison, via := p.via, nonmin := p.nonmin, hops := p.hops + 1, gw := BitVec.ofNat 6 g, op := p.op, param := p.param, offset := p.offset, seq := p.seq, payload := p.payload })
      ∧ (x.hops.toNat < 8) ∧ (s.sw.lightest (pktQueue x) (List.filter (s.linkTakes x) (if g = s.index then
      s.viaPorts (if x.vc = 0 ∧ p.nonmin = true then p.via.toNat else nodeRack p.dst) else s.hopPorts g)) =
      some q)) ∧
    (∃ (s : State) (port : Nat) (p : Packet) (rest : List Packet) (x : Packet) (g : Nat) (o : Nat), (Tab.get
      [] s.sw.arrived port = p :: rest) ∧ (s.ingressRoom port p = true) ∧ (p.cls.toNat ≤ 3) ∧ (p.cls ≠ 2) ∧
      (knownOp p.op = true) ∧ (p.op ≠ 32) ∧ (¬p.dst ∈ s.sw.fences) ∧ (s.fld Reg.SWC_ROUTE_CFG
      SWC_ROUTE_CFG_MODE = 0) ∧ (nodeRack p.dst ≠ nodeRack s.baseNode) ∧ (jzb2 p.dst = false) ∧ (36 ≤ port ∧
      p.nonmin = false ∧ s.gateway (queueIndex p.cls 0) (nodeRack p.dst) = some (g, o) ∧ x =
      { dst := p.dst, src := p.src, cls := p.cls, vc := 0, colour := p.colour, mark := p.mark, tenant := p.tenant, poison := p.poison, via := p.via, nonmin := p.nonmin, hops := p.hops, gw := BitVec.ofNat 6 g, op := p.op, param := p.param, offset := p.offset, seq := p.seq, payload := p.payload }
      ∨ port < 36 ∧ isViaduct s.variant port = false ∧ p.vc ≠ 2 ∧ g = p.gw.toNat ∧ x =
      { dst := p.dst, src := p.src, cls := p.cls, vc := p.vc, colour := p.colour, mark := p.mark, tenant := p.tenant, poison := p.poison, via := p.via, nonmin := p.nonmin, hops := p.hops + 1, gw := p.gw, op := p.op, param := p.param, offset := p.offset, seq := p.seq, payload := p.payload }
      ∨ port < 36 ∧ isViaduct s.variant port = true ∧ p.nonmin = true ∧ p.via.toNat = nodeRack s.baseNode ∧
      s.gateway (queueIndex p.cls 1) (nodeRack p.dst) = some (g, o) ∧ x =
      { dst := p.dst, src := p.src, cls := p.cls, vc := 1, colour := p.colour, mark := p.mark, tenant := p.tenant, poison := p.poison, via := p.via, nonmin := p.nonmin, hops := p.hops + 1, gw := BitVec.ofNat 6 g, op := p.op, param := p.param, offset := p.offset, seq := p.seq, payload := p.payload })
      ∧ (port < 36) ∧ (p.cls = 0) ∧ ((if g = s.index then s.viaPorts (if x.vc = 0 ∧ p.nonmin = true then
      p.via.toNat else nodeRack p.dst) else s.hopPorts g) = [])) ∧
    (∃ (s : State) (port : Nat) (p : Packet) (rest : List Packet) (queue : Nat) (rack : Nat) (g : Nat) (o :
      Nat), (s.gateway queue rack = some (g, o)) ∧ (s.viaPorts rack ≠ [])) ∧
    (∃ (s : State) (port : Nat) (p : Packet) (rest : List Packet) (queue : Nat) (rack : Nat) (g : Nat) (o :
      Nat), (s.gateway queue rack = some (g, o)) ∧ (s.viaPorts rack = [])) ∧
    (∃ (s : State) (port : Nat) (p : Packet) (rest : List Packet) (queue : Nat) (rack : Nat) (g : Nat) (o :
      Nat) (i : Nat) (q : Nat), (s.gateway queue rack = some (g, o)) ∧ (s.viaPorts rack = []) ∧ (i < 64 ∧ i ≠
      s.index ∧ bitOf (s.fld (Reg.SWC_RACK_ROUTE_GW rack) SWC_RACK_ROUTE_GW_GW) i = true) ∧ (q ∈ s.hopPorts
      i)) ∧
    (∃ (s : State) (port : Nat) (p : Packet) (rest : List Packet) (q : Nat) (e : Nat) (ws : List Waiting),
      (s.sw.ingressQ port q = { egress := e, pkt := p } :: ws) ∧ (s.canCharge e (pktQueue p) (s.sw.newCells p)
      = true) ∧ (64 ≤ e → s.mergeable (e - 64) p = false) ∧ (s.fate e p = Fate.keep)) ∧
    (∃ (s : State) (port : Nat) (p : Packet) (rest : List Packet) (q : Nat) (e : Nat) (ws : List Waiting),
      (s.sw.ingressQ port q = { egress := e, pkt := p } :: ws) ∧ (s.canCharge e (pktQueue p) (s.sw.newCells p)
      = true) ∧ (64 ≤ e → s.mergeable (e - 64) p = false) ∧ (s.fate e p = Fate.mark)) ∧
    (∃ (s : State) (port : Nat) (p : Packet) (rest : List Packet) (q : Nat) (e : Nat) (ws : List Waiting),
      (s.sw.ingressQ port q = { egress := e, pkt := p } :: ws) ∧ (s.canCharge e (pktQueue p) (s.sw.newCells p)
      = true) ∧ (64 ≤ e → s.mergeable (e - 64) p = false) ∧ (s.fate e p = Fate.drop)) ∧
    (∃ (s : State) (port : Nat) (p : Packet) (rest : List Packet) (q : Nat) (n : Nat) (ws : List Waiting) (m :
      Merge), (s.sw.ingressQ port q = { egress := 64 + n, pkt := p } :: ws) ∧ (n < 8) ∧ (s.canCharge (64 + n)
      (pktQueue p) (s.sw.newCells p) = true) ∧ (s.fate (64 + n) p = Fate.keep) ∧ (s.mergeable n p = true) ∧
      (s.sw.merges = [m]) ∧ (m.takes (64 + n) p = true)) := by
  and_intros
  · exact ⟨sw (fun w => { w with arrived := [(65, [pkt 2 0 0 []])] }) open0, 65, pkt 2 0 0 [], [],
      by decide +kernel⟩
  · exact ⟨sw (fun w => { w with arrived := [(65, [{ pkt 2 0 0 [] with dst := 0x4B58 }])] }) (up [0, 1, 2,
          3, 4, 5, 6] open0), 65, { pkt 2 0 0 [] with dst := 0x4B58 }, [], 2, by decide +kernel⟩
  · exact ⟨sw (fun w => { w with arrived := [(65, [far2])] }) open0, 65, far2, [], by decide +kernel⟩
  · exact ⟨sw (fun w => { w with arrived := [(65, [far2])] }) (across [10] 1 0), 65, far2, [],
          { far2 with gw := 42 }, 42, 0, 10, by decide +kernel⟩
  · exact ⟨sw (fun w => { w with arrived := [(0, [{ far2 with gw := 43 }])] }) open0, 0,
          { far2 with gw := 43 }, [], { far2 with gw := 43, hops := 1 }, 43, 0, by decide +kernel⟩
  · exact ⟨across [10] 1 0, 0, far2, [], 0, 12, 42, 0, by decide +kernel⟩
  · exact ⟨across [2] 0 (2 ^ 43), 0, far2, [], 0, 12, 43, 0, by decide +kernel⟩
  · exact ⟨across [2] 0 (2 ^ 43), 0, far2, [], 0, 12, 43, 0, 43, 2, by decide +kernel⟩
  · exact ⟨sw (fun w => { w with ingress := [(16 * 0 + 2, [⟨64, pkt 1 0 0 []⟩])] }) open0, 0, pkt 1 0 0 [], [], 2, 64,
    [],
      by decide +kernel⟩
  · exact ⟨(sw (fun w => { w with ingress := [(16 * 65 + 2, [⟨0, pkt 1 0 0 []⟩])] }) open0).setFld (.PORT_RED 0 0) PORT_RED_MIN 0,
    65, pkt 1 0 0 [], [], 2, 0, [],
      by decide +kernel⟩
  · exact ⟨(sw (fun w => { w with ingress := [(16 * 65 + 2, [⟨0, { pkt 1 0 0 [] with colour := 2 }⟩])] }) open0).setFld (.PORT_RED 0 2) PORT_RED_MAX 0,
    65, { pkt 1 0 0 [] with colour := 2 }, [], 2, 0, [],
      by decide +kernel⟩
  · exact ⟨sw (fun w =>
          { w with ingress := [(16 * 0 + 2, [⟨64, pkt 2 0 0 (grain.take 8)⟩])], merges := [⟨64, [{ pkt 2 0 0 (grain.take 8) with seq := 8 }]⟩] })
          open0, 0, pkt 2 0 0 (grain.take 8), [], 2, 0, [], ⟨64,
          [{ pkt 2 0 0 (grain.take 8) with seq := 8 }]⟩,
      by decide +kernel⟩

/-- States and operands that meet the hypotheses of each clause of SwitchTablesAreKept. -/
theorem meets_SwitchTablesAreKept :
    (∃ (s : State) (node : BitVec 16) (m : SpanEntrySet) (inPort : Nat) (label : Nat), (s.fmNode ≠ 65535) ∧
      (s.entryResult m = 0)) ∧
    (∃ (s : State) (node : BitVec 16) (m : SpanEntrySet) (inPort : Nat) (label : Nat), (s.fmNode ≠ 65535) ∧
      (s.entryResult m ≠ 0)) ∧
    (∃ (s : State) (node : BitVec 16) (m : SpanEntrySet) (inPort : Nat) (label : Nat) (e : SpanEntry),
      (s.fmNode ≠ 65535) ∧ (s.sw.entry inPort label = some e)) ∧
    (∃ (s : State) (node : BitVec 16) (m : SpanEntrySet) (inPort : Nat) (label : Nat), (s.fmNode ≠ 65535) ∧
      (¬node ∈ s.sw.fences) ∧ (s.sw.fences.length < 256) ∧ (s.sw.trestles = [])) ∧
    (∃ (s : State) (node : BitVec 16) (m : SpanEntrySet) (inPort : Nat) (label : Nat), (s.fmNode ≠ 65535) ∧
      (node ∈ s.sw.fences)) ∧
    (∃ (s : State) (src : BitVec 16) (node : BitVec 16) (m : SpanEntrySet) (inPort : Nat) (label : Nat) (c :
      Instr), (src ≠ s.fmNode) ∧ (c = Instr.spanEntrySet src m ∨ c = Instr.spanEntryClear src inPort label ∨ c
      = Instr.fenceSet src node ∨ c = Instr.fenceClear src node)) ∧
    (∃ (s : State) (src : BitVec 16) (node : BitVec 16) (m : SpanEntrySet) (inPort : Nat) (label : Nat) (f :
      Frame) (e : SpanEntry), (s.sw.headFrame (100 + inPort) f = true) ∧ (s.sw.trestleLabel inPort
      f.label.toNat = false) ∧ (s.sw.entry inPort f.label.toNat = some e) ∧ (s.portShut e.outPort = false) ∧
      (64 ≤ e.outPort → s.stackFenced (e.outPort - 64) = false ∧ s.bound (e.outPort - 64) = true) ∧ (e.outPort
      < 100) ∧ (s.relayRoom inPort f = (s, true)) ∧ (e.outPort < 36 ∨ s.tailPort (Sum.inr f) = none) ∧ (64 ≤
      inPort → (s.stack (inPort - 64)).upWait = [])) := by
  and_intros
  · exact ⟨open0, 2, ⟨65, 4, 64, 6, 1, 16, 0x4B51, 3⟩, 0, 0, by decide +kernel⟩
  · exact ⟨open0, 2, ⟨65, 4, 64, 6, 57, 16, 0x4B51, 3⟩, 0, 0, by decide +kernel⟩
  · exact ⟨arrived data6, 2, ⟨65, 4, 64, 6, 1, 16, 0x4B51, 3⟩, 65, 4, lastHop, by decide +kernel⟩
  · exact ⟨open0, 2, ⟨65, 4, 64, 6, 1, 16, 0x4B51, 3⟩, 65, 4, by decide +kernel⟩
  · exact ⟨sw (fun w => { w with fences := [2, 7] }) open0, 2, ⟨65, 4, 64, 6, 1, 16, 0x4B51, 3⟩, 65, 4,
    by decide +kernel⟩
  · exact ⟨open0, 0x101, 2, ⟨65, 4, 64, 6, 1, 16, 0x4B51, 3⟩, 65, 4, .fenceSet 0x101 2, by decide +kernel⟩
  · exact ⟨sw (fun w => { w with frames := [(165, [{ data6 with label := 4 }])], spanTab := [lastHop] }) open0, 0, 2,
    ⟨65, 4, 64, 6, 1, 16, 0x4B51, 3⟩, 65, 4, { data6 with label := 4 }, lastHop,

      by decide +kernel⟩

/-- States and operands that meet the hypotheses of each clause of TargetAppliesRequests. -/
theorem meets_TargetAppliesRequests :
    (∃ (s : State) (n : Nat) (p : Packet) (a : Nat), (ReachesDrawers s n p a) ∧ (p.op = 1)) ∧
    (∃ (s : State) (n : Nat) (p : Packet) (a : Nat) (c : Instr), (ReachesDrawers s n p a) ∧ (p.op = 2 ∧ c =
      Instr.store n p ∨ p.op = 3 ∧ c = Instr.routedKeystone n p)) ∧
    (∃ (s : State) (n : Nat) (p : Packet) (a : Nat), (ReachesDrawers s n p a) ∧ (p.op = 4) ∧ (a %
      pktAtomicBytes p = 0)) ∧
    (∃ (s : State) (n : Nat) (p : Packet) (a : Nat), (ReachesDrawers s n p a) ∧ (p.op = 5) ∧ (a % max 1
      (fmtWidth (bitsOf p.param.toNat 5 2) / 8) = 0) ∧ (p.payload.length % max 1 (fmtWidth (bitsOf
      p.param.toNat 5 2) / 8) = 0)) ∧
    (∃ (s : State) (n : Nat) (p : Packet) (far : Bool) (o : Nat), (Reaches s n p far o) ∧ (p.op = 1)) ∧
    (∃ (s : State) (n : Nat) (p : Packet) (far : Bool) (o : Nat), (Reaches s n p far o) ∧ (p.op = 2)) ∧
    (∃ (s : State) (n : Nat) (p : Packet) (far : Bool) (o : Nat), (Reaches s n p far o) ∧ (p.op = 3)) ∧
    (∃ (s : State) (n : Nat) (p : Packet) (far : Bool) (o : Nat), (Reaches s n p far o) ∧ (p.op = 4) ∧ (o %
      pktAtomicBytes p = 0)) ∧
    (∃ (s : State) (n : Nat) (p : Packet) (far : Bool) (o : Nat), (Reaches s n p far o) ∧ (p.op = 5) ∧ (o %
      max 1 (fmtWidth (bitsOf p.param.toNat 5 2) / 8) = 0) ∧ (p.payload.length % max 1 (fmtWidth (bitsOf
      p.param.toNat 5 2) / 8) = 0)) ∧
    (∃ (s : State) (n : Nat) (p : Packet) (far : Bool) (o : Nat) (line : Nat), (Reaches s n p far o) ∧ (p.op =
      2) ∧ (p.hops.toNat ≤ 8) ∧ ((pktLines p).head? = some line) ∧ (s.lineWaiters n line = [p])) := by
  and_intros
  · exact ⟨open0, 0, pkt 1 255 0x020000000100 [], 0x100,
          by delta ReachesDrawers StandsAlone PortFree; decide +kernel⟩
  · exact ⟨open0, 0, pkt 2 0 0x020000000101 [1, 2, 3], 0x101, .store 0 (pkt 2 0 0x020000000101 [1, 2, 3]),
          by exact ⟨by delta ReachesDrawers StandsAlone PortFree; decide +kernel, .inl ⟨rfl, rfl⟩⟩⟩
  · exact ⟨open0, 0, pkt 4 0x41 0x020000000108 (leBytes 8 5 ++ leBytes 8 0), 0x108,
          by delta ReachesDrawers StandsAlone PortFree; decide +kernel⟩
  · exact ⟨open0, 0, pkt 5 (4 * 4) 0x020000000100 (leBytes 4 0x3F800000), 0x100,
          by delta ReachesDrawers StandsAlone PortFree; decide +kernel⟩
  · exact ⟨open0, 0, pkt 1 255 0x100 [], false, 0x100, by delta Reaches StandsAlone PortFree; decide +kernel⟩
  · exact ⟨open0, 0, pkt 2 0 0x1FFFF [1, 2, 3], false, 0x1FFFF,
      by delta Reaches StandsAlone PortFree; decide +kernel⟩
  · exact ⟨open0, 0, pkt 3 0 0x108 [1, 2, 3, 4, 5, 6, 7, 8], false, 0x108,
      by delta Reaches StandsAlone PortFree; decide +kernel⟩
  · exact ⟨open0, 0, pkt 4 0x41 0x108 (leBytes 8 5 ++ leBytes 8 0x100F0E0D0C0B0A09), false, 0x108,
      by delta Reaches StandsAlone PortFree; decide +kernel⟩
  · exact ⟨open0, 0, pkt 5 (4 * 4) 0x100 (leBytes 4 0x3F800000), false, 0x100,
      by delta Reaches StandsAlone PortFree; decide +kernel⟩
  · exact ⟨queued (pkt 2 0 0x108 [1, 2]), 0, pkt 2 0 0x108 [1, 2], false, 0x108, 2,
      by delta Reaches StandsAlone PortFree; decide +kernel⟩

/-- States and operands that meet the hypotheses of each clause of TransferDescriptorsAct. -/
theorem meets_TransferDescriptorsAct :
    (∃ (s : State) (h : Nat) (d : Desc), (s.desc? h = some d) ∧ (d.st = DescSt.started) ∧ (d.opcode = 14)) ∧
    (∃ (s : State) (h : Nat) (d : Desc), (s.desc? h = some d) ∧ (d.st = DescSt.started) ∧ (d.opcode = 5) ∧
      (d.bits 1 63 48 = 0)) ∧
    (∃ (s : State) (h : Nat) (d : Desc), (s.desc? h = some d) ∧ (d.st = DescSt.started) ∧ (d.opcode = 5) ∧
      (d.bits 1 63 48 ≠ 0)) ∧
    (∃ (s : State) (h : Nat) (d : Desc), (s.desc? h = some d) ∧ (d.st = DescSt.started) ∧ (d.opcode = 7)) ∧
    (∃ (s : State) (h : Nat) (d : Desc), (s.desc? h = some d) ∧ (d.st = DescSt.started) ∧ (d.opcode = 8)) ∧
    (∃ (s : State) (h : Nat) (d : Desc), (s.desc? h = some d) ∧ (d.st = DescSt.started) ∧ (d.opcode = 11)) ∧
    (∃ (s : State) (h : Nat) (d : Desc) (x : Seg), (s.desc? h = some d) ∧ (d.st = DescSt.started) ∧ (d.opcode
      = 6) ∧ (d.segsOf 1 = [x]) ∧ (x.len = 8) ∧ (OnePiece (storePiece x) x) ∧ (x.rights.getLsbD 1 = true) ∧
      (x.node ≠ 65535)) ∧
    (∃ (s : State) (h : Nat) (d : Desc), (s.desc? h = some d) ∧ (d.st = DescSt.started) ∧ (d.opcode = 2) ∧
      (d.flag 3 62 = true)) ∧
    (∃ (s : State) (h : Nat) (d : Desc) (x : Seg), (s.desc? h = some d) ∧ (d.st = DescSt.started) ∧ (d.opcode
      = 2) ∧ (d.flag 3 62 = false) ∧ (d.segsOf 1 = [x]) ∧ (x.len = d.bits 3 39 0) ∧ (OnePiece (storePiece x)
      x) ∧ (x.rights.getLsbD 1 = true) ∧ (x.node ≠ 65535)) ∧
    (∃ (s : State) (h : Nat) (d : Desc), (s.desc? h = some d) ∧ (d.st = DescSt.started) ∧ (d.opcode = 1) ∧
      (d.flag 3 63 = true) ∧ (d.flag 3 62 = true) ∧ (d.flag 3 61 = false) ∧ (0 < d.bits 3 39 0) ∧
      (d.copyOverlaps = false)) ∧
    (∃ (s : State) (h : Nat) (d : Desc) (x : Seg), (s.desc? h = some d) ∧ (d.st = DescSt.started) ∧ (d.opcode
      = 1) ∧ (d.flag 3 63 = false) ∧ (d.segsOf 1 = [x]) ∧ (x.len = d.bits 3 39 0) ∧ (OnePiece 256 x) ∧
      (x.rights.getLsbD 0 = true) ∧ (x.node ≠ 65535)) ∧
    (∃ (s : State) (h : Nat) (d : Desc), (s.desc? h = some d) ∧ (s.fires d = true) ∧ (d.opcode = 7)) ∧
    (∃ (s : State) (h : Nat) (d : Desc) (x : Seg), (s.desc? h = some d) ∧ (s.fires d = true) ∧ (d.opcode = 8)
      ∧ (d.segsOf 2 = [x]) ∧ (x.len = 8) ∧ (OnePiece (storePiece x) x) ∧ (x.rights.getLsbD 1 = true) ∧ (x.node
      ≠ 65535)) ∧
    (∃ (s : State) (h : Nat) (d : Desc) (x : Seg), (s.desc? h = some d) ∧ (s.fires d = true) ∧ (d.opcode = 11)
      ∧ (d.segsOf 2 = [x]) ∧ (x.len = d.bits 4 39 0) ∧ (OnePiece 256 x) ∧ (x.rights.getLsbD 0 = true) ∧
      (x.node ≠ 65535)) := by
  and_intros
  · exact ⟨given (desc 0x0E []), 1, desc 0x0E [], by decide +kernel⟩
  · exact ⟨given (desc 5 [0]), 1, desc 5 [0], by decide +kernel⟩
  · exact ⟨given (desc 5 [2 ^ 48]), 1, desc 5 [2 ^ 48], by decide +kernel⟩
  · exact ⟨given (desc 7 [32]), 1, desc 7 [32], by decide +kernel⟩
  · exact ⟨given (desc 8 [32, 8, 5]), 1, desc 8 [32, 8, 5], by decide +kernel⟩
  · exact ⟨given (desc 0x0B [32]), 1, desc 0x0B [32], by decide +kernel⟩
  · exact ⟨given { desc 6 [0x1000, 77] with segs := [seg 1 8] }, 1, { desc 6 [0x1000, 77] with segs := [seg 1 8] },
    seg 1 8, by delta OnePiece; decide +kernel⟩
  · exact ⟨given (desc 2 [0x1000, 0x55AA, 2 ^ 62 + 20]), 1, desc 2 [0x1000, 0x55AA, 2 ^ 62 + 20], by decide +kernel⟩
  · exact ⟨given { desc 2 [0x1000, 0x55AA, 20] with segs := [seg 1 20] }, 1,
    { desc 2 [0x1000, 0x55AA, 20] with segs := [seg 1 20] }, seg 1 20, by delta OnePiece; decide +kernel⟩
  · exact ⟨{ given (desc 1 [0x1000, 0x2000, 2 ^ 63 + 2 ^ 62 + 20]) with hostMem := Mem.writeBytes [] 0x1000 grain }, 1,
    desc 1 [0x1000, 0x2000, 2 ^ 63 + 2 ^ 62 + 20],


      by decide +kernel⟩
  · exact ⟨given { desc 1 [0x1000, 0x2000, 256] with segs := [seg 1 256] }, 1,
    { desc 1 [0x1000, 0x2000, 256] with segs := [seg 1 256] }, seg 1 256, by delta OnePiece; decide +kernel⟩
  · exact ⟨given { desc 7 [0] with st := .armed }, 1, { desc 7 [0] with st := .armed }, by decide +kernel⟩
  · exact ⟨given { desc 8 [2 ^ 63, 8, 5] with st := .armed, segs := [seg 2 8] }, 1,
    { desc 8 [2 ^ 63, 8, 5] with st := .armed, segs := [seg 2 8] }, seg 2 8, by delta OnePiece; decide +kernel⟩
  · exact ⟨given { desc 0x0B [0, 0, 0, 256] with st := .armed, segs := [seg 2 256] }, 1,
    { desc 0x0B [0, 0, 0, 256] with st := .armed, segs := [seg 2 256] }, seg 2 256,
      by delta OnePiece; decide +kernel⟩

/-- States and operands that meet the hypotheses of each clause of TranslationFollowsTables. -/
theorem meets_TranslationFollowsTables :
    (∃ (s : State) (who : Requester) (n : Nat) (r : Req) (b : Nat) (c : Nat) (rest : List Waiter), (n < 8) ∧
      ((s.stack n).misses = Waiter.ctx b c r.id :: rest) ∧ (∀ (w : Waiter), w ∈ rest → Waiter.isReq r.id w =
      false) ∧ ((s.stack n).walkersBusy < s.walkers n) ∧ (List.find? (fun q => q.id == r.id) (s.stack n).reqs
      = some r) ∧ ((s.stack n).faultOf r.xctx (r.va / 4096) = none) ∧ (∀ (w : Walk), w ∈ (s.stack n).walks →
      ¬(w.ctx = r.xctx ∧ w.page = r.va / 4096))) ∧
    (∃ (s : State) (who : Requester) (n : Nat) (w : Walk) (r : Req) (p : WalkPtr) (b : Nat) (c : Nat) (level :
      Nat), (n < 8) ∧ (WalkHeld s n w p level) ∧ (w.waiters = [Waiter.ctx b c r.id]) ∧ (level ≤ 2) ∧ ((s.stack
      n).tlb = []) ∧ (s.role n = 0) ∧ (∀ (d : Desc), d ∈ s.host.descs → d.st ≠ DescSt.waitSegs) ∧
      (BitVec.getLsbD (TableWord s n p.table (4096 * w.page / (4096 * 512 ^ level) % 512)) 0 = true) ∧
      (BitVec.getLsbD (TableWord s n p.table (4096 * w.page / (4096 * 512 ^ level) % 512)) 1 = true) ∧ (bitsOf
      (BitVec.toNat (TableWord s n p.table (4096 * w.page / (4096 * 512 ^ level) % 512))) 11 10 = 0) ∧
      (BitVec.getLsbD (TableWord s n p.table (4096 * w.page / (4096 * 512 ^ level) % 512)) 5 = false) ∧
      (bitsOf (BitVec.toNat (TableWord s n p.table (4096 * w.page / (4096 * 512 ^ level) % 512))) 9 6 = 0) ∧
      (4096 * bitsOf (BitVec.toNat (TableWord s n p.table (4096 * w.page / (4096 * 512 ^ level) % 512))) 47 12
      % (4096 * 512 ^ level) = 0) ∧ (bitsOf (BitVec.toNat (TableWord s n p.table (4096 * w.page / (4096 * 512
      ^ level) % 512))) 63 48 ≠ 65535) ∧ (bitsOf (BitVec.toNat (TableWord s n p.table (4096 * w.page / (4096 *
      512 ^ level) % 512))) 63 63 = 0) ∧ (List.find? (fun q => q.id == r.id && decide (q.st = ReqSt.walking))
      (s.stack n).reqs = some r) ∧ (r.src = Src.ctx b c) ∧ (r.xctx = w.ctx) ∧ (r.va / 4096 = w.page) ∧ (0 <
      r.len) ∧ (r.va % (4096 * 512 ^ level) + r.len ≤ 4096 * 512 ^ level) ∧ (r.bad = false) ∧ (hasRight
      (BitVec.ofNat 3 (bitsOf (BitVec.toNat (TableWord s n p.table (4096 * w.page / (4096 * 512 ^ level) %
      512))) 4 2)) r.op = true)) ∧
    (∃ (s : State) (who : Requester) (n : Nat) (w : Walk) (p : WalkPtr), (n < 8) ∧ (WalkHeld s n w p 1) ∧
      (w.waiters = []) ∧ (∀ (d : Desc), d ∈ s.host.descs → d.st ≠ DescSt.waitSegs) ∧ (BitVec.getLsbD
      (TableWord s n p.table (w.page / 512 % 512)) 0 = true) ∧ (bitsOf (BitVec.toNat (TableWord s n p.table
      (w.page / 512 % 512))) 11 1 = 0) ∧ (bitsOf (BitVec.toNat (TableWord s n p.table (w.page / 512 % 512)))
      63 48 = 0) ∧ (4096 * bitsOf (BitVec.toNat (TableWord s n p.table (w.page / 512 % 512))) 47 12 + 4096 ≤
      s.nearSize n) ∧ ((s.stack n).mark false ((4096 * bitsOf (BitVec.toNat (TableWord s n p.table (w.page /
      512 % 512))) 47 12 + 8 * (w.page % 512)) / 128) = markData) ∧ (BitVec.getLsbD (TableWord s n (4096 *
      bitsOf (BitVec.toNat (TableWord s n p.table (w.page / 512 % 512))) 47 12) (w.page % 512)) 0 = true) ∧
      (BitVec.getLsbD (TableWord s n (4096 * bitsOf (BitVec.toNat (TableWord s n p.table (w.page / 512 %
      512))) 47 12) (w.page % 512)) 1 = true) ∧ (bitsOf (BitVec.toNat (TableWord s n (4096 * bitsOf
      (BitVec.toNat (TableWord s n p.table (w.page / 512 % 512))) 47 12) (w.page % 512))) 11 10 = 0) ∧
      (BitVec.getLsbD (TableWord s n (4096 * bitsOf (BitVec.toNat (TableWord s n p.table (w.page / 512 %
      512))) 47 12) (w.page % 512)) 5 = false) ∧ (bitsOf (BitVec.toNat (TableWord s n (4096 * bitsOf
      (BitVec.toNat (TableWord s n p.table (w.page / 512 % 512))) 47 12) (w.page % 512))) 9 6 = 0)) ∧
    (∃ (s : State) (who : Requester) (n : Nat) (w : Walk) (p : WalkPtr), (n < 8) ∧ (WalkHeld s n w p 0) ∧ (∀
      (x : Waiter), x ∈ w.waiters → ∃ b c q, x = Waiter.ctx b c q ∧ (s.ctx
      { stack := n, bench := b, ctx := c }).st ≠ CtxSt.killed) ∧ (∀ (d : Desc), d ∈ s.host.descs → d.st ≠
      DescSt.waitSegs) ∧ ((s.stack n).faults = []) ∧ (s.fqOpen n = true) ∧ (s.fld (Reg.XLT_FQ_IDX n)
      XLT_FQ_IDX_HEAD ≠ s.fld (Reg.XLT_FQ_IDX n) XLT_FQ_IDX_TAIL) ∧ (BitVec.getLsbD (TableWord s n p.table
      (w.page % 512)) 0 = false)) ∧
    (∃ (s : State) (who : Requester) (n : Nat) (f : Fault8), (n < 8) ∧ (List.find? (fun g => g.seq.isNone)
      (s.stack n).faults = some f) ∧ (s.fqOpen n = true) ∧ (s.fld (Reg.XLT_FQ_IDX n) XLT_FQ_IDX_HEAD ≠ s.fld
      (Reg.XLT_FQ_IDX n) XLT_FQ_IDX_TAIL) ∧ (∀ (d : Desc), d ∈ s.host.descs → d.st ≠ DescSt.waitSegs)) ∧
    (∃ (s : State) (who : Requester) (n : Nat) (f : Fault8) (r : Req) (b : Nat) (c : Nat) (seq : BitVec 16),
      (n < 8) ∧ (s.permit who (Reg.XLT_FQ_RESOLVE n) = Admit.ok) ∧ ((s.stack n).faults = [f]) ∧ (f.seq = some
      seq) ∧ (f.waiters = [Waiter.ctx b c r.id]) ∧ (List.find? (fun q => q.id == r.id && decide (q.st =
      ReqSt.walking)) (s.stack n).reqs = some r) ∧ (r.src = Src.ctx b c) ∧ ((s.stack n).lookup r.xctx r.va =
      Xl.miss) ∧ (∀ (w : Walk), w ∈ (s.stack n).walks → ¬(w.ctx = r.xctx ∧ w.page = r.va / 4096))) ∧
    (∃ (s : State) (who : Requester) (n : Nat) (f : Fault8) (r : Req) (b : Nat) (c : Nat) (seq : BitVec 16),
      (n < 8) ∧ (s.permit who (Reg.XLT_FQ_RESOLVE n) = Admit.ok) ∧ ((s.stack n).faults = [f]) ∧ (f.seq = some
      seq) ∧ (f.waiters = [Waiter.ctx b c r.id]) ∧ (killable (s.ctx { stack := n, bench := b, ctx := c }).st =
      true) ∧ (s.haltDone { stack := n, bench := b, ctx := c } = false) ∧ (∀ (x : Bench), x = s.bench n b →
      x.txQueue = [] ∧ x.rxQueue = [] ∧ x.txOwner = [] ∧ x.rxOwner = [])) ∧
    (∃ (s : State) (who : Requester) (n : Nat) (value : Word), (n < 8) ∧ (s.permit who (Reg.XLT_CFG n) =
      Admit.ok) ∧ (s.bit (Reg.XLT_CFG n) XLT_CFG_FQ_ON = false) ∧ (getF value XLT_CFG_FQ_ON = 1) ∧ (getF value
      XLT_CFG_FQ_BASE ≤ 124)) ∧
    (∃ (s : State) (who : Requester) (n : Nat) (c : Nat) (value : Word), (n < 8) ∧ (c < 256) ∧ (s.permit who
      (Reg.XLT_CTX n c) = Admit.ok) ∧ (s.bit (Reg.XLT_CTX n c) XLT_CTX_BUSY = false) ∧ (s.bit (Reg.XLT_CTX n
      c) XLT_CTX_ENABLE = false)) ∧
    (∃ (s : State) (who : Requester) (n : Nat) (c : Nat) (value : Word), (n < 8) ∧ (c < 256) ∧ (s.permit who
      (Reg.XLT_CTX n c) = Admit.ok) ∧ (s.bit (Reg.XLT_CTX n c) XLT_CTX_BUSY = false) ∧ (s.bit (Reg.XLT_CTX n
      c) XLT_CTX_ENABLE = true) ∧ (getF value XLT_CTX_ENABLE = 0) ∧ (s.host.descs = [])) ∧
    (∃ (s : State) (who : Requester) (n : Nat) (id : Nat) (sh : Shoot), (n < 8) ∧ (List.find? (fun x => x.id
      == id) (s.stack n).shoots = some sh) ∧ (s.shootDrained n sh = true) ∧ (sh.asker = none)) := by
  and_intros
  · exact ⟨missing, .bar0, 0, missed, 0, 0, [], by decide +kernel⟩
  · exact ⟨walking.modStack 0 (fun k => { k with nearMark := [(0x8018 / 128, markData)] }), .bar0, 0, walk,
          missed, ⟨0, 0, 0, 0x8000⟩, 0, 0, 0, by delta WalkHeld TableWord; decide +kernel⟩
  · exact ⟨(run.setBit (.XLT_CTX 0 0) XLT_CTX_ENABLE true).modStack 0 (fun k =>
          { k with walks := [⟨0, 3, 0, []⟩], walkCache := [⟨0, 1, 0, 0x8000⟩], near := Mem.writeBytes (Mem.writeBytes [] 0x8000 (leBytes 8 0x9001)) 0x9018 (leBytes 8 (2 * 2 ^ 48 + 0x400000 + 0x1F)), nearMark := [(0x8000 / 128, markData), (0x9018 / 128, markData)] }),
          .bar0, 0, ⟨0, 3, 0, []⟩, ⟨0, 1, 0, 0x8000⟩,

      by delta WalkHeld TableWord; decide +kernel⟩
  · exact ⟨((faulted fault).setBit (.XLT_CTX 0 0) XLT_CTX_ENABLE true).modStack 0 (fun k =>
          { k with reqs := [missed], faults := [], walks := [walk], walkCache := [⟨0, 0, 0, 0x8000⟩], nearMark := [(0x8018 / 128, markData)] }),
          .bar0, 0, walk, ⟨0, 0, 0, 0x8000⟩, by exact ⟨by decide, by delta WalkHeld; decide +kernel, fun x hx
          => by cases List.mem_singleton.mp hx; exact ⟨0, 0, 1, rfl, by decide +kernel⟩, by decide +kernel,
          by decide +kernel, by decide +kernel, by decide +kernel, by delta TableWord; decide +kernel⟩⟩
  · exact ⟨faulted fault, .bar0, 0, fault, by decide +kernel⟩
  · exact ⟨faulted { fault with seq := some 2 }, .bar0, 0, { fault with seq := some 2 }, missed, 0, 0, 2,
      by decide +kernel⟩
  · exact ⟨faulted { fault with seq := some 2 }, .bar0, 0, { fault with seq := some 2 }, missed, 0, 0, 2,
    by simp only [forall_eq]; decide +kernel⟩
  · exact ⟨live, .bar0, 7, setF (setF 0 XLT_CFG_FQ_ON 1) XLT_CFG_FQ_BASE 124, by decide +kernel⟩
  · exact ⟨live, .bar0, 7, 255, setF (setF 0 XLT_CTX_ENABLE 1) XLT_CTX_ROOT 5, by decide +kernel⟩
  · exact ⟨mapped.setBit (.XLT_CTX 0 0) XLT_CTX_ENABLE true, .bar0, 0, 0, 0, by decide +kernel⟩
  · exact ⟨(live.modStack 0 (fun k => { k with shoots := [⟨4, 0, 0, 2 ^ 57, [], [], none⟩] })).setBit (.XLT_CTX 0 0) XLT_CTX_BUSY true,
    .bar0, 0, 4, ⟨4, 0, 0, 2 ^ 57, [], [], none⟩,


      by decide +kernel⟩

/-- States and operands that meet the hypotheses of each clause of TrestlesCopyAndReduce. -/
theorem meets_TrestlesCopyAndReduce :
    (∃ (s : State) (m : TrestleSet) (w : Nat) (entry : Nat), (w = 8 ∨ w < 8 ∧ s.stackUp w = true) ∧ (s.fmNode
      ≠ 65535) ∧ (m.append = false) ∧ (s.trestle? w m.entry = none) ∧ (kindOk w m.kind = true) ∧ (m.entry <
      4096) ∧ (s.sw.fences = []) ∧ (s.trestleResult (have __src := newTrestle w m;
      { owner := __src.owner, entry := __src.entry, reduction := __src.reduction, root := __src.root, committed := __src.committed, port := __src.port, label := __src.label, items := List.filter (fun i => !isUnused i) m.items, combiner := __src.combiner, prunedIn := __src.prunedIn, prunedOut := __src.prunedOut, discarded := __src.discarded, inputs := __src.inputs, refetch := __src.refetch, failedIn := __src.failedIn, op := __src.op, fmt := __src.fmt, count := __src.count, members := __src.members, acc := __src.acc, whole := __src.whole })
      m.commit = 0)) ∧
    (∃ (s : State) (m : TrestleSet) (w : Nat) (entry : Nat), (w = 8 ∨ w < 8 ∧ s.stackUp w = true) ∧ (s.fmNode
      ≠ 65535) ∧ (m.append = false) ∧ (s.trestle? w m.entry = none) ∧ (kindOk w m.kind = true) ∧ (m.entry <
      4096) ∧ (s.sw.fences = []) ∧ (s.trestleResult (have __src := newTrestle w m;
      { owner := __src.owner, entry := __src.entry, reduction := __src.reduction, root := __src.root, committed := __src.committed, port := __src.port, label := __src.label, items := List.filter (fun i => !isUnused i) m.items, combiner := __src.combiner, prunedIn := __src.prunedIn, prunedOut := __src.prunedOut, discarded := __src.discarded, inputs := __src.inputs, refetch := __src.refetch, failedIn := __src.failedIn, op := __src.op, fmt := __src.fmt, count := __src.count, members := __src.members, acc := __src.acc, whole := __src.whole })
      m.commit ≠ 0)) ∧
    (∃ (s : State) (m : TrestleSet) (w : Nat) (entry : Nat), (w = 8 ∨ w < 8 ∧ s.stackUp w = true) ∧ (s.fmNode
      ≠ 65535)) ∧
    (∃ (s : State) (src : BitVec 16) (m : TrestleSet) (entry : Nat) (f : Frame) (x : Trestle), (8 = 8 ∨ 8 < 8
      ∧ s.stackUp 8 = true) ∧ (s.trestle? 8 entry = some x) ∧ (x.committed = true) ∧ (s.cellsBad (Sum.inr f) =
      false) ∧ (x.reduction = false) ∧ (f.label.toNat = x.label) ∧ (s.sw.headFrame (100 + x.port) f = true) ∧
      (isChunk f = true → chunkCrcOk f = true ∧ s.tailPort (Sum.inr f) = none) ∧ (x.prunedOut = []) ∧
      ((List.map (fun x => x.fst) x.branches).Nodup) ∧ (∀ (b : Nat × Nat × BitVec 24), b ∈ x.branches → b.fst
      < 100 ∧ s.portShut b.fst = false) ∧ (x.room s f = (s, true)) ∧ (64 ≤ x.port → (s.stack (x.port -
      64)).upWait = [])) ∧
    (∃ (s : State) (src : BitVec 16) (m : TrestleSet) (w : Nat) (entry : Nat) (f : Frame) (x : Trestle) (num :
      Nat) (port : Nat) (label : Nat) (reach : BitVec 24), (w = 8 ∨ w < 8 ∧ s.stackUp w = true) ∧ (s.trestle?
      w entry = some x) ∧ (x.committed = true) ∧ (s.cellsBad (Sum.inr f) = false) ∧ (x.reduction = true) ∧
      (List.find? (fun i => i.snd.snd.fst == num) x.ins = some (port, label, num, reach)) ∧ (f.label.toNat =
      label) ∧ (w ≠ 8 → f.tenant.toNat = s.tenantOf w) ∧ (s.sw.headFrame (if w = 8 then 100 + port else port)
      f = true) ∧ (¬num ∈ x.prunedIn) ∧ (isChunk f = true) ∧ (s.tailPort (Sum.inr f) = none) ∧ (w = 8 → 64 ≤
      port → (s.stack (port - 64)).upWait = []) ∧ (chunkCrcOk f = true) ∧ (chunkPass f = false) ∧ (x.inputRoom
      num f = true)) ∧
    (∃ (s : State) (src : BitVec 16) (m : TrestleSet) (w : Nat) (entry : Nat) (f : Frame) (x : Trestle) (num :
      Nat) (port : Nat) (label : Nat) (reach : BitVec 24), (w = 8 ∨ w < 8 ∧ s.stackUp w = true) ∧ (s.trestle?
      w entry = some x) ∧ (x.committed = true) ∧ (s.cellsBad (Sum.inr f) = false) ∧ (x.reduction = true) ∧
      (List.find? (fun i => i.snd.snd.fst == num) x.ins = some (port, label, num, reach)) ∧ (f.label.toNat =
      label) ∧ (w ≠ 8 → f.tenant.toNat = s.tenantOf w) ∧ (s.sw.headFrame (if w = 8 then 100 + port else port)
      f = true) ∧ (¬num ∈ x.prunedIn) ∧ (isChunk f = true) ∧ (s.tailPort (Sum.inr f) = none) ∧ (w = 8 → 64 ≤
      port → (s.stack (port - 64)).upWait = []) ∧ (chunkCrcOk f = false) ∧ (Tab.get 0 x.refetch (refetchKey
      num f) < 3)) ∧
    (∃ (s : State) (src : BitVec 16) (m : TrestleSet) (entry : Nat) (f : Frame) (x : Trestle) (h : HeldInput)
      (port : Nat) (label : Nat) (reach : BitVec 24) (g : List Frame) (acc : List HeldInput), (8 = 8 ∨ 8 < 8 ∧
      s.stackUp 8 = true) ∧ (s.trestle? 8 entry = some x) ∧ (x.committed = true) ∧ (s.cellsBad (Sum.inr f) =
      false) ∧ (x.reduction = true) ∧ (x.nextPosition = some h) ∧ (x.branches = [(port, label, reach)]) ∧
      (x.prunedOut = []) ∧ (port < 100) ∧ (s.portShut port = false) ∧ (s.positionRoom x h = (s, true)) ∧
      (x.root = false ∧ g = [(x.evaluated h).partialFrame] ∧ acc = x.acc ∨ x.root = true ∧ h.round = 1 ∧ ((∃
      r, x.assembled (List.filter (fun z => z.chunk == h.chunk) (x.acc ++ [x.evaluated h])) 8 0 = some r ∧ g =
      [((x.evaluated h).joined r).rootFrame x.fmt] ∧ acc = List.filter (fun z => z.chunk != h.chunk) x.acc) ∨
      x.assembled (List.filter (fun z => z.chunk == h.chunk) (x.acc ++ [x.evaluated h])) 8 0 = none ∧ g = [] ∧
      acc = x.acc ++ [x.evaluated h]))) ∧
    (∃ (s : State) (src : BitVec 16) (m : TrestleSet) (w : Nat) (entry : Nat) (x : Trestle) (h : HeldInput) (u
      : HeldInput) (v : HeldInput) (a : Nat) (b : Nat), (w = 8 ∨ w < 8 ∧ s.stackUp w = true) ∧ (x.liveAt
      h.chunk h.position = [a, b]) ∧ (a < 16) ∧ (b < 16) ∧ (a ≠ b) ∧ (x.nodes = [(0, a, b)]) ∧ (x.heldAt a
      h.chunk h.position = some u) ∧ (x.heldAt b h.chunk h.position = some v)) ∧
    (∃ (s : State) (src : BitVec 16) (m : TrestleSet) (w : Nat) (entry : Nat) (port : Nat) (label : Nat) (x :
      Kept), (w = 8 ∨ w < 8 ∧ s.stackUp w = true) ∧ (port < 36) ∧ (s.sentOn port label = [x])) ∧
    (∃ (s : State) (src : BitVec 16) (m : TrestleSet) (w : Nat) (entry : Nat) (port : Nat) (label : Nat) (x :
      Kept), (w = 8 ∨ w < 8 ∧ s.stackUp w = true) ∧ (36 ≤ port) ∧ (s.askedFor port label = some (port,
      x.frame)) ∧ (x ∈ s.keptFor port label)) := by
  and_intros
  · exact ⟨open0, ⟨4095, 0, false, true, true, 64, 5, copies.items⟩, 8, 0, by decide +kernel⟩
  · exact ⟨open0, ⟨4095, 0, false, true, true, 0, 5, copies.items⟩, 8, 0, by decide +kernel⟩
  · exact ⟨sw (fun w => { w with trestles := [sums] }) open0, ⟨4095, 0, false, true, true, 64, 5, []⟩, 8, 2,
          by decide +kernel⟩
  · exact ⟨sw (fun w => { w with trestles := [copies], frames := [(164, [chunk 5 1 2])] }) open0, 0,
    ⟨4095, 0, false, true, true, 64, 5, []⟩, 2, chunk 5 1 2, copies, by decide +kernel⟩
  · exact ⟨sw (fun w => { w with trestles := [sums], frames := [(165, [chunk 6 1 2])] }) open0, 0, ⟨4095, 0,
          false, true, true, 64, 5, []⟩, 8, 2, chunk 6 1 2, sums, 1, 65, 6, 0x800000, by decide +kernel⟩
  · exact ⟨sw (fun w => { w with trestles := [sums], frames := [(165, [torn6])] }) open0, 0, ⟨4095, 0,
          false, true, true, 64, 5, []⟩, 8, 2, torn6, sums, 1, 65, 6, 0x800000, by decide +kernel⟩
  · exact ⟨sw (fun w => { w with trestles := [full] }) open0, 0, ⟨4095, 0, false, true, true, 64, 5, []⟩, 2,
          data6, full, held 0 0x3F800000 2, 66, 8, 0x800000, [(full.evaluated (held 0 0x3F800000
          2)).partialFrame], full.acc, by decide +kernel⟩
  · exact ⟨open0, 0, ⟨4095, 0, false, true, true, 64, 5, []⟩, 8, 2, full, held 0 0x3F800000 2, held 0
          0x3F800000 2, held 1 0x40000000 3, 0, 1, by decide +kernel⟩
  · exact ⟨sw (fun w => { w with kept := [⟨false, 8, 5, chunk 5 1 2⟩] }) open0, 0, ⟨4095, 0, false, true,
          true, 64, 5, []⟩, 8, 2, 8, 5, ⟨false, 8, 5, chunk 5 1 2⟩, by decide +kernel⟩
  · exact ⟨sw (fun w => { w with kept := [⟨true, 64, 5, chunk 5 1 2⟩], asked := [(164, chunk 5 1 2)] })
          open0, 0, ⟨4095, 0, false, true, true, 64, 5, []⟩, 8, 2, 164, 5, ⟨true, 64, 5, chunk 5 1 2⟩,
          by decide +kernel⟩

/-- States and operands that meet the hypotheses of each clause of VectorArithmeticRoundsEachLane. -/
theorem meets_VectorArithmeticRoundsEachLane :
    (∃ (s : State) (c : CtxId) (f : VForm), (Runs s c) ∧ (s.runsV 64 f = true)) ∧
    (∃ (s : State) (c : CtxId) (f : VForm), (Runs s c) ∧ (s.runsV 65 f = true)) ∧
    (∃ (s : State) (c : CtxId) (f : VForm), (Runs s c) ∧ (s.runsV 66 f = true)) ∧
    (∃ (s : State) (c : CtxId) (f : VForm), (Runs s c) ∧ (s.runsV 67 f = true)) ∧
    (∃ (s : State) (c : CtxId) (f : VForm), (Runs s c) ∧ (s.runsV 68 f = true)) ∧
    (∃ (s : State) (c : CtxId) (f : VForm), (Runs s c) ∧ (s.runsV 69 f = true)) ∧
    (∃ (s : State) (c : CtxId) (f : VForm), (Runs s c) ∧ (s.runsV 70 f = true)) ∧
    (∃ (s : State) (c : CtxId) (f : VForm), (Runs s c) ∧ (s.runsV 71 f = true)) ∧
    (∃ (s : State) (c : CtxId) (f : VForm), (Runs s c) ∧ (s.runsV 88 f = true)) ∧
    (∃ (s : State) (c : CtxId) (f : VForm), (Runs s c) ∧ (s.runsV 90 f = true)) := by
  and_intros
  · exact ⟨run, c0, vf 4 0 1 2 0 0 1, by delta Runs; decide +kernel⟩
  · exact ⟨run, c0, vf 4 0 1 2 0 0 1, by delta Runs; decide +kernel⟩
  · exact ⟨run, c0, vf 4 0 1 2 0 0 1, by delta Runs; decide +kernel⟩
  · exact ⟨run, c0, vf 4 0 1 2 1 0 1, by delta Runs; decide +kernel⟩
  · exact ⟨run, c0, vf 4 0 1 2 0 0 1, by delta Runs; decide +kernel⟩
  · exact ⟨run, c0, vf 4 0 1 0 0 0 1, by delta Runs; decide +kernel⟩
  · exact ⟨run, c0, vf 4 0 1 2 0 0 1, by delta Runs; decide +kernel⟩
  · exact ⟨run, c0, vf 4 0 1 2 0 0 1, by delta Runs; decide +kernel⟩
  · exact ⟨run, c0, vf 4 3 1 0 0 0 0, by delta Runs; decide +kernel⟩
  · exact ⟨run, c0, vf 8 4 1 2 0 0 0, by delta Runs; decide +kernel⟩

/-- States and operands that meet the hypotheses of each clause of VectorBitsAndMoves. -/
theorem meets_VectorBitsAndMoves :
    (∃ (s : State) (c : CtxId) (f : VForm), (Runs s c) ∧ (s.runsV 78 f = true)) ∧
    (∃ (s : State) (c : CtxId) (f : VForm), (Runs s c) ∧ (s.runsV 79 f = true)) ∧
    (∃ (s : State) (c : CtxId) (f : VForm), (Runs s c) ∧ (s.runsV 80 f = true)) ∧
    (∃ (s : State) (c : CtxId) (f : VForm), (Runs s c) ∧ (s.runsV 81 f = true)) ∧
    (∃ (s : State) (c : CtxId) (f : VForm), (Runs s c) ∧ (s.runsV 82 f = true)) ∧
    (∃ (s : State) (c : CtxId) (f : VForm), (Runs s c) ∧ (s.runsV 75 f = true)) ∧
    (∃ (s : State) (c : CtxId) (f : VForm), (Runs s c) ∧ (s.runsV 83 f = true)) ∧
    (∃ (s : State) (c : CtxId) (f : VForm), (Runs s c) ∧ (s.runsV 84 f = true)) ∧
    (∃ (s : State) (c : CtxId) (f : VForm), (Runs s c) ∧ (s.runsV 85 f = true)) ∧
    (∃ (s : State) (c : CtxId) (f : VForm), (Runs s c) ∧ (s.runsV 97 f = true)) := by
  and_intros
  · exact ⟨run, c0, vf 0 0 1 2 0 0 1, by delta Runs; decide +kernel⟩
  · exact ⟨run, c0, vf 0 0 1 2 0 0 1, by delta Runs; decide +kernel⟩
  · exact ⟨run, c0, vf 0 0 1 2 0 0 1, by delta Runs; decide +kernel⟩
  · exact ⟨run, c0, vf 0 0 1 0 0 31 1, by delta Runs; decide +kernel⟩
  · exact ⟨run, c0, vf 0 0 1 0 0 31 1, by delta Runs; decide +kernel⟩
  · exact ⟨run, c0, vf 4 0 1 2 0 0 1, by delta Runs; decide +kernel⟩
  · exact ⟨run, c0, vf 0 0 0 0 0 31 1, by delta Runs; decide +kernel⟩
  · exact ⟨run, c0, vf 4 0 1 2 0 0 1, by delta Runs; decide +kernel⟩
  · exact ⟨run, c0, vf 4 0 1 0 0 63 1, by delta Runs; decide +kernel⟩
  · exact ⟨run, c0, vf 4 0 1 0 0 63 0, by delta Runs; decide +kernel⟩

/-- States and operands that meet the hypotheses of each clause of VectorMapsAndBlockConversion. -/
theorem meets_VectorMapsAndBlockConversion :
    (∃ (s : State) (c : CtxId) (f : VForm), (Runs s c) ∧ (s.runsV 76 f = true)) ∧
    (∃ (s : State) (c : CtxId) (f : VForm), (Runs s c) ∧ (s.runsV 77 f = true)) ∧
    (∃ (s : State) (c : CtxId) (f : VForm) (op : Approx) (i : Instr), (Runs s c) ∧ ((op, i) ∈ [(Approx.exp2,
      Instr.vexp2 c f), (Approx.log2, Instr.vlog2 c f), (Approx.rcpa, Instr.vrcpa c f), (Approx.rsqa,
      Instr.vrsqa c f), (Approx.tanh, Instr.vtanh c f), (Approx.sigm, Instr.vsigm c f)]) ∧ (s.runsV op.code f
      = true)) ∧
    (∃ (s : State) (c : CtxId) (f : VForm), (Runs s c) ∧ (s.runsV 89 f = true)) := by
  and_intros
  · exact ⟨run, c0, vf 4 0 1 0 0 0 1, by delta Runs; decide +kernel⟩
  · exact ⟨run, c0, vf 4 0 1 0 0 0 1, by delta Runs; decide +kernel⟩
  · exact ⟨run, c0, vf 4 0 1 0 0 0 1, .tanh, .vtanh c0 (vf 4 0 1 0 0 0 1), by delta Runs; decide +kernel⟩
  · exact ⟨run, c0, vf 4 8 1 2 0 0 0, by delta Runs; decide +kernel⟩

/-- States and operands that meet the hypotheses of each clause of WaitsBeginAndEnd. -/
theorem meets_WaitsBeginAndEnd :
    (∃ (s : State) (c : CtxId) (f : SForm), (Runs s c) ∧ (InDrawer (BitVec.toNat ((s.ctx c).sreg f.sa.toNat +
      BitVec.signExtend 64 f.imm)) 8 8) ∧ (DrawerClean s c (BitVec.toNat ((s.ctx c).sreg f.sa.toNat +
      BitVec.signExtend 64 f.imm)) 8)) ∧
    (∃ (s : State) (c : CtxId) (f : SForm), (Runs s c) ∧ (s.lostOver = false) ∧ (s.mismatch = false)) ∧
    (∃ (s : State) (c : CtxId) (f : SForm), (Runs s c) ∧ (s.lostOver = true ∨ s.mismatch = true)) ∧
    (∃ (s : State) (c : CtxId) (a : Nat) (v : Word), (c.wf = true) ∧ ((s.ctx c).flagWait = some (a, v)) ∧
      (DrawerClean s c a 8) ∧ (BitVec.toNat v ≤ BitVec.toNat (drawerWord s c a))) ∧
    (∃ (s : State) (c : CtxId) (b : BitVec 48), (c.wf = true) ∧ ((s.ctx c).beatWait = some b) ∧ (s.lostOver =
      false) ∧ (s.mismatch = false) ∧ (s.reached b = true)) ∧
    (∃ (s : State) (c : CtxId), (c.wf = true) ∧ ((s.ctx c).waits = [Wait.halt]) ∧ (alive (s.ctx c).st = true)
      ∧ (∀ (r : Req), r ∈ (s.stack c.stack).reqs → r.src ≠ Src.ctx c.bench c.ctx) ∧ ((s.ctx c).arrDone ≤
      (s.bench c.stack c.bench).cycle)) ∧
    (∃ (s : State) (c : CtxId), (c.wf = true) ∧ (Wait.fence ∈ (s.ctx c).waits) ∧ (∀ (r : Req), r ∈ (s.stack
      c.stack).reqs → r.src = Src.ctx c.bench c.ctx → r.st = ReqSt.done)) := by
  and_intros
  · exact ⟨run, c0, ⟨0, 8, 2, 0xFFFFFFF8⟩, by delta Runs DrawerClean InDrawer; decide +kernel⟩
  · exact ⟨run, c0, sf, by delta Runs; decide +kernel⟩
  · exact ⟨run.setBit .BEAT_STATUS BEAT_STATUS_MISMATCH true, c0, sf, by delta Runs; decide +kernel⟩
  · exact ⟨waits [.flag 0xFFFF8 0], c0, 0xFFFF8, 0, by delta DrawerClean; decide +kernel⟩
  · exact ⟨waits [.beat 0], c0, 0, by decide +kernel⟩
  · exact ⟨waits [.halt], c0, by decide +kernel⟩
  · exact ⟨waits [.fence], c0, by decide +kernel⟩

/-- States and operands that meet the hypotheses of each clause of WatchdogHangsAndResumeReturns. -/
theorem meets_WatchdogHangsAndResumeReturns :
    (∃ (s : State) (c : CtxId) (who : Requester), (c.wf = true) ∧ (timerRuns (s.ctx c).st = true) ∧ ((s.ctx
      c).dbgStop = false) ∧ (0 < min 100 (s.fld (Reg.BCH_WDOG_CFG c.stack) BCH_WDOG_CFG_INTERVAL)) ∧ (min 100
      (s.fld (Reg.BCH_WDOG_CFG c.stack) BCH_WDOG_CFG_INTERVAL) * 75200000 ≤ (s.ctx c).timerAcc + (s.now -
      (s.ctx c).timerFrom))) ∧
    (∃ (s : State) (c : CtxId) (who : Requester), (c.wf = true) ∧ (s.permit who (Reg.BCH_CTX_CTRL c.stack
      c.bench c.ctx) = Admit.ok) ∧ ((s.ctx c).st = CtxSt.hung) ∧ ((s.ctx c).stopDue = 0) ∧ ((s.ctx c).hungFrom
      = s.shown c)) ∧
    (∃ (s : State) (c : CtxId) (who : Requester), (c.wf = true) ∧ (s.permit who (Reg.BCH_CTX_CTRL c.stack
      c.bench c.ctx) = Admit.ok) ∧ ((s.ctx c).st = CtxSt.hung) ∧ ((s.ctx c).stopDue ≠ 0) ∧ (stoppable (s.ctx
      c).hungFrom = true)) ∧
    (∃ (s : State) (c : CtxId) (who : Requester), (c.wf = true) ∧ (s.permit who (Reg.BCH_CTX_CTRL c.stack
      c.bench c.ctx) = Admit.ok) ∧ ((s.ctx c).st ≠ CtxSt.hung)) := by
  and_intros
  · exact ⟨later run, c0, .bar0, by decide +kernel⟩
  · exact ⟨at0 { busy with st := .hung, hungFrom := .run }, c0, .bar0, by decide +kernel⟩
  · exact ⟨at0 { busy with st := .hung, hungFrom := .run, stopDue := 5 }, c0, .bar0, by decide +kernel⟩
  · exact ⟨run, c0, .bar0, by decide +kernel⟩

/-- States and operands that meet the hypotheses of each clause of WeightsAreMeasured. -/
theorem meets_WeightsAreMeasured :
    (∃ (s : State) (n : Nat) (who : Requester) (v : Word), (n < 8) ∧ (s.permit who (Reg.HCORE_WEIGHTS_CTRL n)
      = Admit.ok) ∧ (getF v HCORE_WEIGHTS_CTRL_GO = 1) ∧ (s.bit (Reg.HCORE_WEIGHTS_CTRL n)
      HCORE_WEIGHTS_CTRL_BUSY = false)) ∧
    (∃ (s : State) (n : Nat) (w : Weights), (n < 8) ∧ ((s.stack n).weights = some w) ∧ (s.tierRegion n
      w.offset (4096 * w.pages) = none ∨ w.pages = 0 ∨ 2 ^ 24 < w.pages)) ∧
    (∃ (s : State) (n : Nat) (w : Weights) (far : Bool) (o : Nat), (n < 8) ∧ ((s.stack n).weights = some w) ∧
      (s.tierRegion n w.offset (4096 * w.pages) = some (far, o)) ∧ (0 < w.pages) ∧ (w.pages ≤ 2 ^ 24) ∧
      ((s.stack n).nearErr = []) ∧ ((s.stack n).farErr = []) ∧ ((s.stack n).repairing = []) ∧ ((s.stack
      n).anyPoison far (linesOf o (4096 * w.pages)) = true)) ∧
    (∃ (s : State) (n : Nat) (w : Weights) (far : Bool) (o : Nat), (n < 8) ∧ ((s.stack n).weights = some w) ∧
      (s.tierRegion n w.offset (4096 * w.pages) = some (far, o)) ∧ (0 < w.pages) ∧ (w.pages ≤ 2 ^ 24) ∧
      ((s.stack n).nearErr = []) ∧ ((s.stack n).farErr = []) ∧ ((s.stack n).repairing = []) ∧ ((s.stack
      n).anyPoison far (linesOf o (4096 * w.pages)) = false)) ∧
    (∃ (s : State) (n : Nat) (hottest : Nat), (n < 8) ∧ (s.boot.powered = true) ∧ (s.beatNow.toNat / 1024 =
      s.power.winNow)) ∧
    (∃ (s : State) (n : Nat) (hottest : Nat), (n < 8) ∧ (s.boot.powered = true) ∧ (s.beatNow.toNat / 1024 ≠
      s.power.winNow)) := by
  and_intros
  · exact ⟨cored 1, 0, .core 0 2, setF (setF 0 HCORE_WEIGHTS_CTRL_GO 1) HCORE_WEIGHTS_CTRL_PAGES 2,
      by decide +kernel⟩
  · exact ⟨weights 0, 0, ⟨0x1000, 0⟩, by decide +kernel⟩
  · exact ⟨(weights 1).modStack 0 (fun k => k.setMark false 0x20 2), 0, ⟨0x1000, 1⟩, false, 0x1000,
      by decide +kernel⟩
  · exact ⟨weights 1, 0, ⟨0x1000, 1⟩, false, 0x1000, by decide +kernel⟩
  · exact ⟨live, 0, 85, by decide +kernel⟩
  · exact ⟨{ live with beat := { live.beat with count := 4096 } }, 0, 85, by decide +kernel⟩

/-- States and operands that meet the hypotheses of each clause of WellFormedCommandsComplete. -/
theorem meets_WellFormedCommandsComplete :
    (∃ (i : Instr) (s : State), (i.wf = true)) ∧
    (∃ (i : Instr) (s : State) (e : Fault), (exec i s = Host.Outcome.fault e)) := by
  and_intros
  · exact ⟨.powerGood 12000 100 1 2, State.reset, by decide +kernel⟩
  · exact ⟨.bundleIssue 8 0, State.reset, .noSuchUnit, by rfl⟩

end Sys2Proof.Tests
end

/-! ### What every command answers (00_scope.md R7 to R10) -/

namespace Sys2Proof.Machine

open Sys2Proof

/-- The answer is a next state, unless the command is ill formed and names a unit that no module has. -/
def NextUnlessIll (wf : Bool) (r : Res) : Prop := (∃ t, r = .next t) ∨ (r = noUnit ∧ wf = false)

namespace NextUnlessIll

variable {wf : Bool} {s : State} {r : Res}

theorem next (t : State) : NextUnlessIll wf (.next t) := .inl ⟨t, rfl⟩

theorem noUnit_of_ill (h : wf = false) : NextUnlessIll wf noUnit := .inr ⟨rfl, h⟩

/-- An answer guarded by a range of numbers that every well-formed command keeps to. -/
theorem guard {c : Prop} [Decidable c] (hc : wf = true → c) (hr : NextUnlessIll wf r) :
    NextUnlessIll wf (if c then r else noUnit) := by
  split
  next => exact hr
  next h => exact noUnit_of_ill (Bool.eq_false_iff.2 (mt hc h))

theorem onStack {n : Nat} (h : wf = true → n < 8) (hr : NextUnlessIll wf r) : NextUnlessIll wf (onStack n r) :=
  guard h hr

theorem onBench {n b : Nat} (h : wf = true → n < 8 ∧ b < 336) (hr : NextUnlessIll wf r) :
    NextUnlessIll wf (onBench n b r) :=
  guard h hr

theorem onCtx {c : CtxId} (h : wf = true → c.wf = true) (hr : NextUnlessIll wf r) : NextUnlessIll wf (onCtx c r) :=
  guard (fun hw => by simpa [CtxId.wf, and_assoc] using h hw) hr

theorem onPort {p : Nat} (h : wf = true → p < 36) (hr : NextUnlessIll wf r) : NextUnlessIll wf (onPort p r) :=
  guard h hr

theorem onRing {p : Nat} (h : wf = true → p < 64) (hr : NextUnlessIll wf r) : NextUnlessIll wf (onRing p r) :=
  guard h hr

/-- Putting the events of a step in order changes the next state and no other answer. -/
theorem inOrder (hr : NextUnlessIll wf r) : NextUnlessIll wf (inOrder s r) := by
  rcases hr with ⟨t, rfl⟩ | ⟨rfl, h⟩
  · exact next _
  · exact noUnit_of_ill h

theorem lone (c : CtxId) (ok : Bool) (eff : Ctx → State → State) : NextUnlessIll c.wf (lone s c ok eff) :=
  onCtx id (next _)

theorem onStarted (h op : Nat) (f : Desc → State) : NextUnlessIll wf (onStarted s h op f) := by
  unfold Machine.onStarted
  split <;> exact next _

theorem onFire (h op : Nat) (f : Desc → State) : NextUnlessIll wf (onFire s h op f) := by
  unfold Machine.onFire
  split <;> exact next _

end NextUnlessIll

/-- Every command answers a next state, or names a unit that no module has: the commands are grouped by the guard that
stands before their effect. -/
theorem exec_nextUnlessIll (i : Instr) (s : State) : NextUnlessIll i.wf (exec i s) := by
  cases i with
  | sli | slih | sadd | saddi | ssub | smul | sand | sor | sxor | sshl | sshr | scmplt | jmp | brz | brnz | waitf
  | waitb | getf | getid | yield | halt | azero | amma | adrain | aload | fld | fst | fstk | fatom | facc | vld | vst
  | sld | sst | ffence | vadd | vsub | vmul | vfma | vdiv | vsqrt | vmin | vmax | vcmpeq | vcmplt | vcmple | vsel
  | vabs | vneg | vand | vor | vxor | vshl | vshr | vmovs | vperm | vbcast | vrsum | vrmax | cvt | cvtb | cvtu | vexp2
  | vlog2 | vrcpa | vrsqa | vtanh | vsigm | vext => exact .lone _ _ _
  | lsend | lrecv | lsendd | lrecvd => exact .inOrder (.lone _ _ _)
  | nop | resume | kill | ffenceComplete | haltComplete | ctxWatchdogExpire | killedDrained =>
    exact .onCtx (by simp +contextual [Instr.wf]) (.next _)
  | waitfRelease | waitbRelease =>
    refine .onCtx id ?_
    repeat' (first | split | dsimp only)
    all_goals exact .next _
  | jobWrite => exact .onBench (by simp +contextual [Instr.wf]) (.next _)
  | creditReturn => exact .inOrder (.onBench (by simp +contextual [Instr.wf]) (.next _))
  | bundleIssue | granuleArrive =>
    refine .inOrder (.onBench (by simp +contextual [Instr.wf]) ?_)
    repeat' (first | split | dsimp only)
    all_goals exact .next _
  | portTrainStart | retrain | hold | beatCheckSend | beatCheck | beatCheckLapse | portDown | trainBackoffExpire
  | cableBringupDone | dcCheck | crossRecheck | equaliseDone | paramsDone | checkDone | trainStateTimeout
  | cableFlagPoll | errorRateWindow | flitSend | replay | flitReceive | keyChange | keyChangeTimeout =>
    exact .onPort (by simp +contextual [Instr.wf]) (.next _)
  | ringEnable | ringDisable | doorbellSnoop | doorbellReadDone | doorbellPoll =>
    exact .onRing (by simp +contextual [Instr.wf]) (.next _)
  | descriptorFetch ring =>
    cases ring with
    | host => exact .onRing (by simp [Instr.wf, RingId.wf]) (.next _)
    | dev => exact .guard (by simp [Instr.wf, RingId.wf]) (.next _)
  | wdogIntervalWrite | reseatGo | runtimeGo | faultRetry | faultFail | fqCfgWrite | cwinCfgWrite | resetMax
  | weightsGo | load | store | routedKeystone | atomic | accum | releaseDone | shadowDigest | spanGrant | spanRefuse
  | spanReroute | groupGrant | groupRefuse | groupClear | shadowSwap | reseatDone | ack | data | atomicReply | dead
  | throttleAdjust | cwinDrainDone | spanAck | spanBroken | syncReply | spanSync | invalAck | rowRepair | patrolScrub
  | zeroScrubDone | spanFrame | drainMarker => exact .onStack (by simp +contextual [Instr.wf, RowId.wf]) (.next _)
  | rowRepairDone => exact .inOrder (.onStack (by simp [Instr.wf, RowId.wf]) (.next _))
  | walkStart | walkComplete | heldFaultWrite | shootdownDrainDone | teardownComplete | requestInject
  | keystoneRelease | resendTimer | deadTimer | spanGrantTimeout | spanActivate | spanCloseBeat | spanFrameSend
  | spanSyncTimer | spanPauseTimeout | spanAckTimer | lineServe | invalResendTimer | groupRequestTimeout
  | collectiveLimitExpire | dataRoundStart | tallySend | shadowSwapBeat | rebuildDone | digestDone | chunkFrame
  | headerResult | tallyResult | fabricReplyToContext | applyClockStep | runtimeCopyDone | weightsDigestDone =>
    refine .onStack (by simp +contextual [Instr.wf]) ?_
    repeat' (first | split | dsimp only)
    all_goals exact .next _
  | kick | restart | dringCfgWrite | dringDoorbell | contextWrite =>
    exact .guard (by simp +contextual [Instr.wf]) (.onStack (by simp +contextual [Instr.wf]) (.next _))
  | coreWdogWarn | coreWdogHung =>
    exact .onStack (by simp +contextual [Instr.wf]) (.guard (by simp +contextual [Instr.wf]) (.next _))
  | hartStart =>
    refine .onStack (by simp +contextual [Instr.wf]) (.guard (by simp +contextual [Instr.wf]) ?_)
    split <;> exact .next _
  | trestleEntrySet | trestleEntryClear => exact .guard (by simp [Instr.wf, Nat.lt_succ_iff]; try omega) (.next _)
  | ucieModuleDrop | coreAccess => exact .guard (by simp [Instr.wf]) (.next _)
  | copy | fill | keystone | nopDescriptor | fence | waitBeat | atBeat | snapshot | launch | invalidate | spanOpen
  | spanClose | collective | attest => exact .onStarted _ _ _
  | waitBeatRelease | atBeatRelease | snapshotStart => exact .onFire _ _ _
  | chunkRefetch | defectEntryWritten | descriptorStart | launchComplete | completionWrite | egressCharge
  | packetForward | reductionEvaluate | multicastFrame | trestleInputFrame | registerWrite =>
    simp only [exec, execChunkRefetch, execDefectEntryWritten, execDescriptorStart, execLaunchComplete,
      execCompletionWrite, execEgressCharge, execPacketForward, execReductionEvaluate, execMulticastFrame,
      execTrestleInputFrame, execRegisterWrite]
    repeat' (first | split | dsimp only)
    all_goals exact .next _
  | auditPassEnd | epo | epoRelease | shedAssert | shedRelease | capTakesEffect | rampTakesEffect | capAt | rampAt
  | lease | statusRead | i3cCcc | capRecoveryGo | rackSet | beatSet | beatEdge | beatGapTimeout | lostLimitExpire | bind
  | release | certs | debugOpen | debugClose | quietClear | debugRegisterAccess | debugTierAccess | debugContextStop
  | debugContextRelease | debugContextRead | teardown | clearDead | spanEntrySet | spanEntryClear | fenceSet
  | fenceClear | noticeAck | shadowSet | rebuild | digestReq | regWrite | clockEvaluation | spanFrameForward
  | unitFailure | switchFail | undervoltageReset | thermalTrip | sagSet | sagClear | leaseLapse
  | unknownSidebandMessage | powerEvaluation | powerGood | keeperBoot | recoveryImageCheck | stacksOutOfReset
  | knownAnswerTestsDone | defectMergeDone | tierTrainingDone | portTrainingStepEnd | measurementsRecorded | lockedSet
  | beatReturnCompare | beatFreqWindow | throttleWindowEnd | noticeResendTimer | jtagUpdateDr => exact .next _

/-- Settles O2: both halves are read off from what every command answers. -/
theorem wellFormedCommandsComplete : Obligations.WellFormedCommandsComplete := by
  unfold Obligations.WellFormedCommandsComplete
  refine ⟨fun i s hw => ?_, fun i s => ?_⟩
  · rcases exec_nextUnlessIll i s with h | ⟨-, hill⟩
    · exact h
    · simp [hw] at hill
  · rcases exec_nextUnlessIll i s with ⟨t, h⟩ | ⟨h, hill⟩
    · simp [h]
    · simp [h, hill, noUnit]

/-! ### The state after a reset (00_scope.md R5, R6; 19_register_map.md R549) -/

/-- 08_translation.md R265: the segment store of each stack of a JZK-4X is free after a reset. -/
theorem readReg_xltStatus_reset :
    ∀ n, n < 8 → State.reset.readReg .bar0 (.XLT_STATUS n) = 0x0001000000000000 := by
  decide +kernel

/-- 11_switch_die.md R378: the free cells after a reset, by variant. -/
theorem readReg_swcCellStatus_reset (v : Variant) :
    ({ State.reset with variant := v } : State).readReg .bar0 .SWC_CELL_STATUS
      = if v = .l then 0x5BE84 else 0x59964 := by
  cases v <;> rfl

/-- Settles O3: the register file of a reset is empty, so each register reads the reset value of its row. -/
theorem resetLeavesResetValues : Obligations.ResetLeavesResetValues := by
  unfold Obligations.ResetLeavesResetValues
  refine ⟨⟨rfl, rfl, rfl, rfl, rfl⟩, rfl, fun n y r p k => ?_, readReg_xltStatus_reset,
    readReg_swcCellStatus_reset, rfl, rfl, rfl, rfl, rfl, rfl, rfl, rfl, rfl, rfl, rfl, rfl, fun _ => rfl, rfl, rfl, rfl,
    rfl, fun _ _ => rfl⟩
  exact ⟨rfl, rfl, rfl, rfl, rfl, rfl, rfl, rfl, rfl, rfl, rfl, rfl, rfl, rfl⟩

end Sys2Proof.Machine

/-! ### Reads of one part of the state after an update of another -/

namespace Sys2Proof.Machine

open Sys2Proof

section

variable (s : State) (n : Nat) (f : Stack → Stack) (q : Reg)

@[simp] theorem State.reg_modStack : (s.modStack n f).reg q = s.reg q := rfl

variable {f} in
/-- What a change of a stack keeps of it is as it was in every stack. -/
theorem State.stack_modStack_keeps {β : Type} (π : Stack → β) (m : Nat) (hf : π (f (s.stack n)) = π (s.stack n)) :
    π ((s.modStack n f).stack m) = π (s.stack m) := by
  rw [State.stack_modStack]
  split
  next h => rw [hf, h]
  next => rfl

@[simp] theorem State.desc?_modStack (h : Nat) : (s.modStack n f).desc? h = s.desc? h := rfl

end

section

variable (s : State) (f : Switch → Switch)

@[simp] theorem State.reg_modSw (q : Reg) : (s.modSw f).reg q = s.reg q := rfl
@[simp] theorem State.stack_modSw (n : Nat) : (s.modSw f).stack n = s.stack n := rfl
@[simp] theorem State.desc?_modSw (h : Nat) : (s.modSw f).desc? h = s.desc? h := rfl

end

section

variable (s : State) (r : Reg) (w : Word)

@[simp] theorem State.stack_setReg (n : Nat) : (s.setReg r w).stack n = s.stack n := rfl
@[simp] theorem State.bench_setReg (n b : Nat) : (s.setReg r w).bench n b = s.bench n b := rfl
@[simp] theorem State.ctx_setReg (c : CtxId) : (s.setReg r w).ctx c = s.ctx c := rfl
@[simp] theorem State.desc?_setReg (h : Nat) : (s.setReg r w).desc? h = s.desc? h := rfl

end

section

variable (s : State) (r k : Nat)

@[simp] theorem State.stack_quiet (n : Nat) : (s.quiet r k).stack n = s.stack n := rfl
@[simp] theorem State.desc?_quiet (h : Nat) : (s.quiet r k).desc? h = s.desc? h := rfl

/-- A quiet counter is counted in its own register. -/
@[simp] theorem State.reg_quiet (q : Reg) (h : q ≠ .SWC_QUIET r k) : (s.quiet r k).reg q = s.reg q := by
  simp [State.quiet, State.satFld, State.setFld, h]

end

/-! ### Descriptors -/

section

variable (s : State) (h : Nat) (f : Desc → Desc)

@[simp] theorem State.reg_modDesc (q : Reg) : (s.modDesc h f).reg q = s.reg q := rfl
@[simp] theorem State.boot_modDesc : (s.modDesc h f).boot = s.boot := rfl
@[simp] theorem State.stackTab_modDesc : (s.modDesc h f).stackTab = s.stackTab := rfl
@[simp] theorem State.stack_modDesc (n : Nat) : (s.modDesc h f).stack n = s.stack n := rfl
@[simp] theorem State.descReqs_modDesc (d : Desc) : (s.modDesc h f).descReqs d = s.descReqs d := rfl

variable {s h}

theorem State.handle_of_desc? {d : Desc} (hd : s.desc? h = some d) : d.handle = h := by
  simpa using List.find?_some hd

/-- An update that keeps the handles changes the descriptor that it names and no other. -/
theorem State.desc?_modDesc (hf : ∀ d : Desc, d.handle = h → (f d).handle = h) (g : Nat) :
    (s.modDesc h f).desc? g = if g = h then (s.desc? h).map f else s.desc? g := by
  have key : ∀ l : List Desc, (l.map (fun d => if d.handle = h then f d else d)).find? (fun d => d.handle == g)
      = if g = h then (l.find? (fun d => d.handle == h)).map f else l.find? (fun d => d.handle == g) := by
    intro l
    induction l with
    | nil => simp
    | cons a l ih =>
      by_cases ha : a.handle = h <;> by_cases hg : g = h
      · simp [ha, hg, hf a ha]
      · simpa [List.find?_cons, ha, hg, hf a ha, Ne.symm hg] using ih
      · simpa [List.find?_cons, ha, hg] using ih
      · by_cases hag : a.handle = g
        · simp [hg, hag]
        · simpa [List.find?_cons, ha, hg, hag] using ih
  exact key _

theorem State.desc?_modDesc_self {d : Desc} (hd : s.desc? h = some d)
    (hf : ∀ d : Desc, d.handle = h → (f d).handle = h) : (s.modDesc h f).desc? h = some (f d) := by
  simp [State.desc?_modDesc f hf, hd]

theorem State.desc?_finishDesc {d : Desc} (hd : s.desc? h = some d) :
    (s.finishDesc h).desc? h = some (finishedDesc d) :=
  State.desc?_modDesc_self _ hd fun _ => id

@[simp] theorem State.stack_finishDesc (s : State) (h n : Nat) : (s.finishDesc h).stack n = s.stack n := rfl

end

theorem State.descReqs_dropDescReqs (s : State) (d : Desc) : (s.dropDescReqs d).descReqs d = [] := by
  simp only [State.descReqs, State.dropDescReqs, State.stack_modStack, if_true, List.filter_filter]
  exact List.filter_eq_nil_iff.2 fun r _ => by simp

/-! ### The end of a descriptor that fails (07_rings_and_doorbells.md R228) -/

/-- A descriptor of which nothing is at the abutment, which has not ended and carries no status yet, ends at once: with
ABSENT where what it has read needs an absent unit, and otherwise with the failure. -/
theorem State.desc?_failDesc {s : State} {h : Nat} {d : Desc} (status detail : Nat) (hd : s.desc? h = some d)
    (hst : d.st ≠ .finished) (hph : d.phase ≠ .ending) (h0 : d.status = 0) (hr : s.descReqs d = []) :
    (s.failDesc h status detail).desc? h = some (finishedDesc
      { d with
        status := if s.showsAbsent d then 0x01 else BitVec.ofNat 8 status
        detail := if s.showsAbsent d then 0 else BitVec.ofNat 32 detail
        st := .running, phase := .ending, waits := [] }) := by
  have hnone : ((s.modStack d.stack (fun k => k.dropUnsent d.src)).descReqs d) = [] := by
    simp only [State.descReqs, List.filter_eq_nil_iff] at hr
    simp only [State.descReqs, State.stack_modStack, if_true, Stack.dropUnsent, List.filter_eq_nil_iff,
      List.mem_filter]
    exact fun r hmem => hr r hmem.1
  simp only [State.failDesc, hd, hst, hph, or_self, if_false, State.descReqs_modDesc, hnone, List.isEmpty_nil, if_true]
  refine (State.desc?_finishDesc (State.desc?_modDesc_self _ (d := d) hd (by simp))).trans ?_
  simp [h0, stAbsent]

@[simp] theorem State.benches_failDesc (s : State) (h status detail n : Nat) :
    ((s.failDesc h status detail).stack n).benches = (s.stack n).benches := by
  cases hd : s.desc? h with
  | none => simp [State.failDesc, hd]
  | some d =>
    simp only [State.failDesc, hd]
    split
    next => rfl
    next =>
      let t := s.modStack d.stack (·.dropUnsent d.src)
      have hkeep : (t.stack n).benches = (s.stack n).benches :=
        State.stack_modStack_keeps s d.stack Stack.benches n rfl
      have hend : ∀ (g : Desc → Desc) (c : Bool),
          ((if c = true then (t.modDesc h g).finishDesc h else t.modDesc h g).stack n).benches = (s.stack n).benches
        | _, true => hkeep
        | _, false => hkeep
      split
      next => exact hend _ _
      next => exact hend _ _

/-! ### When a descriptor moves on -/

theorem State.moveDesc_finished {s : State} {h : Nat} {d : Desc} (fuel : Nat) (hd : s.desc? h = some d)
    (hst : d.st = .finished) : s.moveDesc fuel h = s := by
  cases fuel with
  | zero => rfl
  | succ fuel => simp [State.moveDesc, hd, hst]

/-- A running descriptor stays while it is held, and while an access of it is unanswered. -/
theorem State.moveDesc_stays {s : State} {h : Nat} {d : Desc} (fuel : Nat) (hd : s.desc? h = some d)
    (hst : d.st = .running) (hw : d.phase = .held ∨ ∃ r ∈ s.descReqs d, r.st ≠ .done) : s.moveDesc fuel h = s := by
  cases fuel with
  | zero => rfl
  | succ fuel =>
    simp only [State.moveDesc, hd, hst]
    rcases hw with hw | ⟨r, hr, hne⟩
    · simp [hw]
    · have : (s.descReqs d).all (fun r => decide (r.st = .done)) = false :=
        List.all_eq_false.2 ⟨r, hr, by simpa using hne⟩
      simp [this]

end Sys2Proof.Machine

/-! ### The accesses of a descriptor -/

namespace Sys2Proof.Machine

open Sys2Proof

/-- An access that crosses no multiple of `n` goes in one piece. -/
theorem pieces_onePiece {n : Nat} {x : Seg} (hx : OnePiece n x) : pieces n x.va x.len = [(0, x.len)] := by
  obtain ⟨hlen, hfit⟩ := hx
  have hone : (x.va % n + x.len + n - 1) / n = 1 :=
    Nat.div_eq_of_lt_le (by omega) (by omega)
  have hmin : x.len.min (n - x.va % n) = x.len := Nat.min_eq_left (by omega)
  simp [pieces, hone, hmin]

theorem State.readSeg_onePiece {s : State} {d : Desc} {x : Seg} (hx : OnePiece 256 x)
    (hr : x.rights.getLsbD 0 = true) (hn : x.node ≠ 0xFFFF) :
    s.readSeg d x = s.fresh.2.addReqs d.stack
      [d.req s.nextId opLoad (BitVec.ofNat 8 (x.len - 1)) x 0 x.len [] 0] := by
  rw [State.readSeg, if_neg (not_or.2 ⟨by simp [hr], hn⟩), loadPiece, pieces_onePiece hx]
  rfl

/-- The one load of an operand of one segment that its pages let the descriptor read. -/
theorem State.readOperand_onePiece {s : State} {d : Desc} {word : Nat} {x : Seg} (hs : d.segsOf word = [x])
    (hx : OnePiece 256 x) (hr : x.rights.getLsbD 0 = true) (hn : x.node ≠ 0xFFFF) :
    s.readOperand d word 0 = s.fresh.2.addReqs d.stack
      [d.req s.nextId opLoad (BitVec.ofNat 8 (x.len - 1)) x 0 x.len [] 0] := by
  have hdrop : dropSegs 0 [x] = [x] := by simp [dropSegs, Nat.not_le.2 hx.1]
  simp only [State.readOperand, hs, hdrop, List.foldl_cons, List.foldl_nil, State.readSeg_onePiece hx hr hn]

@[simp] theorem State.reqs_addReqs (s : State) (n : Nat) (rs : List Req) :
    ((s.addReqs n rs).stack n).reqs = (s.stack n).reqs ++ rs := by
  simp [State.addReqs]

@[simp] theorem State.desc?_addReqs (s : State) (n : Nat) (rs : List Req) (h : Nat) :
    (s.addReqs n rs).desc? h = s.desc? h := rfl

/-- A started descriptor of its opcode has its meaning. -/
theorem onStarted_of_started {s : State} {h op : Nat} {d : Desc} {f : Desc → State} (hd : s.desc? h = some d)
    (hst : d.st = .started) (hop : d.opcode = op) : onStarted s h op f = .next (f d) := by
  simp [onStarted, hd, hst, hop, whenOk]

/-! ### LAUNCH begins (04_benches.md R133, R134) -/

theorem launch_reads_image {s : State} {h : Nat} {d : Desc} {x : Seg} (hd : s.desc? h = some d)
    (hop : d.opcode = 0x03) (hst : d.st = .started) (hb : s.mayLack = true ∨ s.benchesBad d = false)
    (hs : d.segsOf 1 = [x]) (hx : OnePiece 256 x) (hr : x.rights.getLsbD 0 = true) (hn : x.node ≠ 0xFFFF) :
    Completes (.launch h) s (fun t => DescAccessHeld d 1 x x.len [] s t
      ∧ t.desc? h = some { d with data := [], st := .running, phase := .source }) := by
  obtain rfl := State.handle_of_desc? hd
  have hbad : (!s.mayLack && s.benchesBad d) = false := by rcases hb with hb | hb <;> simp [hb]
  let e : Desc := { d with data := [] }
  let u := (s.modDesc d.handle (fun x => { x with data := [] })).phase d.handle .source
  have hu : u.desc? d.handle = some { e with st := .running, phase := .source } :=
    State.desc?_modDesc_self _ (State.desc?_modDesc_self _ hd (by simp)) (by simp)
  let r := d.req s.nextId opLoad (BitVec.ofNat 8 (x.len - 1)) x 0 x.len [] 0
  let t := u.fresh.2.addReqs d.stack [r]
  have hread : u.readOperand e 1 0 = t := State.readOperand_onePiece (d := e) hs hx hr hn
  have hstay : t.moveDesc moveFuel d.handle = t := by
    refine State.moveDesc_stays _ hu rfl (.inr ⟨r, ?_, by simp [r, Desc.req]⟩)
    have hmem : r ∈ (t.stack d.stack).reqs := by
      rw [State.reqs_addReqs]
      exact List.mem_append_right _ (List.mem_singleton_self r)
    exact List.mem_filter.2 ⟨hmem, decide_eq_true rfl⟩
  refine ⟨t, ?_, ⟨r, State.reqs_addReqs u.fresh.2 d.stack [r], rfl, rfl, rfl, rfl, rfl, rfl, rfl⟩, hu⟩
  calc exec (.launch d.handle) s
      = .next ((u.readOperand e 1 0).moveDesc moveFuel d.handle) :=
        (onStarted_of_started hd hst hop).trans (by simp only [hbad]; rfl)
    _ = .next t := by rw [hread, hstay]

theorem launch_fails_at_once {s : State} {h : Nat} {d : Desc} (hd : s.desc? h = some d) (hop : d.opcode = 0x03)
    (hst : d.st = .started) (hph : d.phase ≠ .ending) (h0 : d.status = 0) (hl : s.mayLack = false)
    (hb : s.benchesBad d = true) (hr : s.descReqs d = []) :
    Completes (.launch h) s (fun t => ∃ e, t.desc? h = some e ∧ e.st = .finished ∧ e.status = 0x08
      ∧ e.detail = 8 ∧ (t.stack d.stack).benches = (s.stack d.stack).benches) := by
  have habs : s.showsAbsent d = false := by simp [State.showsAbsent, hl]
  have hbad : (!s.mayLack && s.benchesBad d) = true := by simp [hl, hb]
  have hexec : exec (.launch h) s = .next (s.failDesc h stBad 8) :=
    (onStarted_of_started hd hst hop).trans (congrArg (fun u => (.next u : Res)) (if_pos hbad))
  refine ⟨s.failDesc h stBad 8, hexec, _,
    State.desc?_failDesc stBad 8 hd (by simp [hst]) hph h0 hr, rfl, ?_, ?_, State.benches_failDesc s h stBad 8 d.stack⟩
  · simp [finishedDesc, habs, stBad]
  · simp [finishedDesc, habs]

/-! ### LAUNCH ends with the worst of its contexts' ends (04_benches.md R135) -/

/-- A fold keeps what each of its steps keeps. -/
theorem foldl_keeps {α β : Type} {f : β → α → β} {P : β → Prop} {l : List α} {b : β} (hb : P b)
    (hf : ∀ b, ∀ a ∈ l, P b → P (f b a)) : P (l.foldl f b) := by
  induction l generalizing b with
  | nil => exact hb
  | cons a l ih => exact ih (hf b a (by simp) hb) fun b a' ha => hf b a' (by simp [ha])

/-- A fold has what one of its elements brings about, where every element keeps it, and keeps what the bringing needs. -/
theorem foldl_reaches {α β : Type} {f : β → α → β} {P I : β → Prop} {l : List α} {b : β} (hb : I b)
    (hI : ∀ b, ∀ a ∈ l, I b → I (f b a)) (hP : ∀ b, ∀ a ∈ l, P b → P (f b a))
    (hex : ∃ a ∈ l, ∀ b, I b → P (f b a)) : P (l.foldl f b) := by
  obtain ⟨a, hmem, ha⟩ := hex
  obtain ⟨l₁, l₂, rfl⟩ := List.append_of_mem hmem
  rw [List.foldl_append, List.foldl_cons]
  refine foldl_keeps (ha _ (foldl_keeps hb fun b a' h => hI b a' ?_)) fun b a' h => hP b a' ?_
  · simp [h]
  · simp [h]

namespace Desc

variable (d : Desc) (b : Nat) (x : Ctx)

@[simp] theorem handle_takeOutcome : (d.takeOutcome b x).handle = d.handle := by
  simp only [takeOutcome]
  repeat' split
  all_goals rfl

@[simp] theorem st_takeOutcome : (d.takeOutcome b x).st = d.st := by
  simp only [takeOutcome]
  repeat' split
  all_goals rfl

@[simp] theorem job_takeOutcome : (d.takeOutcome b x).job = d.job := by
  simp only [takeOutcome]
  repeat' split
  all_goals rfl

variable {d b x}

theorem statusRank_cases (st : BitVec 8) : statusRank st < 2 ∨ st = 0x02 ∨ st = 0x04 := by
  by_cases h4 : st.toNat = stTorn
  · exact .inr (.inr (BitVec.eq_of_toNat_eq h4))
  · by_cases h2 : st.toNat = stFault
    · exact .inr (.inl (BitVec.eq_of_toNat_eq h2))
    · refine .inl ?_
      rw [statusRank, if_neg h4, if_neg h2]
      split <;> decide

theorem takeOutcome_three (h : x.outcome = 3) :
    (d.takeOutcome b x).status = 0x04 ∧ (d.takeOutcome b x).detail = BitVec.ofNat 32 d.job := by
  simp [takeOutcome, h, stTorn]

/-- A LAUNCH of which a context was torn down keeps that end. -/
theorem takeOutcome_of_torn (hd : d.status = 0x04) (hj : d.detail = BitVec.ofNat 32 d.job) :
    (d.takeOutcome b x).status = 0x04 ∧ (d.takeOutcome b x).detail = BitVec.ofNat 32 d.job := by
  have hr : statusRank d.status = 3 := by rw [hd]; rfl
  simp only [takeOutcome, hr]
  split <;> simp [hd, hj, stTorn]

theorem takeOutcome_two (h : x.outcome = 2) (hd : d.status ≠ 0x04) : (d.takeOutcome b x).status = 0x02 := by
  simp only [takeOutcome, h]
  rcases statusRank_cases d.status with hr | hr | hr
  · simp [hr, stFault]
  · split
    · rfl
    · exact hr
  · exact absurd hr hd

theorem takeOutcome_ne_torn (h : x.outcome ≠ 3) (hd : d.status ≠ 0x04) : (d.takeOutcome b x).status ≠ 0x04 := by
  simp only [takeOutcome]
  split
  next h3 => exact absurd h3 h
  next =>
    split
    · simp [stFault]
    · exact hd
  next =>
    split
    · simp [stTimeout]
    · exact hd
  next => exact hd

theorem takeOutcome_of_fault (h : x.outcome ≠ 3) (hd : d.status = 0x02) : (d.takeOutcome b x).status = 0x02 := by
  have hr : statusRank d.status = 2 := by rw [hd]; rfl
  simp only [takeOutcome, hr]
  split
  next h3 => exact absurd h3 h
  next => split <;> simp [hd, stFault]
  next => simp [hd]
  next => exact hd

theorem takeOutcome_one (h : x.outcome = 1) (hd : statusRank d.status = 0) :
    (d.takeOutcome b x).status = 0x09 ∧ (d.takeOutcome b x).detail = 5 := by
  simp [takeOutcome, h, hd, stTimeout]

theorem takeOutcome_zero (h : x.outcome = 0) : d.takeOutcome b x = d := by
  simp [takeOutcome, h]

/-- A LAUNCH that has timed out stays so while no context of it has ended worse. -/
theorem takeOutcome_of_timeout (h : x.outcome < 2) (hd : d.status = 0x09) : d.takeOutcome b x = d := by
  have hr : statusRank d.status = 1 := by rw [hd]; rfl
  obtain h0 | h1 : x.outcome = 0 ∨ x.outcome = 1 := by omega
  · exact takeOutcome_zero h0
  · simp [takeOutcome, h1, hr]

/-- The end of a LAUNCH: the outcomes of its contexts taken in turn. -/
def takeOutcomes (d : Desc) (l : List (Nat × Ctx)) : Desc := l.foldl (fun y p => y.takeOutcome p.1 p.2) d

variable {l : List (Nat × Ctx)}

@[simp] theorem handle_takeOutcomes : (d.takeOutcomes l).handle = d.handle :=
  foldl_keeps (P := fun e : Desc => e.handle = d.handle) rfl fun _ _ _ he => by simp [he]

theorem takeOutcomes_torn (h : ∃ p ∈ l, p.2.outcome = 3) :
    (d.takeOutcomes l).status = 0x04 ∧ (d.takeOutcomes l).detail = BitVec.ofNat 32 d.job := by
  obtain ⟨p, hp, h3⟩ := h
  have key : (d.takeOutcomes l).status = 0x04 ∧ (d.takeOutcomes l).detail = BitVec.ofNat 32 d.job
      ∧ (d.takeOutcomes l).job = d.job := by
    refine foldl_reaches (I := fun e : Desc => e.job = d.job)
      (P := fun e : Desc => e.status = 0x04 ∧ e.detail = BitVec.ofNat 32 d.job ∧ e.job = d.job) rfl
      (fun e a _ he => by simp [he]) (fun e a _ he => ?_)
      ⟨p, hp, fun e he => ?_⟩
    · obtain ⟨hst, hdet, hj⟩ := he
      obtain ⟨h1, h2⟩ := takeOutcome_of_torn (b := a.1) (x := a.2) hst (hj ▸ hdet)
      exact ⟨h1, hj ▸ h2, by simp [hj]⟩
    · obtain ⟨h1, h2⟩ := takeOutcome_three (d := e) (b := p.1) h3
      exact ⟨h1, he ▸ h2, by simp [he]⟩
  exact ⟨key.1, key.2.1⟩

theorem takeOutcomes_fault (hd : d.status = 0) (h3 : ∀ p ∈ l, p.2.outcome ≠ 3) (h : ∃ p ∈ l, p.2.outcome = 2) :
    (d.takeOutcomes l).status = 0x02 := by
  obtain ⟨p, hp, h2⟩ := h
  exact foldl_reaches (P := fun e : Desc => e.status = 0x02) (I := fun e : Desc => e.status ≠ 0x04) (by simp [hd])
    (fun e a ha he => takeOutcome_ne_torn (h3 a ha) he) (fun e a ha he => takeOutcome_of_fault (h3 a ha) he)
    ⟨p, hp, fun e he => takeOutcome_two h2 he⟩

theorem takeOutcomes_timeout (hd : d.status = 0) (hlt : ∀ p ∈ l, p.2.outcome < 2) (h : ∃ p ∈ l, p.2.outcome = 1) :
    (d.takeOutcomes l).status = 0x09 ∧ (d.takeOutcomes l).detail = 5 := by
  obtain ⟨p, hp, h1⟩ := h
  have hkeep : ∀ e : Desc, ∀ a ∈ l, e.status = 0x09 ∧ e.detail = 5 →
      (e.takeOutcome a.1 a.2).status = 0x09 ∧ (e.takeOutcome a.1 a.2).detail = 5 := by
    intro e a ha he
    rwa [takeOutcome_of_timeout (hlt a ha) he.1]
  refine foldl_reaches (P := fun e : Desc => e.status = 0x09 ∧ e.detail = 5)
    (I := fun e : Desc => e.status = 0 ∨ e.status = 0x09 ∧ e.detail = 5) (.inl hd) (fun e a ha he => ?_) hkeep
    ⟨p, hp, fun e he => ?_⟩
  · rcases he with he | he
    · obtain h0 | h1 : a.2.outcome = 0 ∨ a.2.outcome = 1 := by have := hlt a ha; omega
      · exact .inl (by rwa [takeOutcome_zero h0])
      · exact .inr (takeOutcome_one h1 (by rw [he]; rfl))
    · exact .inr (hkeep e a ha he)
  · rcases he with he | he
    · exact takeOutcome_one h1 (by rw [he]; rfl)
    · exact hkeep e p hp he

theorem takeOutcomes_zero (h0 : ∀ p ∈ l, p.2.outcome = 0) : d.takeOutcomes l = d :=
  foldl_keeps (P := fun e : Desc => e = d) rfl fun e a ha he => by rw [takeOutcome_zero (h0 a ha), he]

end Desc

theorem launchComplete_ends {s : State} {h : Nat} {d : Desc} (hd : s.desc? h = some d) (hop : d.opcode = 0x03)
    (hst : d.st = .running) (hph : d.phase = .held) (h0 : d.status = 0)
    (hl : ∀ p ∈ s.launched d, p.2.st = .idle ∨ p.2.st = .halted) :
    Completes (.launchComplete h) s (fun t => ∃ e, t.desc? h = some e ∧ e.st = .finished
      ∧ ((∃ p ∈ s.launched d, p.2.outcome = 3) → e.status = 0x04 ∧ e.detail = BitVec.ofNat 32 d.job)
      ∧ ((∀ p ∈ s.launched d, p.2.outcome ≠ 3) → (∃ p ∈ s.launched d, p.2.outcome = 2) → e.status = 0x02)
      ∧ ((∀ p ∈ s.launched d, p.2.outcome < 2) → (∃ p ∈ s.launched d, p.2.outcome = 1) →
          e.status = 0x09 ∧ e.detail = 5)
      ∧ ((∀ p ∈ s.launched d, p.2.outcome = 0) → e.status = 0)) := by
  obtain rfl := State.handle_of_desc? hd
  refine ⟨s.endLaunch d, ?_, finishedDesc (d.takeOutcomes (s.launched d)), ?_, rfl, Desc.takeOutcomes_torn,
    Desc.takeOutcomes_fault h0, Desc.takeOutcomes_timeout h0, fun h => ?_⟩
  · have hall : (s.launched d).all (fun p => decide (p.2.st = .idle) || decide (p.2.st = .halted)) = true := by
      simpa using hl
    change execLaunchComplete d.handle s = _
    simp [execLaunchComplete, hd, hop, hst, hph, dLaunch, whenOk, hall]
  · exact State.desc?_finishDesc
      (State.desc?_modDesc_self (fun x => x.takeOutcomes (s.launched d)) hd (by simp))
  · rw [Desc.takeOutcomes_zero h]; exact h0

end Sys2Proof.Machine

/-! ### Tables written from a list -/

namespace Sys2Proof.Machine

open Sys2Proof

section

variable {α : Type} (dflt : α)

theorem Tab.get_of_not_mem {t : Tab α} {i : Nat} (h : ∀ p ∈ t, p.1 ≠ i) : Tab.get dflt t i = dflt := by
  induction t with
  | nil => rfl
  | cons p t ih => rw [Tab.get, if_neg (h p (by simp)), ih fun q hq => h q (by simp [hq])]

theorem Tab.get_append_of_not_mem {t : Tab α} {i : Nat} (h : ∀ p ∈ t, p.1 ≠ i) (u : Tab α) :
    Tab.get dflt (t ++ u) i = Tab.get dflt u i := by
  induction t with
  | nil => rfl
  | cons p t ih => rw [List.cons_append, Tab.get, if_neg (h p (by simp)), ih fun q hq => h q (by simp [hq])]

/-- The entries that a list of values stands for, before a table with no entry at the address. -/
theorem Tab.get_listed_append [DecidableEq α] {t : Tab α} {i : Nat} (ht : Tab.get dflt t i = dflt) (l : List α)
    (k : Nat) : Tab.get dflt (listed dflt k l ++ t) i = if k ≤ i then nth dflt l (i - k) else dflt := by
  induction l generalizing k with
  | nil => simpa [listed, nth] using ht
  | cons v l ih =>
    have hv : Tab.get dflt (listed dflt k (v :: l) ++ t) i =
        if k = i then v else Tab.get dflt (listed dflt (k + 1) l ++ t) i := by
      rw [listed]
      split
      next hd =>
        split
        next hk => rw [ih, if_neg (by omega), hd]
        next => rfl
      next => rfl
    rw [hv, ih]
    by_cases hk : k = i
    · simp [hk, nth]
    · rw [if_neg hk]
      by_cases hle : k ≤ i
      · rw [if_pos hle, if_pos (by omega), show i - k = (i - (k + 1)) + 1 by omega, nth]
      · rw [if_neg hle, if_neg (by omega)]

/-- A list spliced into a table reads back at its addresses. -/
theorem Tab.get_splice_of_mem [DecidableEq α] (t : Tab α) {k i : Nat} {l : List α} (hk : k ≤ i)
    (hi : i < k + l.length) : Tab.get dflt (Tab.splice dflt t k l) i = nth dflt l (i - k) := by
  have hafter : Tab.get dflt (t.filter (fun p => decide (k + l.length ≤ p.1))) i = dflt :=
    Tab.get_of_not_mem dflt fun p hp => by simp at hp; omega
  rw [Tab.splice, List.append_assoc, Tab.get_append_of_not_mem dflt (fun p hp => by simp at hp; omega),
    Tab.get_listed_append dflt hafter, if_pos hk]

end

/-! ### What the checks of a LAUNCH read (04_benches.md R134, 05_spatial_pipelines.md R160) -/

/-- The units, the map of the rows and the jobs of the benches stand as they did, and so do the benches. -/
structure SameForLaunch (s t : State) : Prop where
  boot : t.boot = s.boot
  units : t.reg .CAP_UNITS = s.reg .CAP_UNITS
  rows : ∀ n y, t.reg (.BCH_ROW_MAP n y) = s.reg (.BCH_ROW_MAP n y)
  jobs : ∀ n b, t.reg (.BCH_BENCH_CFG n b) = s.reg (.BCH_BENCH_CFG n b)
  benches : ∀ n, (t.stack n).benches = (s.stack n).benches

namespace SameForLaunch

variable {s t u : State}

theorem refl (s : State) : SameForLaunch s s := ⟨rfl, rfl, fun _ _ => rfl, fun _ _ => rfl, fun _ => rfl⟩

theorem trans (h : SameForLaunch s t) (k : SameForLaunch t u) : SameForLaunch s u :=
  ⟨k.boot.trans h.boot, k.units.trans h.units, fun n y => (k.rows n y).trans (h.rows n y),
    fun n b => (k.jobs n b).trans (h.jobs n b), fun n => (k.benches n).trans (h.benches n)⟩

/-- A change of a stack that leaves its benches alone. -/
theorem modStack (s : State) (n : Nat) {f : Stack → Stack} (hf : (f (s.stack n)).benches = (s.stack n).benches) :
    SameForLaunch s (s.modStack n f) :=
  ⟨rfl, rfl, fun _ _ => rfl, fun _ _ => rfl, fun m => State.stack_modStack_keeps s n Stack.benches m hf⟩

theorem modDesc (s : State) (h : Nat) (f : Desc → Desc) : SameForLaunch s (s.modDesc h f) :=
  ⟨rfl, rfl, fun _ _ => rfl, fun _ _ => rfl, fun _ => rfl⟩

theorem quiet (s : State) (r k : Nat) : SameForLaunch s (s.quiet r k) :=
  ⟨rfl, by simp, fun _ _ => by simp, fun _ _ => by simp, fun _ => rfl⟩

theorem takeEgress (s : State) (port queue : Nat) (p : Packet) : SameForLaunch s (s.takeEgress port queue p) := by
  have hreg : ∀ q, q ≠ .SWC_CELL_STATUS → (s.takeEgress port queue p).reg q = s.reg q := fun q hq => by
    simp [State.takeEgress, State.dropReply, State.readCells, State.satFld, State.setFld, hq]
  exact ⟨rfl, hreg _ (by simp), fun _ _ => hreg _ (by simp), fun _ _ => hreg _ (by simp), fun _ => rfl⟩

variable (h : SameForLaunch s t)

include h

theorem intPresent : t.intPresent = s.intPresent := by simp only [State.intPresent, State.bit, State.fld, h.units]

theorem strictPresent : t.strictPresent = s.strictPresent := by
  simp only [State.strictPresent, State.bit, State.fld, h.units]

theorem mayLack : t.mayLack = s.mayLack := by simp only [State.mayLack, h.intPresent, h.strictPresent]

theorem imageLen (d : Desc) : t.imageLen d = s.imageLen d := by simp only [State.imageLen, h.mayLack]

theorem programFlaw (d : Desc) : t.programFlaw d = s.programFlaw d := by
  simp only [State.programFlaw, h.intPresent, h.strictPresent]

theorem vacant (n b : Nat) : t.vacant n b = s.vacant n b := by
  have hbypass : t.fld (.BCH_ROW_MAP n (b / 21)) BCH_ROW_MAP_BYPASS
      = s.fld (.BCH_ROW_MAP n (b / 21)) BCH_ROW_MAP_BYPASS := by rw [State.fld, State.fld, h.rows]
  have hp : t.physical n b = s.physical n b :=
    congrArg (fun bypass => 22 * (b / 21) + (if b % 21 < bypass then b % 21 else b % 21 + 1)) hbypass
  rw [State.vacant, State.vacant, State.unitFailed, State.unitFailed, hp, h.boot]

theorem vacantNamed (d : Desc) : t.vacantNamed d = s.vacantNamed d := by
  simp only [State.vacantNamed, h.vacant]

theorem bench (n b : Nat) : t.bench n b = s.bench n b := by simp only [State.bench, Stack.bench, h.benches]

theorem benchesBad (d : Desc) : t.benchesBad d = s.benchesBad d := by
  simp only [State.benchesBad, State.jobOf, State.fld, h.vacant, h.jobs, h.bench]

end SameForLaunch

/-! ### A packet that has its turn to leave (10_spans_and_routing.md R321) -/

/-- Beside a packet that stands alone at its port nothing else could leave: it goes at once. -/
theorem State.leaveTurn_of_portFree {s : State} {n : Nat} {p : Packet} (h : PortFree s n p) :
    s.leaveTurn n p = some s := by
  obtain ⟨-, hframe, hq⟩ := h
  have hothers : (s.leaving n (queuesP ++ queuesD ++ queuesQ)).filter (fun k => k != p) = [] := by
    refine List.filter_eq_nil_iff.2 fun k hk => ?_
    obtain ⟨q, hmem, hkq⟩ := List.mem_flatMap.1 (List.mem_filter.1 hk).1
    have hq9 : q < 9 := by
      have : ∀ q ∈ queuesP ++ queuesD ++ queuesQ, q < 9 := by decide
      exact this q hmem
    simp [hq q hq9 k hkq]
  simp only [State.leaveTurn, hframe, hothers, List.isEmpty_nil, Bool.false_eq_true, if_false, if_true]

theorem State.mayLeave_of_portFree {s : State} {n : Nat} {p : Packet} (h : PortFree s n p) : s.mayLeave n p = true := by
  simp [State.mayLeave, State.leaveTurn_of_portFree h, h.1]

theorem State.receive_of_portFree {s : State} {n : Nat} {p : Packet} (h : PortFree s n p) :
    s.receive n p = s.takeEgress (intPort n) (pktQueue p) p := by
  simp [State.receive, State.leaveTurn_of_portFree h]

end Sys2Proof.Machine

/-! ### The answer that brings the last of an image (04_benches.md R134; 09_fabric_memory.md R284) -/

namespace Sys2Proof.Machine

open Sys2Proof

/-- The state after an answer has left the switch and its source has been heard, before what it answers moves on. -/
def State.heardFrom (s : State) (n : Nat) (p : Packet) : State :=
  (((s.receive n p).hear n p.src).windowReply n p).countAbsent n p.src

section

variable {s : State} {n : Nat} {p : Packet}

theorem takeAnswer_of_matching {ops : List (BitVec 8)} {r : Req} (hp : PortFree s n p) (hop : p.op ≠ opAck)
    (hbad : (s.forwarded p).poison = false) (hm : (s.stack n).matching p ops = some r) :
    s.takeAnswer n p ops = (s.heardFrom n p).answerReq n r p.payload false := by
  have hm' : ((s.receive n p).stack n).matching p ops = some r := by
    rw [State.receive_of_portFree hp]; exact hm
  simp [State.takeAnswer, hop, hm', hbad, State.heardFrom]

theorem SameForLaunch.heardFrom (hp : PortFree s n p) : SameForLaunch s (s.heardFrom n p) := by
  have hhear : SameForLaunch s ((s.receive n p).hear n p.src) := by
    rw [State.receive_of_portFree hp]
    exact (SameForLaunch.takeEgress s _ _ p).trans (SameForLaunch.modStack _ n rfl)
  have hwin : SameForLaunch s (((s.receive n p).hear n p.src).windowReply n p) := by
    rw [State.windowReply]
    split
    · exact hhear.trans (SameForLaunch.modStack _ n rfl)
    · exact hhear
  rw [State.heardFrom, State.countAbsent]
  split
  · exact hwin.trans (SameForLaunch.quiet _ _ _)
  · exact hwin

theorem State.host_heardFrom (hp : PortFree s n p) : (s.heardFrom n p).host = s.host := by
  rw [State.heardFrom, State.receive_of_portFree hp, State.countAbsent, State.windowReply]
  split <;> split <;> rfl

theorem State.reqs_heardFrom (hp : PortFree s n p) (m : Nat) :
    ((s.heardFrom n p).stack m).reqs = (s.stack m).reqs := by
  have hhear : (((s.takeEgress (intPort n) (pktQueue p) p).hear n p.src).stack m).reqs = (s.stack m).reqs :=
    State.stack_modStack_keeps _ n Stack.reqs m rfl
  have hwin : ((((s.takeEgress (intPort n) (pktQueue p) p).hear n p.src).windowReply n p).stack m).reqs
      = (s.stack m).reqs := by
    rw [State.windowReply]
    split
    · exact (State.stack_modStack_keeps _ n Stack.reqs m rfl).trans hhear
    · exact hhear
  rw [State.heardFrom, State.receive_of_portFree hp, State.countAbsent]
  split
  · exact hwin
  · exact hwin

/-- The operations that a request answered by the packet may have. -/
theorem Stack.op_of_matching {k : Stack} {ops : List (BitVec 8)} {r : Req} (h : k.matching p ops = some r) :
    r.op ∈ ops := by
  have := List.find?_some h
  simp at this
  exact this.2

end

/-- The answer brings the rest of the image: what a LAUNCH then does is the check of its whole image. -/
theorem data_checks_image {s : State} {n : Nat} {p : Packet} {d e : Desc} (hc : ImageCame s n p d e) :
    ∃ u : State, exec (.data n p) s = .next ((u.checkImage e).moveDesc 5 d.handle)
      ∧ u.desc? d.handle = some e ∧ u.descReqs e = [] ∧ SameForLaunch s u := by
  obtain ⟨hn, hstack, hd, hop, hst, hph, h0, hpop, hport, hpoison, ⟨r, hmatch, hreqs, rfl⟩, hlen⟩ := hc
  subst hstack
  obtain hrop : r.op = 1 := by simpa using Stack.op_of_matching hmatch
  have hsrc : r.src = d.src := by
    have : r ∈ s.descReqs d := by simp [hreqs]
    simpa [State.descReqs] using (List.mem_filter.1 this).2
  let e : Desc := { d with data := d.data ++ (p.payload ++ List.replicate r.len 0).take r.len }
  let g : Req → Req := fun q =>
    { q with st := .done, reply := (p.payload ++ zeros r.len).take r.len, poisoned := false }
  let v := (s.heardFrom d.stack p).modReq d.stack r.id g
  have hv : SameForLaunch s v := (SameForLaunch.heardFrom hport).trans (SameForLaunch.modStack _ _ rfl)
  have hvd : v.desc? d.handle = some d := by
    show (s.heardFrom d.stack p).desc? d.handle = some d
    rw [State.desc?, State.host_heardFrom hport]
    exact hd
  have hvr : v.descReqs d = [g r] := by
    have : v.descReqs d = (s.descReqs d).map (fun q => if q.id = r.id then g q else q) := by
      simp only [State.descReqs, v, State.modReq, State.stack_modStack, if_true, State.reqs_heardFrom hport,
        List.filter_map]
      congr 1
      refine List.filter_congr fun q _ => ?_
      by_cases hq : q.id = r.id <;> simp [hq, g]
    simp [this, hreqs]
  let u := (v.dropDescReqs d).modDesc d.handle (fun _ => e)
  have hu : SameForLaunch s u :=
    (hv.trans (SameForLaunch.modStack _ _ rfl)).trans (SameForLaunch.modDesc _ _ _)
  have hrep : v.descReplies d = (p.payload ++ List.replicate r.len 0).take r.len := by
    simp [State.descReplies, hvr, g, zeros]
  have hphase : v.phaseEnd d = u.checkImage e := by
    have hread : u.imageRead e = u.checkImage e := by
      have hlen' : e.data.length = u.imageLen e := hlen.trans (hu.imageLen e).symm
      rw [State.imageRead, if_neg (by simp [hlen']), List.take_of_length_le (Nat.le_of_eq hlen')]
    rw [← hread]
    simp [State.phaseEnd, hph, hvr, hrep, g, hop, dLaunch, u, e]
  have hmove : v.moveDesc moveFuel d.handle = (u.checkImage e).moveDesc 5 d.handle := by
    rw [moveFuel, State.moveDesc, hvd]
    simp [hst, hvr, hph, hphase, g]
  refine ⟨u, ?_, State.desc?_modDesc_self _ hvd fun _ _ => rfl, ?_, hu⟩
  · have hans : (s.heardFrom d.stack p).answerReq d.stack r p.payload false = v.moveDesc moveFuel d.handle := by
      simp only [State.answerReq, hrop, hsrc]
      rfl
    have hmay : (p.op == opData && s.mayLeave d.stack p) = true := by
      simp [hpop, opData, State.mayLeave_of_portFree hport]
    have htake : s.takeAnswer d.stack p [opLoad] = (s.heardFrom d.stack p).answerReq d.stack r p.payload false :=
      takeAnswer_of_matching hport (by simp [hpop, opAck]) hpoison hmatch
    change execData d.stack p s = _
    simp only [execData, onStack, hn, if_true, whenOk, hmay, htake, hans, hmove, e]
  · exact State.descReqs_dropDescReqs v d

end Sys2Proof.Machine

/-! ### The checks of a whole image (04_benches.md R134, 05_spatial_pipelines.md R160) -/

namespace Sys2Proof.Machine

open Sys2Proof

section

variable {s : State} {e : Desc}

/-- A LAUNCH of which nothing is at the abutment has read what its descriptor holds. -/
theorem State.imageSoFar_of_noReqs (hr : s.descReqs e = []) : s.imageSoFar e = e := by
  simp [State.imageSoFar, hr]

variable (hd : s.desc? e.handle = some e) (hst : e.st = .running) (hph : e.phase = .source) (h0 : e.status = 0)
  (hr : s.descReqs e = [])

include hd hst hph h0 hr

/-- A LAUNCH that fails once its image is read ends with the failure, where the image needs no absent unit. -/
theorem failDesc_ends_of_flaw {status detail : Nat} (hf : s.programFlaw e ≠ .absent) (fuel : Nat) :
    DescEnded e.handle (BitVec.ofNat 8 status) (BitVec.ofNat 32 detail)
      ((s.failDesc e.handle status detail).moveDesc fuel e.handle) := by
  have habs : s.showsAbsent e = false := by simp [State.showsAbsent, State.imageSoFar_of_noReqs hr, hf]
  have h := State.desc?_failDesc status detail hd (by simp [hst]) (by simp [hph]) h0 hr
  rw [State.moveDesc_finished fuel h rfl]
  exact ⟨_, h, rfl, by simp [finishedDesc, habs], by simp [finishedDesc, habs]⟩

omit h0 in
theorem checkImage_absent (hf : s.programFlaw e = .absent) (fuel : Nat) :
    DescEnded e.handle 0x01 0 ((s.checkImage e).moveDesc fuel e.handle) := by
  let t := s.modDesc e.handle (fun x => { x with status := 0 })
  have ht : t.desc? e.handle = some { e with status := 0 } := State.desc?_modDesc_self _ hd (by simp)
  have h := State.desc?_failDesc stAbsent 0 ht (by simp [hst]) (by simp [hph]) rfl hr
  have hcheck : s.checkImage e = t.failDesc e.handle stAbsent 0 := by simp only [State.checkImage, hf, t]
  rw [hcheck, State.moveDesc_finished fuel h rfl]
  exact ⟨_, h, rfl, by simp [finishedDesc, stAbsent], by simp [finishedDesc]⟩

theorem checkImage_badDesc
    (hf : s.programFlaw e = .badDesc ∨ s.programFlaw e = .none ∧ (e.headerBad = true ∨ s.benchesBad e = true))
    (fuel : Nat) : DescEnded e.handle 0x08 8 ((s.checkImage e).moveDesc fuel e.handle) := by
  have hcheck : s.checkImage e = s.failDesc e.handle stBad 8 := by
    rcases hf with hf | ⟨hf, hb⟩
    · simp only [State.checkImage, hf]
    · simp only [State.checkImage, hf]
      rw [if_pos (by simpa using hb)]
  rw [hcheck]
  refine failDesc_ends_of_flaw hd hst hph h0 hr ?_ fuel
  rcases hf with hf | ⟨hf, -⟩ <;> simp [hf]

variable (hf : s.programFlaw e = .none) (hh : e.headerBad = false) (hb : s.benchesBad e = false)

include hf hh hb

theorem checkImage_vacant {b : Nat} (hv : s.vacantNamed e = some b) (fuel : Nat) :
    DescEnded e.handle 0x02 (BitVec.ofNat 32 b) ((s.checkImage e).moveDesc fuel e.handle) := by
  have hcheck : s.checkImage e = s.failDesc e.handle stFault b := by simp [State.checkImage, hf, hh, hb, hv]
  rw [hcheck]
  exact failDesc_ends_of_flaw hd hst hph h0 hr (by simp [hf]) fuel

omit hd hst hph hr in
theorem checkImage_starts (hv : s.vacantNamed e = none) : s.checkImage e = s.startLaunch e := by
  simp [State.checkImage, hf, hh, hb, hv, h0]

end

/-! ### The contexts of a LAUNCH start (04_benches.md R135; 16_power.md R481) -/

/-- A bench with the program of a LAUNCH and its contexts started. -/
def Bench.launched (x : Bench) (now : Nat) (d : Desc) (b : Nat) : Bench :=
  d.starts.foldl (fun z c => z.setCtx c ((z.ctx c).start now d b c))
    { x with prog := Tab.splice 0 x.prog 0 d.program, bundles := d.imageCount }

section

variable (x : Bench) (now : Nat) (d : Desc) (b : Nat)

/-- Starting some contexts changes each of them once, and no other. -/
theorem Bench.ctx_foldl_start (l : List Nat) (hl : l.Nodup) (j : Nat) :
    (l.foldl (fun z c => z.setCtx c ((z.ctx c).start now d b c)) x).ctx j =
      if j ∈ l then (x.ctx j).start now d b j else x.ctx j := by
  induction l generalizing x with
  | nil => simp
  | cons c l ih =>
    obtain ⟨hc, hl⟩ := List.nodup_cons.1 hl
    rw [List.foldl_cons, ih _ hl]
    by_cases hj : j = c
    · subst hj; simp [hc]
    · simp [hj]

theorem Bench.ctx_launched (j : Nat) :
    (x.launched now d b).ctx j = if j ∈ d.starts then (x.ctx j).start now d b j else x.ctx j :=
  Bench.ctx_foldl_start _ now d b d.starts (List.nodup_range.filter _) j

theorem Bench.prog_launched : (x.launched now d b).prog = Tab.splice 0 x.prog 0 d.program :=
  foldl_keeps (P := fun z : Bench => z.prog = Tab.splice 0 x.prog 0 d.program) rfl fun _ _ _ hz => hz

theorem Bench.bundles_launched : (x.launched now d b).bundles = d.imageCount :=
  foldl_keeps (P := fun z : Bench => z.bundles = d.imageCount) rfl fun _ _ _ hz => hz

end

section

variable (s : State) (d : Desc)

theorem State.bench_endBallast (n b m c : Nat) : (s.endBallast n b).bench m c = s.bench m c := by
  have h : (s.modStack n (fun k => { k with ballast := k.ballast.filter (· != b) })).bench m c = s.bench m c :=
    State.stack_modStack_keeps s n (fun k => k.bench c) m rfl
  rw [State.endBallast]
  split
  · exact h
  · exact h

theorem State.ballast_endBallast (n b : Nat) :
    ((s.endBallast n b).stack n).ballast = (s.stack n).ballast.filter (· != b) := by
  have h : ((s.modStack n (fun k => { k with ballast := k.ballast.filter (· != b) })).stack n).ballast
      = (s.stack n).ballast.filter (· != b) := by simp
  rw [State.endBallast]
  split
  · exact h
  · exact h

theorem State.endBallast_keeps (n b : Nat) : (s.endBallast n b).host = s.host ∧ (s.endBallast n b).now = s.now := by
  rw [State.endBallast]
  split <;> exact ⟨rfl, rfl⟩

/-- The outcomes of the contexts that a LAUNCH takes over, left with the LAUNCHES that had started them. -/
def State.leaveOutcomes (s : State) (d : Desc) (b : Nat) : State :=
  d.starts.foldl (fun u c =>
    u.modDesc ((s.bench d.stack b).ctx c).launch (fun e =>
      if e.opcode = dLaunch ∧ e.stack = d.stack ∧ e.phase = .held
      then e.takeOutcome b ((s.bench d.stack b).ctx c) else e)) s

theorem State.startBench_eq (b : Nat) :
    s.startBench d b = ((s.leaveOutcomes d b).endBallast d.stack b).modBench d.stack b
      (fun y => y.launched s.now d b) := rfl

/-- Only descriptors change, and of them none but those that hold. -/
theorem State.leaveOutcomes_keeps (b : Nat) :
    (s.leaveOutcomes d b).stackTab = s.stackTab ∧ (s.leaveOutcomes d b).now = s.now
      ∧ ∀ h e, s.desc? h = some e → e.phase ≠ .held → (s.leaveOutcomes d b).desc? h = some e := by
  refine foldl_keeps (P := fun t : State => t.stackTab = s.stackTab ∧ t.now = s.now
    ∧ ∀ h e, s.desc? h = some e → e.phase ≠ .held → t.desc? h = some e) ⟨rfl, rfl, fun _ _ h _ => h⟩ ?_
  intro t c _ ht
  obtain ⟨htab, hnow, hdesc⟩ := ht
  refine ⟨htab, hnow, fun h e he hph => ?_⟩
  rw [State.desc?_modDesc _ fun e' he' => by split <;> simp [he']]
  split
  next hh => rw [← hh, hdesc h e he hph]; simp [hph]
  next => exact hdesc h e he hph

theorem State.bench_startBench (b c : Nat) :
    (s.startBench d b).bench d.stack c =
      if c = b then (s.bench d.stack b).launched s.now d b else s.bench d.stack c := by
  obtain ⟨htab, -, -⟩ := State.leaveOutcomes_keeps s d b
  have hb : ∀ c, ((s.leaveOutcomes d b).endBallast d.stack b).bench d.stack c = s.bench d.stack c := fun c => by
    rw [State.bench_endBallast, State.bench, State.stack, htab]; rfl
  rw [State.startBench_eq, State.bench_modBench]
  simp [hb]

theorem State.ballast_startBench (b : Nat) :
    ((s.startBench d b).stack d.stack).ballast = (s.stack d.stack).ballast.filter (· != b) := by
  obtain ⟨htab, -, -⟩ := State.leaveOutcomes_keeps s d b
  rw [State.startBench_eq, State.stack_modBench, if_pos rfl]
  show (((s.leaveOutcomes d b).endBallast d.stack b).stack d.stack).ballast = _
  rw [State.ballast_endBallast, State.stack, htab]
  rfl

theorem State.now_startBench (b : Nat) : (s.startBench d b).now = s.now := by
  obtain ⟨-, hnow, -⟩ := State.leaveOutcomes_keeps s d b
  rw [State.startBench_eq, State.modBench_now, (State.endBallast_keeps _ _ _).2, hnow]

theorem State.desc?_startBench {h : Nat} {e : Desc} (b : Nat) (he : s.desc? h = some e) (hph : e.phase ≠ .held) :
    (s.startBench d b).desc? h = some e := by
  obtain ⟨-, -, hdesc⟩ := State.leaveOutcomes_keeps s d b
  show ((s.leaveOutcomes d b).endBallast d.stack b).desc? h = _
  rw [State.desc?, (State.endBallast_keeps _ _ _).1]
  exact hdesc h e he hph

/-- The named benches started in turn: each as it would be alone. -/
theorem State.foldl_startBench (l : List Nat) (hl : l.Nodup) (t : State) :
    (∀ c, (l.foldl (fun u b => u.startBench d b) t).bench d.stack c =
        if c ∈ l then (t.bench d.stack c).launched t.now d c else t.bench d.stack c)
      ∧ (∀ c, c ∈ ((l.foldl (fun u b => u.startBench d b) t).stack d.stack).ballast →
        c ∈ (t.stack d.stack).ballast ∧ c ∉ l) := by
  induction l generalizing t with
  | nil => simp
  | cons b l ih =>
    obtain ⟨hb, hl⟩ := List.nodup_cons.1 hl
    obtain ⟨hbench, hball⟩ := ih hl (t.startBench d b)
    refine ⟨fun c => ?_, fun c hc => ?_⟩
    · rw [List.foldl_cons, hbench, State.now_startBench, State.bench_startBench]
      by_cases hcb : c = b
      · subst hcb; simp [hb]
      · simp [hcb]
    · obtain ⟨hmem, hnot⟩ := hball c hc
      rw [State.ballast_startBench] at hmem
      simp at hmem
      exact ⟨hmem.1, by simp [hmem.2, hnot]⟩

end

end Sys2Proof.Machine

/-! ### A LAUNCH starts and ends -/

namespace Sys2Proof.Machine

open Sys2Proof

section

variable (s : State) (d : Desc)

theorem State.desc?_startLaunch (hd : s.desc? d.handle = some d) (hph : d.phase ≠ .held) :
    (s.startLaunch d).desc? d.handle = some { d with st := .running, phase := .held, engine := 0 } := by
  have ht : (d.named.foldl (fun u b => u.startBench d b) s).desc? d.handle = some d :=
    foldl_keeps (P := fun t : State => t.desc? d.handle = some d) hd
      fun t b _ ht => State.desc?_startBench t d b ht hph
  exact State.desc?_modDesc_self _ ht (by simp)

theorem State.bench_startLaunch {b : Nat} (hb : b ∈ d.named) :
    (s.startLaunch d).bench d.stack b = (s.bench d.stack b).launched s.now d b := by
  obtain ⟨hbench, -⟩ := State.foldl_startBench d d.named (List.nodup_range.filter _) s
  have h := hbench b
  rw [if_pos hb] at h
  rw [← h, State.bench, State.bench]
  simp only [State.startLaunch, State.stack_modDesc]
  exact State.stack_modStack_keeps _ d.stack (fun k => k.bench b) d.stack rfl

theorem State.ballast_startLaunch {b : Nat} (hb : b ∈ d.named) :
    b ∉ ((s.startLaunch d).stack d.stack).ballast := by
  obtain ⟨-, hball⟩ := State.foldl_startBench d d.named (List.nodup_range.filter _) s
  have hkeep : ((s.startLaunch d).stack d.stack).ballast
      = ((d.named.foldl (fun u b => u.startBench d b) s).stack d.stack).ballast := by
    simp only [State.startLaunch, State.stack_modDesc]
    exact State.stack_modStack_keeps _ d.stack Stack.ballast d.stack rfl
  rw [hkeep]
  exact fun hmem => (hball b hmem).2 hb

end

/-- What a LAUNCH that has read its whole image and found it right leaves. -/
theorem checkImage_started {s : State} {e : Desc} (hd : s.desc? e.handle = some e) (hst : e.st = .running)
    (hph : e.phase = .source) (h0 : e.status = 0) (hf : s.programFlaw e = .none) (hh : e.headerBad = false)
    (hb : s.benchesBad e = false) (hv : s.vacantNamed e = none) (fuel : Nat) {t : State}
    (ht : t = (s.checkImage e).moveDesc fuel e.handle) :
    t.desc? e.handle = some { e with phase := .held, engine := 0 }
      ∧ ∀ b ∈ e.named, b ∉ (t.stack e.stack).ballast
        ∧ t.bench e.stack b = (s.bench e.stack b).launched s.now e b := by
  have hdesc := State.desc?_startLaunch s e hd (by simp [hph])
  have hstay : t = s.startLaunch e := by
    rw [ht, checkImage_starts h0 hf hh hb hv, State.moveDesc_stays fuel hdesc rfl (.inl rfl)]
  rw [hstay]
  refine ⟨by rw [hdesc, ← hst], fun b hb => ⟨State.ballast_startLaunch s e hb, State.bench_startLaunch s e hb⟩⟩

/-- Settles O27: the image's read, its checks in their order on the state that the last answer leaves, the start bench by
bench, and the fold of the outcomes. -/
theorem launchStartsAndCompletes : Obligations.LaunchStartsAndCompletes := by
  unfold Obligations.LaunchStartsAndCompletes
  intro s h d hd hop
  refine ⟨fun x hst hb hs hx hr hn => launch_reads_image hd hop hst hb hs hx hr hn,
    fun hst hph h0 hl hb hr => launch_fails_at_once hd hop hst hph h0 hl hb hr, fun n p e hh hc => ?_,
    fun hst hph h0 hl => launchComplete_ends hd hop hst hph h0 hl⟩
  subst hh
  obtain ⟨u, hexec, hu, hnone, hsame⟩ := data_checks_image hc
  obtain ⟨-, hstack, -, -, hst, hph, h0, -, -, -, ⟨r, -, -, he⟩, -⟩ := hc
  have hhandle : d.handle = e.handle := by rw [he]
  have hest : e.st = .running := by rw [he]; exact hst
  have heph : e.phase = .source := by rw [he]; exact hph
  have he0 : e.status = 0 := by rw [he]; exact h0
  have hestack : e.stack = n := by rw [he]; exact hstack
  clear he
  rw [hhandle] at hexec hu ⊢
  rw [← hsame.programFlaw, ← hsame.benchesBad, ← hsame.vacantNamed]
  refine ⟨fun hf => ⟨_, hexec, checkImage_absent hu hest heph hnone hf 5⟩,
    fun hf => ⟨_, hexec, checkImage_badDesc hu hest heph he0 hnone hf 5⟩,
    fun b hf hhd hb hv => ⟨_, hexec, checkImage_vacant hu hest heph he0 hnone hf hhd hb hv 5⟩,
    fun hf hhd hb hv => ⟨_, hexec, ?_⟩⟩
  obtain ⟨hdesc, hbenches⟩ := checkImage_started hu hest heph he0 hf hhd hb hv 5 rfl
  refine ⟨hdesc, fun b hbn => ?_⟩
  obtain ⟨hball, hbench⟩ := hbenches b hbn
  rw [hestack] at hball hbench
  have hctx : ∀ j, ((u.checkImage e).moveDesc 5 e.handle).ctx ⟨n, b, j⟩ =
      if j ∈ e.starts then (s.ctx ⟨n, b, j⟩).start u.now e b j else s.ctx ⟨n, b, j⟩ := fun j => by
    rw [State.ctx, hbench, Bench.ctx_launched, hsame.bench]; rfl
  refine ⟨hball, by rw [hbench, Bench.bundles_launched], fun i hi => ?_, fun j _ hj => ?_, fun c hc x hx => ?_⟩
  · rw [hbench, Bench.prog_launched, Tab.get_splice_of_mem 0 _ (Nat.zero_le i) (by omega), Nat.sub_zero]
  · rw [hctx, if_neg hj]
  · rw [hctx, if_pos hc] at hx
    subst hx
    refine ⟨rfl, rfl, rfl, rfl, fun r => ?_, fun v i => rfl, rfl, rfl, rfl, rfl⟩
    rw [Ctx.sreg]
    split <;> rfl

end Sys2Proof.Machine

/-! ### Where a register lies (19_register_map.md Tables 19-1 and 19-2) -/

namespace Sys2Proof.Machine

open Sys2Proof

/-- The register's offset is of 64 bits, names it and no other, and lies outside the MSI-X structures. -/
def Placed (r : Reg) : Prop :=
  r.offset % 8 = 0 ∧ regAt r.offset = some r ∧ inMsix r.offset = false ∧ inMsix (r.offset + 4) = false

theorem placed_module : ∀ r ∈ [Reg.HOSTIF_NOTIFY, .BEAT_STATUS, .PWR_EVENTS, .PWR_LIMITS, .CAP_UNITS, .SWC_CELL_CFG,
    .SWC_ROUTE_CFG, .SWC_TENANT_Q], Placed r := by
  unfold Placed
  decide +kernel

theorem placed_rackRoute : ∀ k, k < 64 → ∀ r ∈ [Reg.SWC_RACK_ROUTE_GW k, .SWC_RACK_ROUTE_VIA k], Placed r := by
  unfold Placed
  decide +kernel

theorem placed_port : ∀ p, p < 36 → ∀ r ∈ [Reg.PORT_SHARE p, .PORT_FWD p], Placed r := by
  unfold Placed
  decide +kernel

theorem placed_stack : ∀ n, n < 8 → ∀ r ∈ [Reg.MEM_STATUS n, .ABT_THROTTLE n, .HCORE_CFG n, .HCORE_EVT_IDX n,
    .ABT_METER n, .MEM_CFG n], Placed r := by
  unfold Placed
  decide +kernel

/-- The MSI-X structures lie below the stacks' blocks. -/
theorem inMsix_of_stack {o : Nat} (h : 0x1000000 ≤ o) : inMsix o = false := by
  rw [inMsix, decide_eq_false (p := o < msixTableAt + 1024) (by rw [msixTableAt]; omega),
    decide_eq_false (p := o < msixPbaAt + 8) (by rw [msixPbaAt]; omega), Bool.and_false, Bool.and_false, Bool.or_false]

theorem indexAt_of_below {o base stride count : Nat} (h : o < base) : indexAt o base stride count = none :=
  if_neg (by omega)

theorem indexAt_of_above {o base stride count : Nat} (hs : 0 < stride) (h : base + stride * count ≤ o) :
    indexAt o base stride count = none := by
  have hle : count ≤ (o - base) / stride := (Nat.le_div_iff_mul_le hs).2 (by rw [Nat.mul_comm]; omega)
  exact if_neg (by omega)

theorem regAtStack_ctxCtrl {n b i o : Nat} (hb : b < 336) (hi : i < 8) (ho : o = 0x210008 + 0x800 * b + 0x40 * i) :
    regAtStack n o = some (.BCH_CTX_CTRL n b i) := by
  have hbench : (o - 0x210000) / 0x800 = b := by omega
  have hreg : (o - 0x210000) % 0x800 = 0x40 * i + 8 := by omega
  have hctx : (0x40 * i + 8) / 0x40 = i := by omega
  unfold regAtStack
  split
  case h_30 =>
    rw [indexAt_of_above (by omega) (by omega), indexAt_of_above (by omega) (by omega), indexAt_of_below (by omega),
      indexAt_of_below (by omega), indexAt_of_below (by omega)]
    simp only [Option.map_none, firstSome, hbench, hreg, hctx]
    rw [if_pos (by omega), if_neg (by omega), if_neg (by omega), if_neg (by omega), if_pos (by omega), firstSome]
  all_goals omega

theorem placed_ctxCtrl {c : CtxId} (hc : c.wf = true) : Placed (.BCH_CTX_CTRL c.stack c.bench c.ctx) := by
  obtain ⟨n, b, i⟩ := c
  simp only [CtxId.wf, Bool.and_eq_true, decide_eq_true_eq] at hc
  obtain ⟨⟨hn, hb⟩, hi⟩ := hc
  refine ⟨by simp only [Reg.offset]; omega, ?_, ?_, ?_⟩
  · have hs : (Reg.BCH_CTX_CTRL n b i).offset - 0x1000000 = 0x400000 * n + (0x210008 + 0x800 * b + 0x40 * i) := by
      simp only [Reg.offset]; omega
    rw [regAt, if_neg (by simp only [Reg.offset]; omega), if_pos (by simp only [Reg.offset]; omega), hs,
      show (0x400000 * n + (0x210008 + 0x800 * b + 0x40 * i)) / 0x400000 = n by omega,
      show (0x400000 * n + (0x210008 + 0x800 * b + 0x40 * i)) % 0x400000 = 0x210008 + 0x800 * b + 0x40 * i by omega,
      regAtStack_ctxCtrl hb hi rfl]
  · exact inMsix_of_stack (by simp only [Reg.offset]; omega)
  · exact inMsix_of_stack (by simp only [Reg.offset]; omega)

theorem PlainReg.placed {r : Reg} (h : PlainReg r) : Placed r := by
  obtain h | ⟨k, hk, h⟩ | ⟨p, hp, h⟩ | ⟨n, hn, h⟩ := h
  · exact placed_module r h
  · exact placed_rackRoute k hk r h
  · exact placed_port p hp r h
  · exact placed_stack n hn r (List.mem_append_left [Reg.ABT_METER n, .MEM_CFG n] h)

/-- A write of a plain register has no effect but its own bits'. -/
theorem PlainReg.wrReg {r : Reg} (h : PlainReg r) (s : State) (v live : Word) :
    s.wrReg r v live = s.plainWrite r v live := by
  simp only [PlainReg, List.mem_cons, List.not_mem_nil, or_false] at h
  obtain (rfl | rfl | rfl | rfl | rfl | rfl | rfl | rfl) | ⟨k, -, rfl | rfl⟩ | ⟨p, -, rfl | rfl⟩
    | ⟨n, -, rfl | rfl | rfl | rfl⟩ := h
  all_goals rfl

/-! ### The bits that a write reaches (00_scope.md R7, R14) -/

/-- No bit of a register is both replaced and cleared by a write. -/
theorem Reg.rw_and_w1c (r : Reg) : r.access.rw &&& r.access.w1c = 0 := by
  unfold Reg.access
  split <;> decide

theorem getLsbD_mergeWrite (old v live : Word) (r : Reg) (i : Nat) (hi : i < 64) :
    (mergeWrite old v live r.access).getLsbD i =
      if live.getLsbD i = true ∧ r.access.rw.getLsbD i = true then v.getLsbD i
      else old.getLsbD i && !(live.getLsbD i && r.access.w1c.getLsbD i && v.getLsbD i) := by
  have hdisj : (r.access.rw.getLsbD i && r.access.w1c.getLsbD i) = false := by
    rw [← BitVec.getLsbD_and, Reg.rw_and_w1c]
    exact BitVec.getLsbD_zero
  have hbits : (mergeWrite old v live r.access).getLsbD i =
      ((old.getLsbD i && !(r.access.rw.getLsbD i && live.getLsbD i)
        || v.getLsbD i && (r.access.rw.getLsbD i && live.getLsbD i))
        && !(v.getLsbD i && r.access.w1c.getLsbD i && live.getLsbD i)) := by
    simp [mergeWrite, hi]
  rw [hbits]
  split
  next h =>
    obtain ⟨hlive, hrw⟩ := h
    have hw1c : r.access.w1c.getLsbD i = false := by simpa [hrw] using hdisj
    simp [hlive, hrw, hw1c]
  next h =>
    have hkept : (r.access.rw.getLsbD i && live.getLsbD i) = false := by
      rw [Bool.and_comm]; simpa using h
    rw [hkept, Bool.not_false, Bool.and_true, Bool.and_false, Bool.or_false]
    ac_rfl

theorem regBits_plainWrite {s t : State} (r : Reg) (v live : Word) (h : ∀ q, t.reg q = s.reg q) :
    RegBits r v live s (t.plainWrite r v live) := by
  refine ⟨fun i hi => ?_, fun q hq => ?_⟩
  · rw [State.plainWrite, State.reg_setReg, if_pos rfl, h, getLsbD_mergeWrite _ _ _ _ _ hi]
  · rw [State.plainWrite, State.reg_setReg, if_neg (by simpa using hq), h]

/-- The write of a register's own bits, from a state of which at most the latches have changed. -/
theorem regWritten_plainWrite {s t : State} (r : Reg) (v live : Word) (h : { t with latches := s.latches } = s) :
    RegWritten r v live s (t.plainWrite r v live) := by
  have hreg : ∀ q, ({ t with latches := s.latches } : State).reg q = s.reg q := fun q => by rw [h]
  have hregs : t.regs = s.regs := by rw [← h]
  refine ⟨regBits_plainWrite r v live hreg, ?_⟩
  calc { t.plainWrite r v live with regs := s.regs, latches := s.latches }
      = { t with regs := s.regs, latches := s.latches } := rfl
    _ = s := by rw [← hregs]; exact h

/-! ### The access at a register's place (00_scope.md R11 to R14; 19_register_map.md R547) -/

section

variable (s : State) (who : Requester) (o : Nat)

@[simp] theorem State.permit_dropLatch (who' : Requester) (r : Reg) :
    (s.dropLatch who o).permit who' r = s.permit who' r := rfl

@[simp] theorem State.latch?_dropLatch : (s.dropLatch who o).latch? who o = none := by
  simp [State.latch?, State.dropLatch, List.find?_eq_none]

@[simp] theorem State.latch?_setLatch (v : BitVec 32) : (s.setLatch who o v).latch? who o = some v := by
  simp [State.latch?, State.setLatch]

theorem latchKey_half (h : o % 8 = 0) : latchKey who (o + 4) = latchKey who o := by
  rw [latchKey, latchKey, show o + 4 - (o + 4) % 8 = o - o % 8 by omega]

theorem State.latch?_half (h : o % 8 = 0) : s.latch? who (o + 4) = s.latch? who o := by
  rw [State.latch?, State.latch?, latchKey_half who o h]

theorem State.dropLatch_half (h : o % 8 = 0) : s.dropLatch who (o + 4) = s.dropLatch who o := by
  rw [State.dropLatch, State.dropLatch, latchKey_half who o h]

end

section

variable {s : State} {who : Requester} {r : Reg}

theorem State.onWrite_of_ok (h : s.permit who r = .ok) (eff : State → State) : s.onWrite who r eff = eff s := by
  rw [State.onWrite, h]

theorem State.onWord_of_ok (h : s.permit who r = .ok) (eff : State → State) :
    s.onWord who r eff = eff (s.dropLatch who r.offset) :=
  State.onWrite_of_ok (by simpa using h) eff

variable (hr : Placed r) (eff : State → Reg → Word → Word → State) (v : Word)

include hr

theorem State.writeAt_word :
    s.writeAt eff who r.offset 8 v = s.onWord who r (fun t => eff t r v wholeWrite) := by
  obtain ⟨h8, hat, hm, -⟩ := hr
  simp [State.writeAt, accessOk, h8, hm, hat]

theorem State.writeAt_lower :
    s.writeAt eff who r.offset 4 v = s.onWrite who r (fun t => t.setLatch who r.offset (v.setWidth 32)) := by
  obtain ⟨h8, hat, hm, -⟩ := hr
  simp [State.writeAt, accessOk, h8, hm, hat, show r.offset % 4 = 0 by omega]

theorem State.writeAt_upper_latched {lo : BitVec 32} (hl : s.latch? who r.offset = some lo) :
    s.writeAt eff who (r.offset + 4) 4 v =
      s.onWord who r (fun t => eff t r (joinHalves (v.setWidth 32) lo) wholeWrite) := by
  obtain ⟨h8, hat, -, hm⟩ := hr
  simp [State.writeAt, State.onWord, accessOk, hm, hat, show (r.offset + 4) % 4 = 0 by omega,
    show r.offset + 4 - (r.offset + 4) % 8 = r.offset by omega, show (r.offset + 4) % 8 ≠ 0 by omega,
    State.latch?_half s who _ h8, State.dropLatch_half s who _ h8, hl]

theorem State.writeAt_upper_alone (hl : s.latch? who r.offset = none) : s.writeAt eff who (r.offset + 4) 4 v =
    s.onWrite who r (fun t => eff t r (joinHalves (v.setWidth 32) 0) upperWrite) := by
  obtain ⟨h8, hat, -, hm⟩ := hr
  simp [State.writeAt, accessOk, hm, hat, show (r.offset + 4) % 4 = 0 by omega,
    show r.offset + 4 - (r.offset + 4) % 8 = r.offset by omega, show (r.offset + 4) % 8 ≠ 0 by omega,
    State.latch?_half s who _ h8, hl]

end

end Sys2Proof.Machine

/-! ### Accesses at an offset: REGISTER_WRITE (00_scope.md R7, R11 to R14; 19_register_map.md R547, R553) -/

namespace Sys2Proof.Machine

open Sys2Proof

section

variable {s : State} {who : Requester} {o bytes : Nat} {v : Word}

theorem completes_registerWrite {a : BarAccess} {P : State → Prop} (h : P (s.barAccess who a)) :
    Completes (.registerWrite who (.one a)) s P := ⟨_, rfl, h⟩

theorem State.barAccess_write (h : s.reaches who o = true) :
    s.barAccess who ⟨true, o, bytes, v⟩ = s.writeAt State.wrReg who o bytes v := by
  simp [State.barAccess, h]

theorem State.barAccess_read (h : s.boot.bar0 = true) :
    s.barAccess .bar0 ⟨false, o, bytes, v⟩ =
      (s.readAt .bar0 o bytes).2.emit (.readData (s.readAt .bar0 o bytes).1) := by
  simp [State.barAccess, State.reaches, State.putRead, h]

theorem State.readAt_word {r : Reg} (hr : Placed r) (h : s.readable r.offset = true) :
    s.readAt who r.offset 8 = (s.readReg who r, s) := by
  obtain ⟨h8, hat, hm, -⟩ := hr
  simp [State.readAt, accessOk, part, h8, hat, hm, h]

/-- An access of a bad size or alignment, or to an offset that names nothing, is counted (R12, R545). -/
theorem State.writeAt_counted (eff : State → Reg → Word → Word → State)
    (h : accessOk o bytes = false ∨ regAt (o - o % 8) = none ∧ inMsix o = false) :
    s.writeAt eff who o bytes v = s.countOff o := by
  obtain h | ⟨hat, hm⟩ := h
  · simp [State.writeAt, h]
  · simp [State.writeAt, hat, hm]

theorem State.readAt_counted (h : accessOk o bytes = false ∨ regAt (o - o % 8) = none ∧ inMsix o = false) :
    (s.readAt who o bytes).2 = s.countOff o := by
  obtain h | ⟨hat, hm⟩ := h
  · simp [State.readAt, h]
  · simp only [State.readAt, hat, hm, Bool.and_false, Bool.false_eq_true, if_false]
    split <;> rfl

/-- An access with the state's change of a counted one, whatever a read of it puts out. -/
theorem access_counted {a : BarAccess} (hr : s.reaches who a.offset = true) (hw : a.write = true ∨ who = .bar0)
    (h : accessOk a.offset a.bytes = false ∨ regAt (a.offset - a.offset % 8) = none ∧ inMsix a.offset = false) :
    Completes (.registerWrite who (.one a)) s (fun t =>
      t.regs = (s.quiet (rowOfOffset a.offset) 0).regs ∧ t.stackTab = s.stackTab ∧ t.sw = s.sw) := by
  obtain ⟨write, o, bytes, v⟩ := a
  apply completes_registerWrite
  cases write with
  | true =>
    rw [State.barAccess_write hr, State.writeAt_counted _ h]
    exact ⟨rfl, rfl, rfl⟩
  | false =>
    obtain rfl : who = .bar0 := hw.resolve_left (by simp)
    rw [State.barAccess_read hr, State.readAt_counted h]
    exact ⟨rfl, rfl, rfl⟩

/-! ### Writes over BAR0 before READY, and of an absent unit (R7, R455) -/

variable {r : Reg}

theorem PlainReg.ne_recovery (h : PlainReg r) : r ≠ .CAP_RECOVERY := by
  rintro rfl
  simp [PlainReg] at h

theorem State.permit_bar0_notReady (hb : s.boot.bar0 = true) (hrdy : s.ready = false) (hr : r ≠ .CAP_RECOVERY) :
    s.permit .bar0 r = .counted := by
  simp [State.permit, State.admitBar, hb, hrdy, hr]

theorem State.permit_bar0_absent (hb : s.boot.bar0 = true) (hrdy : s.ready = true)
    (hu : s.unitAnswers r.offset = false) : s.permit .bar0 r = .ignored := by
  simp [State.permit, State.admitBar, hb, hrdy, hu]

theorem State.onWord_of_counted (h : s.permit who r = .counted) (eff : State → State) :
    s.onWord who r eff = (s.dropLatch who r.offset).countAt r := by
  rw [State.onWord, State.onWrite, State.permit_dropLatch, h]

theorem State.onWord_of_ignored (h : s.permit who r = .ignored) (eff : State → State) :
    s.onWord who r eff = s.dropLatch who r.offset := by
  rw [State.onWord, State.onWrite, State.permit_dropLatch, h]

theorem State.readable_of_ready (hrdy : s.ready = true) : s.readable o = true := by
  simp [State.readable, hrdy]

theorem State.readReg_absent (hu : s.unitAnswers r.offset = false) : s.readReg who r = 0 := by
  simp [State.readReg, hu]

theorem write_counted_before_ready (h : PlainReg r) (hb : s.boot.bar0 = true) (hrdy : s.ready = false) :
    Completes (.registerWrite .bar0 (.one ⟨true, r.offset, 8, v⟩)) s (fun t =>
      t.regs = (s.quiet (rowOfOffset r.offset) 0).regs ∧ t.stackTab = s.stackTab) := by
  apply completes_registerWrite
  rw [State.barAccess_write (who := .bar0) hb, State.writeAt_word h.placed,
    State.onWord_of_counted (State.permit_bar0_notReady hb hrdy h.ne_recovery)]
  exact ⟨rfl, rfl⟩

theorem read_puts_out (h : PlainReg r) (hb : s.boot.bar0 = true) (hrd : s.readable r.offset = true) :
    s.barAccess .bar0 ⟨false, r.offset, 8, v⟩ = s.emit (.readData (s.readReg .bar0 r)) := by
  rw [State.barAccess_read hb, State.readAt_word h.placed hrd]

theorem write_of_absent (h : PlainReg r) (hb : s.boot.bar0 = true) (hrdy : s.ready = true)
    (hu : s.unitAnswers r.offset = false) : s.barAccess .bar0 ⟨true, r.offset, 8, v⟩ = unlatched s .bar0 r := by
  rw [State.barAccess_write (who := .bar0) hb, State.writeAt_word h.placed,
    State.onWord_of_ignored (State.permit_bar0_absent hb hrdy hu)]
  rfl

/-! ### Writes of a register that takes them (R7, R14) -/

theorem word_written (h : PlainReg r) (hp : s.permit who r = .ok) (hr : s.reaches who r.offset = true) :
    Completes (.registerWrite who (.one ⟨true, r.offset, 8, v⟩)) s (RegWritten r v (BitVec.allOnes 64) s) := by
  apply completes_registerWrite
  rw [State.barAccess_write hr, State.writeAt_word h.placed, State.onWord_of_ok hp, h.wrReg]
  exact regWritten_plainWrite r v _ rfl

theorem lower_half_latched (h : PlainReg r) (hp : s.permit who r = .ok) (hr : s.reaches who r.offset = true) :
    Completes (.registerWrite who (.one ⟨true, r.offset, 4, v⟩)) s (fun t => t.regs = s.regs
      ∧ t.latch? who r.offset = some (v.extractLsb' 0 32)) := by
  apply completes_registerWrite
  rw [State.barAccess_write hr, State.writeAt_lower h.placed, State.onWrite_of_ok hp]
  exact ⟨rfl, by rw [State.latch?_setLatch, BitVec.setWidth_eq_extractLsb' (by omega)]⟩

theorem upper_half_joined {lo : BitVec 32} (h : PlainReg r) (hp : s.permit who r = .ok)
    (hr : s.reaches who (r.offset + 4) = true) (hl : s.latch? who r.offset = some lo) :
    Completes (.registerWrite who (.one ⟨true, r.offset + 4, 4, v⟩)) s (fun t =>
      RegWritten r (v.extractLsb' 0 32 ++ lo) (BitVec.allOnes 64) s t ∧ t.latch? who r.offset = none) := by
  apply completes_registerWrite
  rw [State.barAccess_write hr, State.writeAt_upper_latched h.placed _ _ hl, State.onWord_of_ok hp, h.wrReg,
    BitVec.setWidth_eq_extractLsb' (by omega)]
  exact ⟨regWritten_plainWrite r _ _ rfl, State.latch?_dropLatch s who r.offset⟩

theorem upper_half_alone (h : PlainReg r) (hp : s.permit who r = .ok) (hr : s.reaches who (r.offset + 4) = true)
    (hl : s.latch? who r.offset = none) :
    Completes (.registerWrite who (.one ⟨true, r.offset + 4, 4, v⟩)) s
      (RegWritten r (v.extractLsb' 0 32 ++ 0#32) 0xFFFFFFFF00000000 s) := by
  apply completes_registerWrite
  rw [State.barAccess_write hr, State.writeAt_upper_alone h.placed _ _ hl, State.onWrite_of_ok hp, h.wrReg,
    BitVec.setWidth_eq_extractLsb' (by omega)]
  exact regWritten_plainWrite r _ _ rfl

/-- A write of ABT_METER settles the buckets at the former rate and then takes its bits (R330). -/
theorem meter_written {n : Nat} (hn : n < 8) (hp : s.permit who (.ABT_METER n) = .ok)
    (hr : s.reaches who (Reg.ABT_METER n).offset = true) :
    Completes (.registerWrite who (.one ⟨true, (Reg.ABT_METER n).offset, 8, v⟩)) s (fun t =>
      RegBits (.ABT_METER n) v (BitVec.allOnes 64) s t
        ∧ ((t.stack n).tc, (t.stack n).te) = s.meter n ∧ (t.stack n).meterAt = s.now ∧ SameStacks n s t) := by
  apply completes_registerWrite
  rw [State.barAccess_write hr, State.writeAt_word (placed_stack n hn _ (by simp)), State.onWord_of_ok hp]
  have hstack : ∀ m, ((s.dropLatch who (Reg.ABT_METER n).offset).wrReg (.ABT_METER n) v wholeWrite).stack m =
      if m = n then { s.stack n with tc := (s.meter n).1, te := (s.meter n).2, meterAt := s.now } else s.stack m :=
    State.stack_modStack s n (fun k => { k with tc := (s.meter n).1, te := (s.meter n).2, meterAt := s.now })
  refine ⟨regBits_plainWrite _ v _ fun q => rfl, ?_, ?_, fun m hm => ?_⟩
  · rw [hstack, if_pos rfl]
  · rw [hstack, if_pos rfl]
  · rw [hstack, if_neg hm]

/-- Where no row's reads are counted, a write of MEM_CFG finds no row at its limit. -/
theorem memCfg_written {n : Nat} (hn : n < 8) (hrows : (s.stack n).rowReads = []) (hp : s.permit who (.MEM_CFG n) = .ok)
    (hr : s.reaches who (Reg.MEM_CFG n).offset = true) :
    Completes (.registerWrite who (.one ⟨true, (Reg.MEM_CFG n).offset, 8, v⟩)) s
      (RegWritten (.MEM_CFG n) v (BitVec.allOnes 64) s) := by
  have hwr : (s.dropLatch who (Reg.MEM_CFG n).offset).wrReg (.MEM_CFG n) v wholeWrite
      = (s.dropLatch who (Reg.MEM_CFG n).offset).plainWrite (.MEM_CFG n) v wholeWrite := by
    have hrows' : ((s.dropLatch who (Reg.MEM_CFG n).offset).stack n).rowReads = [] := hrows
    simp only [State.wrReg, State.wrBase, State.wrMemCfg, hrows', List.foldl_nil]
  apply completes_registerWrite
  rw [State.barAccess_write hr, State.writeAt_word (placed_stack n hn _ (by simp)), State.onWord_of_ok hp, hwr]
  exact regWritten_plainWrite _ v _ rfl

/-! ### Two writes of one cycle (R526, R546) -/

theorem State.permit_core {n c : Nat} (h : s.permit (.core n c) r = .ok) : s.reaches (.core n c) r.offset = true := by
  simp only [State.permit] at h
  split at h
  next h' => simp [State.reaches, h'.2.1, ← h'.1, Reg.stack?]
  next => cases h

/-- A word that is taken discards its requester's latch and is brought whole. -/
theorem State.brings_word {write : Bool} (hp : s.permit who r = .ok) :
    s.brings r who ⟨write, r.offset, 8, v⟩ = (s.dropLatch who r.offset, some (v, wholeWrite)) := by
  simp [State.brings, State.onWrite, hp]

theorem alsoWrite_whole (a : Access) (w : Word) :
    alsoWrite a (v, wholeWrite) (w, wholeWrite) = ((v &&& ~~~a.rw) ||| w, wholeWrite) := by
  simp only [alsoWrite, wholeWrite, BitVec.and_allOnes, BitVec.or_self]

theorem State.writeAll_core_bar0 {n c : Nat} {w : Word} (eff : State → Reg → Word → Word → State)
    (hc : s.permit (.core n c) r = .ok) (hp : s.permit .bar0 r = .ok) :
    s.writeAll r [(.core n c, ⟨true, r.offset, 8, v⟩), (.bar0, ⟨true, r.offset, 8, w⟩)] eff =
      eff ((s.dropLatch (.core n c) r.offset).dropLatch .bar0 r.offset) r ((v &&& ~~~r.access.rw) ||| w) wholeWrite := by
  have hp' : (s.dropLatch (.core n c) r.offset).permit .bar0 r = .ok := hp
  simp only [State.writeAll, List.foldl_cons, List.foldl_nil, State.brings_word hc, State.brings_word hp',
    alsoWrite_whole]

theorem State.cycleWrites_core_bar0 {n c : Nat} {w : Word} (hr : Placed r) (hb : s.boot.bar0 = true)
    (hc : s.permit (.core n c) r = .ok) (hp : s.permit .bar0 r = .ok) :
    s.cycleWrites (.core n c) ⟨true, r.offset, 8, v⟩ [(.bar0, ⟨true, r.offset, 8, w⟩)] =
      ((s.dropLatch (.core n c) r.offset).dropLatch .bar0 r.offset).wrReg r ((v &&& ~~~r.access.rw) ||| w) wholeWrite := by
  have hcore : s.reaches (.core n c) r.offset = true := State.permit_core hc
  have hbar : s.reaches .bar0 r.offset = true := hb
  obtain ⟨h8, hat, hm, -⟩ := hr
  rw [← State.writeAll_core_bar0 State.wrReg hc hp]
  simp [State.cycleWrites, sortBy, insertBy, whoRank, accessOk, h8, hat, hm, hcore, hbar]

/-- Two words of one cycle to a plain register: its RW fields take BAR0's, the others the OR. -/
theorem together_written {n c : Nat} {w : Word} (h : PlainReg r) (hb : s.boot.bar0 = true)
    (hc : s.permit (.core n c) r = .ok) (hp : s.permit .bar0 r = .ok) :
    Completes (.registerWrite (.core n c) (.together ⟨true, r.offset, 8, v⟩ [(.bar0, ⟨true, r.offset, 8, w⟩)])) s
      (RegWritten r ((v &&& ~~~r.access.rw) ||| w) (BitVec.allOnes 64) s) := by
  refine ⟨_, rfl, ?_⟩
  rw [State.cycleWrites_core_bar0 h.placed hb hc hp, h.wrReg]
  exact regWritten_plainWrite r _ _ rfl

theorem State.dropLatch_of_none (hl : s.latches = []) : s.dropLatch who o = s := by
  rw [State.dropLatch, hl, List.filter_nil, ← hl]

/-- Two words of one cycle to BCH_CTX_CTRL, which has no RW field, act as their OR. -/
theorem together_ctxCtrl {n c : Nat} {w : Word} {x : CtxId} (hx : x.wf = true)
    (hr : r = .BCH_CTX_CTRL x.stack x.bench x.ctx) (hb : s.boot.bar0 = true) (hl : s.latches = [])
    (hc : s.permit (.core n c) r = .ok) (hp : s.permit .bar0 r = .ok) :
    s.cycleWrites (.core n c) ⟨true, r.offset, 8, v⟩ [(.bar0, ⟨true, r.offset, 8, w⟩)] =
      s.barAccess (.core n c) ⟨true, r.offset, 8, v ||| w⟩ := by
  have hplaced : Placed r := by rw [hr]; exact placed_ctxCtrl hx
  have hrw : v &&& ~~~r.access.rw = v := by
    have h0 : r.access.rw = 0#64 := by rw [hr]; rfl
    rw [h0]; exact BitVec.and_allOnes
  rw [State.cycleWrites_core_bar0 hplaced hb hc hp, State.barAccess_write (State.permit_core hc),
    State.writeAt_word hplaced, State.onWord_of_ok hc, hrw, State.dropLatch_of_none hl, State.dropLatch_of_none hl]

end

end Sys2Proof.Machine

/-! ### The words of the MSI-X table (19_register_map.md R553) -/

namespace Sys2Proof.Machine

open Sys2Proof

/-- The bits that word `j` of an entry holds. -/
def msixMask (j : Nat) : BitVec 32 := if j = 0 then 0xFFFFFFFC else if j = 3 then 1 else 0xFFFFFFFF

/-- The state with word `k` of the table written. -/
def State.putMsix (s : State) (k : Nat) (w : BitVec 32) : State :=
  { s with host := { s.host with msixTable := Tab.put s.host.msixTable k w } }

/-- The state in which pending vector `i` is sent. -/
def State.sendPending (s : State) (i : Nat) : State :=
  { s with host := { s.host with msixPending := s.host.msixPending &&& ~~~(1#64 <<< i) } }.emit (.msix i)

section

variable (s : State) (i j k l : Nat) (v w : BitVec 32)

theorem State.msixWord_putMsix : (s.putMsix k w).msixWord l = if l = k then w else s.msixWord l := by
  rw [State.msixWord, State.putMsix, Tab.get_put]
  rfl

theorem State.msixWord_sendPending : (s.sendPending i).msixWord l = s.msixWord l := rfl

variable {i j}

theorem inMsix_entry (hi : i < 64) (hj : j < 4) : inMsix (0x108000 + 16 * i + 4 * j) = true := by
  rw [inMsix, decide_eq_true (p := msixTableAt ≤ _) (by rw [msixTableAt]; omega),
    decide_eq_true (p := _ < msixTableAt + 1024) (by rw [msixTableAt]; omega)]
  rfl

theorem accessOk_entry : accessOk (0x108000 + 16 * i + 4 * j) 4 = true := by
  simp only [accessOk, show (0x108000 + 16 * i + 4 * j) % 4 = 0 by omega]
  rfl

theorem msixIndex_entry : (0x108000 + 16 * i + 4 * j - msixTableAt) / 4 = 4 * i + j := by
  rw [msixTableAt]
  omega

theorem State.msixDword_entry (hi : i < 64) (hj : j < 4) :
    s.msixDword (0x108000 + 16 * i + 4 * j) = (s.msixWord (4 * i + j)).toNat := by
  rw [State.msixDword, if_pos (by rw [msixPbaAt]; omega), msixIndex_entry]

/-- A write of a word of an entry; one that unmasks a pending vector sends it. -/
theorem State.msixSet_entry (hi : i < 64) (hj : j < 4) :
    s.msixSet (0x108000 + 16 * i + 4 * j) v =
      if j = 3 ∧ v &&& msixMask j = 0 ∧ s.host.msixPending.getLsbD i = true
      then (s.putMsix (4 * i + j) (v &&& msixMask j)).sendPending i
      else s.putMsix (4 * i + j) (v &&& msixMask j) := by
  have hmod : (4 * i + j) % 4 = j := by omega
  have hdiv : (4 * i + j) / 4 = i := by omega
  have hw : (if j = 0 then v &&& 0xFFFFFFFC else if j = 3 then v &&& 1 else v) = v &&& msixMask j := by
    unfold msixMask
    split
    · rfl
    · split
      · rfl
      · exact BitVec.and_allOnes.symm
  rw [State.msixSet, if_neg (by rw [msixPbaAt]; omega)]
  simp only [msixIndex_entry, hmod, hdiv, hw]
  rfl

theorem setWidth_and_one_eq_zero_iff (x : Word) : x.setWidth 32 &&& 1#32 = 0#32 ↔ x.getLsbD 0 = false := by
  rw [BitVec.and_one_eq_setWidth_ofBool_getLsbD, BitVec.getLsbD_setWidth]
  cases x.getLsbD 0 <;> decide

/-- A read of a word of the table puts it out. -/
theorem msixWord_read (hi : i < 64) (hj : j < 4) (hb : s.boot.bar0 = true) (hr : s.ready = true) (x : Word) :
    s.barAccess .bar0 ⟨false, 0x108000 + 16 * i + 4 * j, 4, x⟩ =
      s.emit (.readData ((s.msixWord (4 * i + j)).setWidth 64)) := by
  have hread : s.readAt .bar0 (0x108000 + 16 * i + 4 * j) 4 = ((s.msixWord (4 * i + j)).setWidth 64, s) := by
    simp [State.readAt, accessOk_entry, asBar, inMsix_entry hi hj, hr, State.msixDword_entry s hi hj]
  rw [State.barAccess_read hb, hread]

theorem msixWord_write (hi : i < 64) (hj : j < 4) (hb : s.boot.bar0 = true) (hr : s.ready = true) (x : Word) :
    s.barAccess .bar0 ⟨true, 0x108000 + 16 * i + 4 * j, 4, x⟩ =
      s.msixSet (0x108000 + 16 * i + 4 * j) (x.setWidth 32) := by
  rw [State.barAccess_write (who := .bar0) hb]
  simp [State.writeAt, accessOk_entry, asBar, inMsix_entry hi hj, hr]

/-- What a write of a word of the table leaves: the word, every other word, and the vector that it unmasks. -/
theorem msixSet_acts (hi : i < 64) (hj : j < 4) (x : Word) {t : State}
    (ht : t = s.msixSet (0x108000 + 16 * i + 4 * j) (x.setWidth 32)) :
    t.msixWord (4 * i + j) = x.setWidth 32 &&& msixMask j
      ∧ (∀ k, k ≠ 4 * i + j → t.msixWord k = s.msixWord k) ∧ t.regs = s.regs
      ∧ (if j = 3 ∧ x.getLsbD 0 = false ∧ s.host.msixPending.getLsbD i = true
        then t.out = .msix i :: s.out ∧ t.host.msixPending = s.host.msixPending &&& ~~~(1#64 <<< i)
        else t.out = s.out ∧ t.host.msixPending = s.host.msixPending) := by
  have hunmask : (j = 3 ∧ x.getLsbD 0 = false ∧ s.host.msixPending.getLsbD i = true) ↔
      (j = 3 ∧ x.setWidth 32 &&& msixMask j = 0 ∧ s.host.msixPending.getLsbD i = true) := by
    refine and_congr_right fun hj3 => and_congr_left fun _ => ?_
    subst hj3
    exact (setWidth_and_one_eq_zero_iff x).symm
  rw [State.msixSet_entry s _ hi hj] at ht
  split at ht
  next hs =>
    subst ht
    rw [if_pos (hunmask.2 hs)]
    refine ⟨?_, fun k hk => ?_, rfl, rfl, rfl⟩
    · rw [State.msixWord_sendPending, State.msixWord_putMsix, if_pos rfl]
    · rw [State.msixWord_sendPending, State.msixWord_putMsix, if_neg hk]
  next hs =>
    subst ht
    rw [if_neg (mt hunmask.1 hs)]
    refine ⟨?_, fun k hk => ?_, rfl, rfl, rfl⟩
    · rw [State.msixWord_putMsix, if_pos rfl]
    · rw [State.msixWord_putMsix, if_neg hk]

end

/-- Settles O56: each access goes to the place that its offset names, and is taken, ignored or counted there. -/
theorem registerAccessesAct : Obligations.RegisterAccessesAct := by
  unfold Obligations.RegisterAccessesAct
  intro s who
  refine ⟨fun r v o hr ho hp => ?_, fun a => access_counted, fun r v => write_counted_before_ready,
    fun n v hn => ⟨fun r hr hp hreach => ?_, fun r hr hrows hp hreach => ?_⟩,
    fun r hr hb hrd => completes_registerWrite (read_puts_out hr hb hrd),
    fun r v hr hb hrdy hu => ⟨completes_registerWrite (write_of_absent hr hb hrdy hu), completes_registerWrite ?_⟩,
    fun n c v w hb => ⟨fun r hr hc hp => together_written hr hb hc hp, fun x r hx hr hl hc hp => ?_⟩,
    fun i j o v hi hj ho hb hrdy => ?_⟩
  · subst ho
    exact ⟨fun hreach => ⟨word_written hr hp hreach, lower_half_latched hr hp hreach⟩,
      fun hreach => ⟨fun lo hl => upper_half_joined hr hp hreach hl, fun hl => upper_half_alone hr hp hreach hl⟩⟩
  · subst hr
    exact meter_written hn hp hreach
  · subst hr
    exact memCfg_written hn hrows hp hreach
  · rw [read_puts_out hr hb (State.readable_of_ready hrdy), State.readReg_absent hu]
  · exact congrArg (fun u => (.next u : Res)) (together_ctxCtrl hx hr hb hl hc hp)
  · subst ho
    exact ⟨completes_registerWrite (msixWord_read s hi hj hb hrdy 0),
      completes_registerWrite (msixSet_acts s hi hj v (msixWord_write s hi hj hb hrdy v))⟩

end Sys2Proof.Machine

/-! ### What a change of the beat brings about, and what that leaves (02_rack_beat.md R34, R42, R44, R45) -/

namespace Sys2Proof.Machine

open Sys2Proof

/-- The registers that no event, notice, time-out or cap writes, but for causes shown in HOSTIF_NOTIFY: the beat's own,
those that say which links carry the check, and the one that says where start-up stands. -/
def Reg.ofBeat : Reg → Bool
  | .BEAT_STATUS | .CAP_UNITS | .CAP_START | .PORT_STATUS _ | .HOSTIF_NOTIFY => true
  | _ => false

/-- What follows a change of the beat leaves this as it was: the beat with its own registers and the module's time. A
cause shown to the host stays shown, and a notice held for the fabric manager stays held. -/
structure SameForBeat (s t : State) : Prop where
  now : t.now = s.now
  variant : t.variant = s.variant
  boot : t.boot = s.boot
  beat : t.beat = s.beat
  reg : ∀ q, q.ofBeat = true → q ≠ .HOSTIF_NOTIFY → t.reg q = s.reg q
  told : s.bit .HOSTIF_NOTIFY HOSTIF_NOTIFY_BEAT = true → t.bit .HOSTIF_NOTIFY HOSTIF_NOTIFY_BEAT = true
  notices : s.host.notices ⊆ t.host.notices

namespace SameForBeat

section

variable {s t u : State}

theorem refl (s : State) : SameForBeat s s := ⟨rfl, rfl, rfl, rfl, fun _ _ _ => rfl, id, List.Subset.refl _⟩

theorem trans (h : SameForBeat s t) (k : SameForBeat t u) : SameForBeat s u :=
  ⟨k.now.trans h.now, k.variant.trans h.variant, k.boot.trans h.boot, k.beat.trans h.beat,
    fun q hq hn => (k.reg q hq hn).trans (h.reg q hq hn), k.told ∘ h.told, List.Subset.trans h.notices k.notices⟩

theorem ite {c : Prop} [Decidable c] (ht : SameForBeat s t) (hu : SameForBeat s u) :
    SameForBeat s (if c then t else u) := by
  split
  · exact ht
  · exact hu

/-- A change of what no part of the beat is. -/
theorem of_regs (hnow : t.now = s.now) (hvar : t.variant = s.variant) (hboot : t.boot = s.boot)
    (hbeat : t.beat = s.beat) (hregs : t.regs = s.regs) (hnot : s.host.notices ⊆ t.host.notices) :
    SameForBeat s t := by
  have hreg : ∀ q, t.reg q = s.reg q := fun q => by rw [State.reg, State.reg, hvar, hregs]
  exact ⟨hnow, hvar, hboot, hbeat, fun q _ _ => hreg q, fun h => by rwa [State.bit, State.fld, hreg], hnot⟩

theorem foldl {α : Type} {f : State → α → State} (hf : ∀ t a, SameForBeat t (f t a)) (l : List α) (s : State) :
    SameForBeat s (l.foldl f s) :=
  foldl_keeps (P := SameForBeat s) (refl s) fun t a _ h => h.trans (hf t a)

end

section

variable (s : State)

/-! The parts of the state that are none of the beat's -/

theorem modStack (n : Nat) (f : Stack → Stack) : SameForBeat s (s.modStack n f) :=
  of_regs rfl rfl rfl rfl rfl (List.Subset.refl _)

theorem modBench (n b : Nat) (f : Bench → Bench) : SameForBeat s (s.modBench n b f) :=
  modStack s n (fun k => k.setBench b (f (s.bench n b)))

theorem modCtx (c : CtxId) (f : Ctx → Ctx) : SameForBeat s (s.modCtx c f) :=
  modBench s c.stack c.bench (fun x => x.setCtx c.ctx (f (s.ctx c)))

theorem modDesc (h : Nat) (f : Desc → Desc) : SameForBeat s (s.modDesc h f) :=
  of_regs rfl rfl rfl rfl rfl (List.Subset.refl _)

theorem modPower (p : Power) : SameForBeat s { s with power := p } :=
  of_regs rfl rfl rfl rfl rfl (List.Subset.refl _)

theorem holdNotice (m : Notice) : SameForBeat s { s with host := { s.host with notices := s.host.notices ++ [m] } } :=
  of_regs rfl rfl rfl rfl rfl (List.subset_append_left _ _)

theorem setFld (r : Reg) (f : Field) (v : Nat) (hr : r.ofBeat = false := by rfl) : SameForBeat s (s.setFld r f v) := by
  have hreg (q : Reg) (hq : q.ofBeat = true) : (s.setFld r f v).reg q = s.reg q := by
    have hne : q ≠ r := by rintro rfl; simp [hq] at hr
    simp [State.setFld, hne]
  exact ⟨rfl, rfl, rfl, rfl, fun q hq _ => hreg q hq, fun h => by rwa [State.bit, State.fld, hreg _ rfl],
    List.Subset.refl _⟩

theorem setBit (r : Reg) (f : Field) (b : Bool) (hr : r.ofBeat = false := by rfl) : SameForBeat s (s.setBit r f b) :=
  setFld s r f _ hr

theorem satFld (r : Reg) (f : Field) (n : Nat) (hr : r.ofBeat = false := by rfl) : SameForBeat s (s.satFld r f n) :=
  setFld s r f _ hr

/-! Events to the runtimes, MSI-X messages and notices -/

theorem event (n code bench ctx detail : Nat) : SameForBeat s (s.event n code bench ctx detail) :=
  .ite (refl s) (.ite (satFld s _ _ _)
    (.ite (((modStack s n _).trans (setBit _ _ _ _)).trans (satFld _ _ _ _)) ((modStack s n _).trans (setFld _ _ _ _))))

theorem eventAll (code detail : Nat) : SameForBeat s (s.eventAll code detail) :=
  foldl (fun t n => event t n code noBench 0 detail) _ s

theorem msix (v : Nat) : SameForBeat s (s.msix v) :=
  .ite (of_regs rfl rfl rfl rfl rfl (List.Subset.refl _)) (of_regs rfl rfl rfl rfl rfl (List.Subset.refl _))

/-- Showing a cause to the host hides none that is shown. -/
theorem setBit_notify {f : Field} (hf : f = HOSTIF_NOTIFY_BEAT ∨ 0 < f.lo ∧ f.lo ≤ f.hi ∧ f.hi < 64) :
    SameForBeat s (s.setBit .HOSTIF_NOTIFY f true) := by
  refine ⟨rfl, rfl, rfl, rfl, fun q _ hne => ?_, fun h => ?_, List.Subset.refl _⟩
  · simp [State.setBit, State.setFld, hne]
  · rcases hf with rfl | ⟨hlo, hle, h64⟩
    · simp [State.bit, State.setBit, State.fld_setFld _ _ HOSTIF_NOTIFY_BEAT _ (by decide) (by decide)]
      decide
    · rwa [State.bit, State.setBit, State.fld_setFld_other _ _ _ _ _ hle h64 (.inl hlo)]

theorem notify {f : Field} (hf : f = HOSTIF_NOTIFY_BEAT ∨ 0 < f.lo ∧ f.lo ≤ f.hi ∧ f.hi < 64) :
    SameForBeat s (s.notify f) :=
  .ite (refl s) (.ite ((setBit_notify s hf).trans (msix _ _)) (setBit_notify s hf))

theorem mgmt (src : BitVec 16) (type : Nat) (fields : List Byte) : SameForBeat s (s.mgmt src type fields) :=
  .ite (of_regs rfl rfl rfl rfl rfl (List.Subset.refl _)) (of_regs rfl rfl rfl rfl rfl (List.Subset.refl _))

theorem notice (cause stack : Nat) (fields : List Byte) : SameForBeat s (s.notice cause stack fields) :=
  .ite ((satFld s _ _ _).trans (notify _ (.inr (by decide))))
    (.ite (((holdNotice s _).trans (setFld _ _ _ _)).trans (mgmt _ _ _ _)) ((holdNotice s _).trans (setFld _ _ _ _)))

/-! Caps -/

theorem powerViolation (seen : Field) (code : Nat) : SameForBeat s (s.powerViolation seen code) :=
  ((setBit s _ _ _).trans (satFld _ _ _ _)).trans (notice _ _ _ _)

theorem relimit (exempt : Bool) : SameForBeat s (s.relimit exempt) := by
  have hlimit (p : Power) (v : Nat) : SameForBeat s ({ s with power := p }.setFld .PWR_STATUS PWR_STATUS_LIMIT v) :=
    (modPower s p).trans (setFld _ _ _ _)
  exact .trans (.ite ((hlimit _ _).trans (powerViolation _ _ _)) (hlimit _ _)) (modPower _ _)

theorem applyHeld (h : Held) : SameForBeat s (s.applyHeld h) :=
  .ite (.ite ((modPower s _).trans (relimit _ _)) (((modPower s _).trans (relimit _ _)).trans (eventAll _ _ _)))
    (setFld s _ _ _)

theorem dropHeld_applyHeld (h : Held) : SameForBeat s ((s.dropHeld h.order).applyHeld h) :=
  (modPower s _).trans (applyHeld _ h)

theorem releaseHeld (h : Held) : SameForBeat s (s.releaseHeld h) :=
  .ite (modPower s _) (dropHeld_applyHeld s h)

theorem govern (fuel : Nat) : SameForBeat s (s.govern fuel) := by
  induction fuel generalizing s with
  | zero => exact refl s
  | succ fuel ih =>
    unfold State.govern
    refine .ite ?_ ?_
    · split
      · exact (dropHeld_applyHeld s _).trans (ih _)
      · exact refl s
    · split
      · exact (releaseHeld s _).trans (ih _)
      · exact refl s

theorem governAll : SameForBeat s s.governAll := govern s _

/-! Waits that stop and descriptors that time out -/

theorem stop (c : CtxId) (cause : Nat) : SameForBeat s (s.stop c cause) :=
  .ite (((modCtx s c _).trans (modBench _ _ _ _)).trans (event _ _ _ _ _ _))
    (.ite ((modCtx s c _).trans (modBench _ _ _ _)) (refl s))

theorem stopBeatWaits : SameForBeat s s.stopBeatWaits :=
  foldl (fun t _ => foldl (fun u c => .ite (stop u c 6) (refl u)) _ t) _ s

theorem failDesc (h status detail : Nat) : SameForBeat s (s.failDesc h status detail) := by
  unfold State.failDesc
  split
  next => exact refl s
  next d _ =>
    have hfail (f : Desc → Desc) : SameForBeat s ((s.modStack d.stack (·.dropUnsent d.src)).modDesc h f) :=
      (modStack s _ _).trans (modDesc _ h f)
    exact .ite (refl s) (.ite ((hfail _).trans (modDesc _ h _)) (hfail _))

theorem timeoutScheduled (detail : Nat) : SameForBeat s (s.timeoutScheduled detail) :=
  foldl (fun t _ => .ite ((modStack t _ _).trans (failDesc _ _ _ _)) (refl t)) _ s

theorem spanFails (n : Nat) (x : SpanOut) (detail : Nat) : SameForBeat s (s.spanFails n x detail) :=
  (modStack s _ _).trans (failDesc _ _ _ _)

theorem timeoutBeats (detail : Nat) : SameForBeat s (s.timeoutBeats detail) := by
  have hspans : SameForBeat s (stackNums.foldl (fun u n => (u.stack n).spansOut.foldl (fun v x =>
      if x.st = .requested ∨ x.st = .armed then (v.spanFails n x detail).spanRelease n x.id else v) u)
      (s.timeoutScheduled detail)) :=
    (timeoutScheduled s detail).trans <| foldl (fun t _ => foldl (fun v x =>
      .ite ((spanFails v _ x detail).trans (mgmt _ _ _ _)) (refl v)) _ t) _ _
  refine hspans.trans (foldl (fun u n => foldl (fun v c => ?_) _ u) _ _)
  split
  · exact .ite ((modStack v n _).trans (failDesc _ _ _ _)) (refl v)
  · exact refl v

end

end SameForBeat

end Sys2Proof.Machine

/-! ### BEAT_STATUS and the end of a change of the beat -/

namespace Sys2Proof.Machine

open Sys2Proof

section

variable (s : State) {f g : Field} (b : Bool)

theorem State.bit_setBit_self (r : Reg) (hf : f.lo = f.hi) (h64 : f.hi < 64) : (s.setBit r f b).bit r f = b := by
  rw [State.bit, State.setBit, State.fld_setFld s r f _ (Nat.le_of_eq hf) h64, hf, Nat.add_sub_cancel_left]
  cases b <;> rfl

theorem State.bit_setFld_other (r : Reg) (v : Nat) (h : f.lo ≤ f.hi) (h64 : f.hi < 64)
    (hg : g.hi < f.lo ∨ f.hi < g.lo) : (s.setFld r f v).bit r g = s.bit r g := by
  rw [State.bit, State.fld_setFld_other s r f g _ h h64 hg, State.bit]

theorem State.bit_beatBit_self (hf : f.lo = f.hi) (h64 : f.hi < 64) : (s.beatBit f b).bit .BEAT_STATUS f = b :=
  State.bit_setBit_self s b .BEAT_STATUS hf h64

theorem State.fld_beatBit_other (h : f.lo ≤ f.hi) (h64 : f.hi < 64) (hg : g.hi < f.lo ∨ f.hi < g.lo) :
    (s.beatBit f b).fld .BEAT_STATUS g = s.fld .BEAT_STATUS g :=
  State.fld_setFld_other s .BEAT_STATUS f g _ h h64 hg

theorem State.bit_beatBit_other (h : f.lo ≤ f.hi) (h64 : f.hi < 64) (hg : g.hi < f.lo ∨ f.hi < g.lo) :
    (s.beatBit f b).bit .BEAT_STATUS g = s.bit .BEAT_STATUS g :=
  State.bit_setFld_other s .BEAT_STATUS _ h h64 hg

@[simp] theorem State.reg_beatBit (q : Reg) (hq : q ≠ .BEAT_STATUS) : (s.beatBit f b).reg q = s.reg q := by
  simp [State.beatBit, State.setBit, State.setFld, hq]

@[simp] theorem State.boot_beatBit : (s.beatBit f b).boot = s.boot := rfl

end

namespace SameForBeat

variable {s t : State} (h : SameForBeat s t)

include h

theorem fld (f : Field) : t.fld .BEAT_STATUS f = s.fld .BEAT_STATUS f := by
  rw [State.fld, h.reg .BEAT_STATUS rfl nofun, State.fld]

theorem bit (f : Field) : t.bit .BEAT_STATUS f = s.bit .BEAT_STATUS f := by rw [State.bit, h.fld, State.bit]

theorem lost : t.lost = s.lost := h.bit _

theorem mismatch : t.mismatch = s.mismatch := h.bit _

theorem isLocked : t.isLocked = s.isLocked := h.bit _

end SameForBeat

section

variable (s old : State)

theorem State.tellBeat_same : SameForBeat s (s.tellBeat old) :=
  .ite (.refl s) (.eventAll s _ _)

/-- Behind LOCKED, the end of a change of the beat only tells of it and lets caps take effect. -/
theorem State.beatEnd_same : SameForBeat s.dropLock (s.beatEnd old) :=
  .ite ((State.tellBeat_same _ old).trans (.governAll _)) (State.tellBeat_same _ old)

@[simp] theorem State.beat_dropLock : s.dropLock.beat = s.beat := by unfold State.dropLock; split <;> rfl

@[simp] theorem State.now_dropLock : s.dropLock.now = s.now := by unfold State.dropLock; split <;> rfl

@[simp] theorem State.host_dropLock : s.dropLock.host = s.host := by unfold State.dropLock; split <;> rfl

@[simp] theorem State.variant_dropLock : s.dropLock.variant = s.variant := by unfold State.dropLock; split <;> rfl

@[simp] theorem State.reg_dropLock (q : Reg) (hq : q ≠ .BEAT_STATUS) : s.dropLock.reg q = s.reg q := by
  unfold State.dropLock
  split
  · exact State.reg_beatBit s _ q hq
  · rfl

theorem State.fld_dropLock {g : Field} (hg : 0 < g.lo) : s.dropLock.fld .BEAT_STATUS g = s.fld .BEAT_STATUS g := by
  unfold State.dropLock
  split
  · exact State.fld_beatBit_other s _ (by decide) (by decide) (.inr hg)
  · rfl

/-- LOCKED does not stand where its conditions do not hold. -/
theorem State.isLocked_dropLock (h : s.lockHolds = false) : s.dropLock.isLocked = false := by
  unfold State.dropLock
  split
  · exact State.bit_beatBit_self s false (by decide) (by decide)
  next hc => simpa [h] using hc

@[simp] theorem State.beat_beatEnd : (s.beatEnd old).beat = s.beat := by
  rw [(s.beatEnd_same old).beat, s.beat_dropLock]

@[simp] theorem State.now_beatEnd : (s.beatEnd old).now = s.now := by
  rw [(s.beatEnd_same old).now, s.now_dropLock]

theorem State.fld_beatEnd {g : Field} (hg : 0 < g.lo) :
    (s.beatEnd old).fld .BEAT_STATUS g = s.fld .BEAT_STATUS g := by
  rw [(s.beatEnd_same old).fld, s.fld_dropLock hg]

theorem State.bit_beatEnd {g : Field} (hg : 0 < g.lo) :
    (s.beatEnd old).bit .BEAT_STATUS g = s.bit .BEAT_STATUS g := by
  rw [State.bit, s.fld_beatEnd old hg, State.bit]

@[simp] theorem State.lost_beatEnd : (s.beatEnd old).lost = s.lost := s.bit_beatEnd old (by decide)

@[simp] theorem State.mismatch_beatEnd : (s.beatEnd old).mismatch = s.mismatch := s.bit_beatEnd old (by decide)

theorem State.isLocked_beatEnd (h : s.lockHolds = false) : (s.beatEnd old).isLocked = false := by
  rw [(s.beatEnd_same old).isLocked, s.isLocked_dropLock h]

theorem State.told_beatEnd (h : s.bit .HOSTIF_NOTIFY HOSTIF_NOTIFY_BEAT = true) :
    (s.beatEnd old).bit .HOSTIF_NOTIFY HOSTIF_NOTIFY_BEAT = true :=
  (s.beatEnd_same old).told (by rwa [State.bit, State.fld, s.reg_dropLock .HOSTIF_NOTIFY nofun])

theorem State.notices_beatEnd : s.host.notices ⊆ (s.beatEnd old).host.notices := by
  simpa using (s.beatEnd_same old).notices

end

section

variable (s : State)

theorem State.told_notify : (s.notify HOSTIF_NOTIFY_BEAT).bit .HOSTIF_NOTIFY HOSTIF_NOTIFY_BEAT = true := by
  unfold State.notify
  dsimp only
  have hset : (s.setBit .HOSTIF_NOTIFY HOSTIF_NOTIFY_BEAT true).bit .HOSTIF_NOTIFY HOSTIF_NOTIFY_BEAT = true :=
    s.bit_setBit_self true _ (by decide) (by decide)
  split
  · assumption
  · split
    · exact (SameForBeat.msix _ _).told hset
    · exact hset

/-- 18_faults_and_recovery.md R519: a notice is held where fewer than 256 are. -/
theorem State.noticeHeld_notice {cause stack : Nat} (hc : cause < 256) (hs : stack < 256) (fields : List Byte)
    (h : s.host.notices.length < 256) : NoticeHeld cause stack fields (s.notice cause stack fields) := by
  unfold State.notice
  rw [if_neg (by omega)]
  dsimp only
  refine ⟨⟨BitVec.ofNat 32 (s.fld .HOSTIF_NOTICE_STATUS HOSTIF_NOTICE_STATUS_NEXT), BitVec.ofNat 8 cause,
    BitVec.ofNat 8 stack, s.beatNow, fields, s.now⟩, ?_, Nat.mod_eq_of_lt hc, Nat.mod_eq_of_lt hs, rfl⟩
  split
  · exact (SameForBeat.mgmt _ _ _ _).notices (List.mem_append_right _ (List.mem_singleton_self _))
  · exact List.mem_append_right _ (List.mem_singleton_self _)

theorem State.notices_msix (v : Nat) : (s.msix v).host.notices = s.host.notices := by
  unfold State.msix
  split <;> rfl

theorem State.notices_notify (f : Field) : (s.notify f).host.notices = s.host.notices := by
  unfold State.notify
  dsimp only
  split
  · rfl
  · split
    · exact State.notices_msix _ _
    · rfl

end

end Sys2Proof.Machine

/-! ### Edges, loss and return (02_rack_beat.md R28, R30, R42, R44, R46) -/

namespace Sys2Proof.Machine

open Sys2Proof

/-! The edge -/

/-- An edge has come after `dt` ticks. -/
def State.edgeCame (s : State) (dt : Nat) : State := { s.pass dt with beat := s.beat.onEdge (s.now + dt) }

/-- The edge counts one beat. -/
def State.countEdge (s : State) : State :=
  { s with beat := { s.beat with count := s.beat.count + 1, total := s.beat.total + 1 } }

/-- What an edge does before a load: it counts, or while LOST is set it may join the comparison. -/
def State.edgeTaken (s : State) (dt : Nat) : State :=
  if s.lost then
    if s.bit .BEAT_STATUS BEAT_STATUS_RELOCK then s.edgeCame dt else (s.edgeCame dt).compareEdge
  else (s.edgeCame dt).countEdge

/-- The number that has been delivered, if one has, is loaded at this marker beat. -/
def State.loadDelivered (s : State) : State :=
  match s.beat.delivered with
  | some (hi, m) => s.loadBeat hi m
  | none => s

section

variable (s : State) (dt : Nat)

theorem State.edgeTaken_counts (h : s.lost = false) : s.edgeTaken dt = (s.edgeCame dt).countEdge := by
  simp [State.edgeTaken, h]

theorem State.edgeTaken_compares (h : s.lost = true) (hr : s.bit .BEAT_STATUS BEAT_STATUS_RELOCK = false) :
    s.edgeTaken dt = (s.edgeCame dt).compareEdge := by
  simp [State.edgeTaken, h, hr]

@[simp] theorem State.delivered_edgeTaken : (s.edgeTaken dt).beat.delivered = s.beat.delivered := by
  unfold State.edgeTaken
  split
  · split <;> rfl
  · rfl

theorem State.loadDelivered_none {t : State} (h : t.beat.delivered = none) : t.loadDelivered = t := by
  simp [State.loadDelivered, h]

theorem State.loadDelivered_some {t : State} {hi : BitVec 28} {m : BitVec 8} (h : t.beat.delivered = some (hi, m)) :
    t.loadDelivered = t.loadBeat hi m := by
  simp [State.loadDelivered, h]

theorem exec_beatEdge (hp : s.boot.powered = true) (high : Nat) : exec (.beatEdge dt high) s = .next
    (State.beatEnd (if isMarker high then (s.edgeTaken dt).loadDelivered else s.edgeTaken dt) s) := by
  change execBeatEdge dt high s = _
  simp only [execBeatEdge, hp, if_true]
  rfl

theorem beatEdge_without_load (hp : s.boot.powered = true) {high : Nat}
    (h : isMarker high = false ∨ s.beat.delivered = none) :
    exec (.beatEdge dt high) s = .next ((s.edgeTaken dt).beatEnd s) := by
  rw [exec_beatEdge s dt hp]
  rcases h with hm | hd
  · simp [hm]
  · rw [State.loadDelivered_none ((s.delivered_edgeTaken dt).trans hd), ite_self]

theorem beatEdge_with_load (hp : s.boot.powered = true) {high : Nat} (hm : isMarker high = true)
    {hi : BitVec 28} {m : BitVec 8} (hd : s.beat.delivered = some (hi, m)) :
    exec (.beatEdge dt high) s = .next (((s.edgeTaken dt).loadBeat hi m).beatEnd s) := by
  rw [exec_beatEdge s dt hp, if_pos hm, State.loadDelivered_some ((s.delivered_edgeTaken dt).trans hd)]

/-- R30: the number of the next marker beat has the delivered bits above 20 zeros, and LEAD is 19 + M (R41). -/
theorem State.loadBeat_loads (h : s.lost = false) (hi : BitVec 28) (m : BitVec 8) :
    (s.loadBeat hi m).beat.count.toNat = 2 ^ 20 * hi.toNat ∧ (s.loadBeat hi m).beat.loaded = true
      ∧ (s.loadBeat hi m).beat.delivered = none ∧ (s.loadBeat hi m).fld .BEAT_STATUS BEAT_STATUS_MARGIN = m.toNat
      ∧ (s.loadBeat hi m).fld .BEAT_STATUS BEAT_STATUS_LEAD = 19 + m.toNat := by
  have hload : ∃ t : State, s.loadBeat hi m = (t.setFld .BEAT_STATUS BEAT_STATUS_MARGIN m.toNat).setFld .BEAT_STATUS
      BEAT_STATUS_LEAD (19 + m.toNat) ∧ t.beat.count = BitVec.ofNat 48 (hi.toNat * 2 ^ 20) ∧ t.beat.loaded = true
      ∧ t.beat.delivered = none := by
    simp only [State.loadBeat, h]
    exact ⟨_, rfl, rfl, rfl, rfl⟩
  obtain ⟨t, ht, hcount, hloaded, hnone⟩ := hload
  have hhi := hi.isLt
  have hm := m.isLt
  rw [ht]
  refine ⟨?_, hloaded, hnone, ?_, ?_⟩
  · rw [State.setFld_beat, State.setFld_beat, hcount, BitVec.toNat_ofNat]
    omega
  · rw [State.fld_setFld_other _ _ _ _ _ (by decide) (by decide) (by decide),
      State.fld_setFld _ _ _ _ (by decide) (by decide)]
    exact Nat.mod_eq_of_lt hm
  · rw [State.fld_setFld _ _ _ _ (by decide) (by decide)]
    exact Nat.mod_eq_of_lt (show 19 + m.toNat < 2 ^ 16 by omega)

end

/-! Loss -/

/-- LOST is set and the count runs on from the last good edge; nobody has been told yet. -/
def State.lossBegun (s : State) (goodAt back : Nat) : State :=
  (State.beatBit
    { s with
      beat :=
        { s.beat with
          goodAt := goodAt, goodCount := s.beat.count - BitVec.ofNat 48 back, total := s.beat.total - back
          lostLong := false, cmpEdges := 0, cmpErr := 0 } }
    BEAT_STATUS_LOST true).beatBit BEAT_STATUS_LOST_SEEN true

/-- LOST is set and the host and the fabric manager are told. -/
def State.lossTold (s : State) (goodAt back : Nat) : State :=
  ((s.lossBegun goodAt back).notify HOSTIF_NOTIFY_BEAT).beatNotice noPortCode 0

section

variable (s : State) (goodAt back : Nat)

theorem State.setLost_eq : s.setLost goodAt back = (s.lossTold goodAt back).beatEnd s := rfl

theorem State.lossTold_same : SameForBeat (s.lossBegun goodAt back) (s.lossTold goodAt back) :=
  (SameForBeat.notify _ (.inl rfl)).trans (SameForBeat.notice _ _ _ _)

/-- R42: what the loss of the beat sets. -/
theorem State.setLost_sets :
    (s.setLost goodAt back).lost = true
      ∧ (s.setLost goodAt back).bit .BEAT_STATUS BEAT_STATUS_LOST_SEEN = true
      ∧ (s.setLost goodAt back).beat.goodAt = goodAt
      ∧ (s.setLost goodAt back).beat.goodCount = s.beat.count - BitVec.ofNat 48 back := by
  have hsame := s.lossTold_same goodAt back
  rw [State.setLost_eq, State.lost_beatEnd, State.bit_beatEnd _ _ (by decide), State.beat_beatEnd, hsame.lost,
    hsame.bit, hsame.beat]
  refine ⟨?_, ?_, rfl, rfl⟩
  · exact (State.bit_beatBit_other _ _ (by decide) (by decide) (by decide)).trans
      (State.bit_beatBit_self _ _ (by decide) (by decide))
  · exact State.bit_beatBit_self _ _ (by decide) (by decide)

/-- R31, R42: an input that has not stayed in tolerance is not locked, and the host and the fabric manager are told. -/
theorem State.setLost_tells (h : s.beat.steady = false) :
    (s.setLost goodAt back).isLocked = false ∧ (s.setLost goodAt back).now = s.now
      ∧ (s.setLost goodAt back).bit .HOSTIF_NOTIFY HOSTIF_NOTIFY_BEAT = true
      ∧ (s.host.notices.length < 256 → ∃ fields, NoticeHeld 8 0xFF fields (s.setLost goodAt back)) := by
  have hsame := s.lossTold_same goodAt back
  rw [State.setLost_eq]
  refine ⟨State.isLocked_beatEnd _ _ ?_, ?_, State.told_beatEnd _ _ ?_, fun hlen => ?_⟩
  · have hsteady : (s.lossTold goodAt back).beat.steady = false := by rw [hsame.beat]; exact h
    simp [State.lockHolds, hsteady]
  · rw [State.now_beatEnd, hsame.now]
    rfl
  · exact (SameForBeat.notice _ _ _ _).told (State.told_notify _)
  · obtain ⟨m, hmem, hm⟩ := State.noticeHeld_notice ((s.lossBegun goodAt back).notify HOSTIF_NOTIFY_BEAT)
      (cause := 8) (stack := noStack) (by decide) (by decide) _ (by rw [State.notices_notify]; exact hlen)
    exact ⟨_, m, State.notices_beatEnd _ _ hmem, hm⟩

end

end Sys2Proof.Machine

/-! ### The beat follows its input (02_rack_beat.md R28 to R31, R42 to R46; 20_module_connector.md R571, R574) -/

namespace Sys2Proof.Machine

open Sys2Proof

/-! Little-endian bytes of a message -/

theorem length_leBytes (n v : Nat) : (leBytes n v).length = n := by
  induction n generalizing v with
  | zero => rfl
  | succ n ih => simp [leBytes, ih]

theorem leNat_leBytes (n v : Nat) : leNat (leBytes n v) = v % 256 ^ n := by
  induction n generalizing v with
  | zero => simp [leBytes, leNat, Nat.mod_one]
  | succ n ih => rw [leBytes, leNat, ih, BitVec.toNat_ofNat, Nat.pow_succ' (m := 256), Nat.mod_mul]

section

variable {s : State} {dest : BitVec 7} {code len : Nat} {body : List Byte} {f : State → State}

theorem State.i3cWrite_accepted (hr : s.i3cRefuses dest = false) (hlen : body.length = len) :
    s.i3cWrite dest code len body false false f = f ((s.emit .i3cAck).i3cEnd code 0) := by
  simp [State.i3cWrite, hr, hlen]

theorem State.i3cWrite_outOfRange (hr : s.i3cRefuses dest = false) (hlen : body.length = len) :
    s.i3cWrite dest code len body false true f = (s.emit .i3cAck).i3cEnd code resultRange := by
  simp [State.i3cWrite, hr, hlen]

end

section

variable {s : State}

/-! Edges and gaps -/

theorem beatEdge_counts {dt high : Nat} (hp : s.boot.powered = true) (h : s.lost = false)
    (hn : isMarker high = false ∨ s.beat.delivered = none) : Completes (.beatEdge dt high) s (fun t =>
      t.now = s.now + dt ∧ t.beat.count = s.beat.count + 1 ∧ t.beat.total = s.beat.total + 1
        ∧ t.beat.lastEdge = s.now + dt ∧ t.lost = false
        ∧ t.beat.loaded = s.beat.loaded ∧ t.beat.delivered = s.beat.delivered) := by
  refine ⟨_, beatEdge_without_load s dt hp hn, ?_⟩
  dsimp only
  rw [State.edgeTaken_counts s dt h, State.lost_beatEnd, State.beat_beatEnd, State.now_beatEnd]
  exact ⟨rfl, rfl, rfl, rfl, h, rfl, rfl⟩

theorem beatEdge_loads {dt high : Nat} {hi : BitVec 28} {m : BitVec 8} (hp : s.boot.powered = true) (h : s.lost = false)
    (hlo : 650 ≤ high) (hhi : high ≤ 850) (hd : s.beat.delivered = some (hi, m)) :
    Completes (.beatEdge dt high) s (fun t => t.beat.count.toNat = 2 ^ 20 * hi.toNat ∧ t.beat.loaded = true
      ∧ t.beat.delivered = none ∧ t.fld .BEAT_STATUS BEAT_STATUS_MARGIN = m.toNat
      ∧ t.fld .BEAT_STATUS BEAT_STATUS_LEAD = 19 + m.toNat) := by
  have hm : isMarker high = true := by simp [isMarker, hlo, hhi]
  refine ⟨_, beatEdge_with_load s dt hp hm hd, ?_⟩
  dsimp only
  rw [State.beat_beatEnd, State.fld_beatEnd _ _ (by decide), State.fld_beatEnd _ _ (by decide)]
  refine State.loadBeat_loads _ ?_ hi m
  rw [State.edgeTaken_counts s dt h]
  exact h

theorem beatEdge_compares {dt high : Nat} (hp : s.boot.powered = true) (h : s.lost = true)
    (hr : s.bit .BEAT_STATUS BEAT_STATUS_RELOCK = false) (hn : isMarker high = false ∨ s.beat.delivered = none) :
    Completes (.beatEdge dt high) s (fun t =>
      t.beat.cmpEdges = s.beat.cmpEdges + 1 ∧ t.beat.count = s.beat.count ∧ t.lost = true) := by
  refine ⟨_, beatEdge_without_load s dt hp hn, ?_⟩
  dsimp only
  rw [State.edgeTaken_compares s dt h hr, State.lost_beatEnd, State.beat_beatEnd]
  exact ⟨rfl, rfl, h⟩

/-- The state in which a gap has ended the run of beats in tolerance, before LOST is set. -/
def State.gapSeen (s : State) (dt : Nat) : State :=
  { s.pass dt with
    beat := { s.beat with edges := false, inTol := 0, recent := [], winEdges := 0, cmpEdges := 0, cmpErr := 0 } }

theorem beatGapTimeout_loses {dt : Nat} (hp : s.boot.powered = true) (h : s.lost = false)
    (hgap : s.beat.lastEdge + 4 * 75200 ≤ s.now + dt) : Completes (.beatGapTimeout dt) s (fun t =>
      t.lost = true ∧ t.bit .BEAT_STATUS BEAT_STATUS_LOST_SEEN = true ∧ t.isLocked = false
        ∧ t.beat.goodAt = s.beat.lastEdge ∧ t.beat.goodCount = s.beat.count ∧ t.now = s.now + dt
        ∧ t.bit .HOSTIF_NOTIFY HOSTIF_NOTIFY_BEAT = true
        ∧ (s.host.notices.length < 256 → ∃ fields, NoticeHeld 8 0xFF fields t)) := by
  have hexec : exec (.beatGapTimeout dt) s = .next ((s.gapSeen dt).setLost s.beat.lastEdge 0) := by
    change execBeatGapTimeout dt s = _
    have hdue : (s.pass dt).beat.lastEdge + 4 * ticksPerUs ≤ (s.pass dt).now := hgap
    simp only [execBeatGapTimeout, hp, h, decide_eq_true hdue, Bool.and_self, if_true]
    rfl
  obtain ⟨hlost, hseen, hat, hcount⟩ := (s.gapSeen dt).setLost_sets s.beat.lastEdge 0
  obtain ⟨hlock, hnow, htold, hnotice⟩ := (s.gapSeen dt).setLost_tells s.beat.lastEdge 0 rfl
  exact ⟨_, hexec, hlost, hseen, hlock, hat, hcount.trans (BitVec.sub_zero _), hnow, htold, hnotice⟩

/-! LOCKED -/

theorem State.isLocked_setCause (t : State) (c : Nat) : (t.setCause c).isLocked = t.isLocked := by
  simp [State.setCause, State.isLocked, State.bit]

theorem State.isLocked_toStep (t : State) (k : Nat) : (t.toStep k).isLocked = t.isLocked := by
  simp [State.toStep, State.isLocked, State.bit]

/-- 15_startup_and_defects.md Table 15-1: once the beat is locked, step 8 is over as it begins. -/
theorem State.enterStep8_of_locked {t : State} (h : t.isLocked = true) : t.enterStep8 = (t.setCause 0).toStep 9 := by
  simp [State.enterStep8, h]

theorem State.enterStep8_ends {t : State} (h : t.isLocked = true) :
    t.enterStep8.isLocked = true ∧ t.enterStep8.stepNo = 9 ∧ t.enterStep8.startCause = 0
      ∧ t.enterStep8.beat = t.beat := by
  rw [State.enterStep8_of_locked h]
  refine ⟨?_, ?_, ?_, rfl⟩
  · rw [State.isLocked_toStep, State.isLocked_setCause, h]
  · exact State.fld_setFld _ _ _ _ (by decide) (by decide)
  · exact (State.fld_setFld_other _ _ _ _ _ (by decide) (by decide) (by decide)).trans
      (State.fld_setFld _ _ _ _ (by decide) (by decide))

theorem State.inStep_of_same {s t : State} (h : SameForBeat s t) (k : Nat) : t.inStep k = s.inStep k := by
  simp only [State.inStep, State.stepNo, State.halted, State.bit, State.fld, h.boot, h.reg .CAP_START rfl nofun]

theorem lockedSet_locks (hp : s.boot.powered = true) (hn : s.isLocked = false) (h : s.lockHolds = true) :
    Completes .lockedSet s (fun t => t.isLocked = true
      ∧ (s.inStep 8 = true → t.stepNo = 9 ∧ t.startCause = 0) ∧ t.beat = s.beat) := by
  have hsame := State.tellBeat_same (s.beatBit BEAT_STATUS_LOCKED true) s
  have hlocked : ((s.beatBit BEAT_STATUS_LOCKED true).tellBeat s).isLocked = true :=
    hsame.isLocked.trans (State.bit_beatBit_self s true (by decide) (by decide))
  have hstep : ((s.beatBit BEAT_STATUS_LOCKED true).tellBeat s).inStep 8 = s.inStep 8 := by
    rw [State.inStep_of_same hsame]
    simp [State.inStep, State.stepNo, State.halted, State.bit, State.fld]
  have hexec : exec .lockedSet s = .next (if s.inStep 8 then ((s.beatBit BEAT_STATUS_LOCKED true).tellBeat s).enterStep8
      else (s.beatBit BEAT_STATUS_LOCKED true).tellBeat s) := by
    change execLockedSet s = _
    simp [execLockedSet, whenOk, hp, hn, h, hstep]
  obtain ⟨hlocked8, hnine, hcause, hbeat8⟩ := State.enterStep8_ends hlocked
  refine ⟨_, hexec, ?_⟩
  split
  next => exact ⟨hlocked8, fun _ => ⟨hnine, hcause⟩, hbeat8.trans hsame.beat⟩
  next h8 => exact ⟨hlocked, fun hin => absurd hin h8, hsame.beat⟩

/-! BEAT_SET -/

section

variable {dest : BitVec 7} (hr : s.i3cRefuses dest = false) (n : BitVec 32) (m : Byte)

theorem leNat_take_beatBody : leNat ((leBytes 4 n.toNat ++ [m]).take 4) = n.toNat := by
  rw [List.take_left' (length_leBytes 4 _), leNat_leBytes]
  exact Nat.mod_eq_of_lt n.isLt

theorem length_beatBody : (leBytes 4 n.toNat ++ [m]).length = 5 := by
  rw [List.length_append, length_leBytes, List.length_singleton]

include hr

theorem beatSet_delivers (hn : n.toNat < 2 ^ 28) :
    Completes (.beatSet ⟨dest, leBytes 4 n.toNat ++ [m]⟩ false) s (fun t => I3cAnswered 0x34 0 t
      ∧ t.beat.delivered = some (n.extractLsb' 0 28, m) ∧ t.beat.count = s.beat.count ∧ t.regs = s.regs) := by
  have hlow : BitVec.ofNat 28 n.toNat = n.extractLsb' 0 28 := by
    simp [BitVec.extractLsb'_eq_extractLsb, BitVec.toNat_eq]
  have hlast : BitVec.ofNat 8 (leNat ((leBytes 4 n.toNat ++ [m]).drop 4)) = m := by
    rw [List.drop_left' (length_leBytes 4 _)]
    simp [leNat]
  refine ⟨_, rfl, ?_⟩
  rw [leNat_take_beatBody, decide_eq_false (Nat.not_le.2 hn), State.i3cWrite_accepted hr (length_beatBody n m), hlow,
    hlast]
  exact ⟨⟨List.mem_cons_self, rfl, rfl⟩, rfl, rfl, rfl⟩

theorem beatSet_rejects (hn : 2 ^ 28 ≤ n.toNat) :
    Completes (.beatSet ⟨dest, leBytes 4 n.toNat ++ [m]⟩ false) s (fun t => I3cAnswered 0x34 3 t
      ∧ t.beat = s.beat ∧ t.regs = s.regs) := by
  refine ⟨_, rfl, ?_⟩
  rw [leNat_take_beatBody, decide_eq_true hn, State.i3cWrite_outOfRange hr (length_beatBody n m)]
  exact ⟨⟨List.mem_cons_self, rfl, rfl⟩, rfl, rfl⟩

end

/-! The frequency window, the 100 ms and the return -/

theorem beatFreqWindow_passes (hw : 1024 ≤ s.beat.winEdges) (h : s.lost = false)
    (hin : nearBeats (s.beat.lastEdge - s.beat.winStart) s.beat.winEdges 200 = true) :
    Completes .beatFreqWindow s (fun t => t.beat.winStart = s.beat.lastEdge ∧ t.beat.winEdges = 0
      ∧ t.beat.span = (s.beat.lastEdge - s.beat.winStart) * 1024 / s.beat.winEdges ∧ t.beat.count = s.beat.count
      ∧ OnlyRegs [] s { t with beat := s.beat }) := by
  have hexec : exec .beatFreqWindow s = .next { s with
      beat := { s.beat with
        winStart := s.beat.lastEdge, winEdges := 0
        span := (s.beat.lastEdge - s.beat.winStart) * 1024 / s.beat.winEdges } } := by
    change execBeatFreqWindow s = _
    simp [execBeatFreqWindow, whenOk, hw, h, hin]
  exact ⟨_, hexec, rfl, rfl, rfl, rfl, fun _ _ => rfl, rfl⟩

theorem beatFreqWindow_loses (hw : 1024 ≤ s.beat.winEdges) (h : s.lost = false)
    (hout : nearBeats (s.beat.lastEdge - s.beat.winStart) s.beat.winEdges 200 = false) :
    Completes .beatFreqWindow s (fun t => t.lost = true ∧ t.bit .BEAT_STATUS BEAT_STATUS_LOST_SEEN = true
      ∧ t.beat.goodAt = s.beat.winStart
      ∧ t.beat.goodCount = s.beat.count - BitVec.ofNat 48 s.beat.winEdges) := by
  have hexec : exec .beatFreqWindow s = .next (State.setLost
      { s with beat := { s.beat with winStart := s.beat.lastEdge, winEdges := 0 } } s.beat.winStart
      s.beat.winEdges) := by
    change execBeatFreqWindow s = _
    simp [execBeatFreqWindow, whenOk, hw, h, hout]
  exact ⟨_, hexec, State.setLost_sets _ _ _⟩

theorem lostLimitExpire_passes {dt : Nat} (h : s.lost = true) (hlong : s.beat.lostLong = false)
    (hdue : s.beat.goodAt + 100 * 75200000 ≤ s.now + dt) :
    Completes (.lostLimitExpire dt) s (fun t => t.beat.lostLong = true ∧ t.lost = true ∧ t.now = s.now + dt) := by
  have hexec : exec (.lostLimitExpire dt) s = .next (((State.timeoutBeats
      { s.pass dt with beat := { s.beat with lostLong := true } } 2).stopBeatWaits).governAll) := by
    change execLostLimitExpire dt s = _
    have hdue' : s.beat.goodAt + 100 * ticksPerMs ≤ (s.pass dt).now := hdue
    simp only [execLostLimitExpire, h, hlong, decide_eq_true hdue', Bool.not_false, Bool.and_self, if_true]
    rfl
  have hsame := ((SameForBeat.timeoutBeats { s.pass dt with beat := { s.beat with lostLong := true } } 2).trans
    (.stopBeatWaits _)).trans (.governAll _)
  exact ⟨_, hexec, by rw [hsame.beat], hsame.lost.trans h, hsame.now⟩

/-- The comparison has run its 1,024 beats: what it decides by. -/
theorem exec_beatReturnCompare (h : s.lost = true) (hr : s.bit .BEAT_STATUS BEAT_STATUS_RELOCK = false)
    (hcmp : 1024 < s.beat.cmpEdges) : exec .beatReturnCompare s = .next
      (if s.beat.cmpErr ≤ 64 ∧ s.beat.steady = true then
        (State.endLoss { s with beat := { s.beat with count := s.beat.cmpCount } }).beatEnd s
      else s.beatBit BEAT_STATUS_RELOCK true) := by
  change execBeatReturnCompare s = _
  simp [execBeatReturnCompare, whenOk, h, hr, hcmp]

theorem State.lost_endLoss (t : State) : t.endLoss.lost = false :=
  (State.bit_beatBit_other _ _ (by decide) (by decide) (by decide)).trans
    (State.bit_beatBit_self _ _ (by decide) (by decide))

theorem beatReturnCompare_ends (h : s.lost = true) (hr : s.bit .BEAT_STATUS BEAT_STATUS_RELOCK = false)
    (hcmp : 1024 < s.beat.cmpEdges) (herr : s.beat.cmpErr ≤ 64) (hs : s.beat.steady = true) :
    Completes .beatReturnCompare s (fun t => t.lost = false
      ∧ t.beat.count = s.beat.cmpCount ∧ t.beat.lostLong = false) := by
  refine ⟨_, exec_beatReturnCompare h hr hcmp, ?_⟩
  dsimp only
  rw [if_pos ⟨herr, hs⟩, State.lost_beatEnd, State.beat_beatEnd, State.lost_endLoss]
  exact ⟨rfl, rfl, rfl⟩

theorem beatReturnCompare_relocks (h : s.lost = true) (hr : s.bit .BEAT_STATUS BEAT_STATUS_RELOCK = false)
    (hcmp : 1024 < s.beat.cmpEdges) (hout : 64 < s.beat.cmpErr ∨ s.beat.steady = false) :
    Completes .beatReturnCompare s (fun t => t.lost = true
      ∧ t.bit .BEAT_STATUS BEAT_STATUS_RELOCK = true ∧ t.beat = s.beat ∧ RegsOutside [.BEAT_STATUS] s t) := by
  have hno : ¬(s.beat.cmpErr ≤ 64 ∧ s.beat.steady = true) := by
    rintro ⟨herr, hs⟩
    rcases hout with hout | hout
    · omega
    · simp [hs] at hout
  refine ⟨_, exec_beatReturnCompare h hr hcmp, ?_⟩
  rw [if_neg hno]
  refine ⟨?_, State.bit_beatBit_self _ _ (by decide) (by decide), rfl, fun q hq => ?_⟩
  · exact (State.bit_beatBit_other s true (by decide) (by decide) (by decide)).trans h
  · exact State.reg_beatBit s true q (by simpa using hq)

end

/-- Settles O51: clause by clause, what the command does, read through what the end of a change of the beat leaves. -/
theorem beatFollowsItsInput : Obligations.BeatFollowsItsInput := by
  unfold Obligations.BeatFollowsItsInput
  intro s
  refine ⟨fun hp dt high => ⟨beatEdge_counts hp, fun hi m => beatEdge_loads hp, beatEdge_compares hp,
      beatGapTimeout_loses hp, lockedSet_locks hp⟩,
    fun dest hr n m => ⟨beatSet_delivers hr n m, beatSet_rejects hr n m⟩,
    fun hw h => ⟨beatFreqWindow_passes hw h, beatFreqWindow_loses hw h⟩,
    fun dt => lostLimitExpire_passes,
    fun h hr hcmp => ⟨beatReturnCompare_ends h hr hcmp, beatReturnCompare_relocks h hr hcmp⟩⟩

end Sys2Proof.Machine

/-! ### Links check the beat (02_rack_beat.md R33 to R36; 11_switch_die.md R331, R346) -/

namespace Sys2Proof.Machine

open Sys2Proof

/-! The links that take part -/

/-- Which links carry the check, which take part and what they found is as it was. -/
structure SameLinks (s t : State) : Prop where
  variant : t.variant = s.variant
  reg : ∀ q, q.ofBeat = true → q ≠ .HOSTIF_NOTIFY → q ≠ .BEAT_STATUS → t.reg q = s.reg q
  links : t.beat.links = s.beat.links

theorem SameForBeat.sameLinks {s t : State} (h : SameForBeat s t) : SameLinks s t :=
  ⟨h.variant, fun q hq hn _ => h.reg q hq hn, congrArg Beat.links h.beat⟩

namespace SameLinks

section

variable {s t u : State}

theorem trans (h : SameLinks s t) (k : SameLinks t u) : SameLinks s u :=
  ⟨k.variant.trans h.variant, fun q hq hn hb => (k.reg q hq hn hb).trans (h.reg q hq hn hb), k.links.trans h.links⟩

theorem beatStatus (s : State) (f : Field) (v : Nat) : SameLinks s (s.setFld .BEAT_STATUS f v) :=
  ⟨rfl, fun q _ _ hb => by simp [State.setFld, hb], rfl⟩

theorem beatBit (s : State) (f : Field) (b : Bool) : SameLinks s (s.beatBit f b) := beatStatus s f _

theorem reloaded (s : State) (b : Bool) : SameLinks s { s with beat := { s.beat with reloaded := b } } :=
  ⟨rfl, fun _ _ _ _ => rfl, rfl⟩

theorem beatEnd (s old : State) : SameLinks s (s.beatEnd old) := by
  have hdrop : SameLinks s s.dropLock :=
    ⟨s.variant_dropLock, fun q _ _ hb => s.reg_dropLock q hb, congrArg Beat.links s.beat_dropLock⟩
  exact hdrop.trans (s.beatEnd_same old).sameLinks

end

variable {s t : State} (h : SameLinks s t)

include h

theorem link (p : Nat) : t.link p = s.link p := by rw [State.link, h.links, State.link]

theorem checks : t.checks = s.checks := by
  funext p
  have hport (f : Field) : t.fld (.PORT_STATUS p) f = s.fld (.PORT_STATUS p) f := by
    rw [State.fld, h.reg (.PORT_STATUS p) rfl nofun nofun, State.fld]
  have hpresent : t.portPresent p = s.portPresent p := by
    simp only [State.portPresent, State.fld, h.reg .CAP_UNITS rfl nofun nofun]
  rw [State.checks, State.usable, hpresent, hport, hport, State.checks, State.usable]

theorem partPorts : t.partPorts = s.partPorts := by
  simp only [State.partPorts, State.checkPorts, h.checks, h.link]

theorem disagreeing (pick : Nat → Bool) : t.disagreeing pick = s.disagreeing pick := by
  simp only [State.disagreeing, h.partPorts, h.link]

end SameLinks

theorem State.link_of_beat {s t : State} (h : t.beat = s.beat) (p : Nat) : t.link p = s.link p := by
  rw [State.link, h, State.link]

@[simp] theorem State.link_modLink (s : State) (p : Nat) (f : LinkCheck → LinkCheck) (q : Nat) :
    (s.modLink p f).link q = if q = p then f (s.link p) else s.link q :=
  Tab.get_put _ _ _ _ _

/-! MISMATCH and POD_SKEW -/

/-- More than half of the in-rack links that take part disagree (R34). -/
def State.tooMany (s : State) : Prop :=
  (s.partPorts.filter (inRack s.variant)).length < 2 * (s.disagreeing (inRack s.variant)).length

/-- IN_RACK_MISMATCH and POD_SKEW show the links that disagree. -/
def State.skewShown (s : State) : State :=
  (s.setFld .BEAT_STATUS BEAT_STATUS_IN_RACK_MISMATCH (s.disagreeing (inRack s.variant)).length).beatBit
    BEAT_STATUS_POD_SKEW (!(s.disagreeing (isViaduct s.variant)).isEmpty)

/-- MISMATCH and MISMATCH_SEEN are set; nobody has been told yet. -/
def State.mismatchSet (s : State) : State :=
  (State.beatBit { s with beat := { s.beat with reloaded := false } } BEAT_STATUS_MISMATCH true).beatBit
    BEAT_STATUS_MISMATCH_SEEN true

section

variable (s : State) (checked : Bool)

theorem State.tally_stays (h : s.tooMany) (hm : s.mismatch = true) : s.tally checked = s.skewShown :=
  (if_pos h).trans (if_pos hm)

/-- R34: beyond the notice and the descriptors and waits that time out, MISMATCH is set and told. -/
theorem State.tally_sets (h : s.tooMany) (hm : s.mismatch = false) :
    SameForBeat (s.skewShown.mismatchSet.notify HOSTIF_NOTIFY_BEAT) (s.tally checked) := by
  rw [show s.tally checked = _ from (if_pos h).trans (if_neg (by simp [hm]))]
  exact ((SameForBeat.notice _ _ _ _).trans (.timeoutBeats _ _)).trans (.stopBeatWaits _)

theorem State.tally_agrees (h : ¬s.tooMany) : s.tally checked =
    if s.mismatch && s.beat.reloaded && checked then s.skewShown.beatBit BEAT_STATUS_MISMATCH false
    else s.skewShown :=
  if_neg h

theorem State.podSkew_skewShown :
    s.skewShown.bit .BEAT_STATUS BEAT_STATUS_POD_SKEW = !(s.disagreeing (isViaduct s.variant)).isEmpty :=
  State.bit_beatBit_self _ _ (by decide) (by decide)

theorem State.mismatch_skewShown : s.skewShown.mismatch = s.mismatch :=
  (State.bit_beatBit_other _ _ (by decide) (by decide) (by decide)).trans
    (State.bit_setFld_other s .BEAT_STATUS _ (by decide) (by decide) (by decide))

theorem State.skewShown_sameLinks : SameLinks s s.skewShown :=
  (SameLinks.beatStatus s _ _).trans (SameLinks.beatBit _ _ _)

theorem State.mismatchSet_sameLinks : SameLinks s s.mismatchSet :=
  ((SameLinks.reloaded s _).trans (SameLinks.beatBit _ _ _)).trans (SameLinks.beatBit _ _ _)

theorem State.podSkew_mismatchSet :
    s.mismatchSet.bit .BEAT_STATUS BEAT_STATUS_POD_SKEW = s.bit .BEAT_STATUS BEAT_STATUS_POD_SKEW :=
  (State.bit_beatBit_other _ _ (by decide) (by decide) (by decide)).trans
    (State.bit_beatBit_other _ _ (by decide) (by decide) (by decide))

theorem State.mismatch_mismatchSet : s.mismatchSet.mismatch = true :=
  (State.bit_beatBit_other _ _ (by decide) (by decide) (by decide)).trans
    (State.bit_beatBit_self _ _ (by decide) (by decide))

theorem State.seen_mismatchSet : s.mismatchSet.bit .BEAT_STATUS BEAT_STATUS_MISMATCH_SEEN = true :=
  State.bit_beatBit_self _ _ (by decide) (by decide)

/-- A tally that sets MISMATCH leaves the beat as setting it does. -/
theorem State.tally_same (h : s.tooMany) (hm : s.mismatch = false) :
    SameForBeat s.skewShown.mismatchSet (s.tally checked) :=
  (SameForBeat.notify _ (.inl rfl)).trans (s.tally_sets checked h hm)

/-- What every tally leaves, and that POD_SKEW stands while a viaduct link disagrees (R36). -/
theorem State.tally_keeps : SameLinks s (s.tally checked) ∧ (s.tally checked).beat.count = s.beat.count
    ∧ (s.tally checked).bit .BEAT_STATUS BEAT_STATUS_POD_SKEW = !(s.disagreeing (isViaduct s.variant)).isEmpty := by
  have hlinks := s.skewShown_sameLinks
  have hskew := s.podSkew_skewShown
  by_cases h : s.tooMany
  · cases hm : s.mismatch with
    | true =>
      rw [s.tally_stays checked h hm]
      exact ⟨hlinks, rfl, hskew⟩
    | false =>
      have hsame := s.tally_same checked h hm
      exact ⟨(hlinks.trans s.skewShown.mismatchSet_sameLinks).trans hsame.sameLinks, by rw [hsame.beat]; rfl,
        (hsame.bit _).trans (s.skewShown.podSkew_mismatchSet.trans hskew)⟩
  · rw [s.tally_agrees checked h]
    split
    · exact ⟨hlinks.trans (SameLinks.beatBit _ _ _), rfl,
        (State.bit_beatBit_other _ _ (by decide) (by decide) (by decide)).trans hskew⟩
    · exact ⟨hlinks, rfl, hskew⟩

/-- R34: MISMATCH stands after a tally in which too many disagree, and one that sets it tells the host. -/
theorem State.tally_mismatch (h : s.tooMany) : (s.tally checked).mismatch = true
    ∧ (s.mismatch = false → (s.tally checked).bit .BEAT_STATUS BEAT_STATUS_MISMATCH_SEEN = true
      ∧ (s.tally checked).bit .HOSTIF_NOTIFY HOSTIF_NOTIFY_BEAT = true) := by
  cases hm : s.mismatch with
  | true =>
    rw [s.tally_stays checked h hm, s.mismatch_skewShown, hm]
    exact ⟨rfl, nofun⟩
  | false =>
    have hsame := s.tally_same checked h hm
    exact ⟨hsame.mismatch.trans s.skewShown.mismatch_mismatchSet,
      fun _ => ⟨(hsame.bit _).trans s.skewShown.seen_mismatchSet,
        (s.tally_sets checked h hm).told (State.told_notify _)⟩⟩

/-- R35: where at least half agree, a check that comes after a load clears MISMATCH. -/
theorem State.tally_clears (h : ¬s.tooMany) : (s.tally true).mismatch = (s.mismatch && !s.beat.reloaded) := by
  rw [s.tally_agrees true h]
  split
  next hc =>
    obtain ⟨hm, hr⟩ : s.mismatch = true ∧ s.beat.reloaded = true := by simpa using hc
    rw [hm, hr]
    exact State.bit_beatBit_self _ _ (by decide) (by decide)
  next hc =>
    rw [s.mismatch_skewShown]
    cases hr : s.beat.reloaded with
    | false => simp
    | true =>
      have hm : s.mismatch = false := by simpa [hr] using hc
      simp [hm]

end

/-! A check on its way out -/

theorem Switch.egressQ_enqueue (w : Switch) (port : Nat) (k : Packet) :
    (w.enqueue port k).egressQ port (pktQueue k) = w.egressQ port (pktQueue k) ++ [k] := by
  simp [Switch.enqueue, Switch.egressQ, Tab.modify]

section

variable (s : State) {port : Nat} (hp : port < 36) {k : Packet}

theorem State.restated_keeps (k' : Packet) : (s.restated k k').sw.egress = s.sw.egress
    ∧ (s.restated k k').regs = s.regs ∧ (s.restated k k').out = s.out ∧ (s.restated k k').beat = s.beat := by
  unfold State.restated
  split <;> exact ⟨rfl, rfl, rfl, rfl⟩

include hp

theorem State.chargeTo_external : s.chargeTo port k = s.modSw (fun w => w.enqueue port k) := by
  have h64 : ¬64 ≤ port := by omega
  simp [State.chargeTo, State.queuePacket, h64]

/-- R331: an external port drops no packet of a class other than Q. -/
theorem State.fate_of_not_classQ (hk : k.cls ≠ classQ) : s.fate port k = .keep ∨ s.fate port k = .mark := by
  unfold State.fate
  dsimp only
  rw [if_pos hp, if_neg hk]
  split
  · exact .inr rfl
  · exact .inl rfl

theorem State.settle_queues (hk : k.cls ≠ classQ) : s.settle port k = s.modSw (fun w => w.enqueue port k)
    ∨ s.settle port k =
      (s.restated k { k with mark := true }).modSw (fun w => w.enqueue port { k with mark := true }) := by
  rcases s.fate_of_not_classQ hp hk with h | h
  · left
    rw [State.settle, h]
    exact s.chargeTo_external hp
  · right
    rw [State.settle, h]
    exact State.chargeTo_external _ hp

/-- Such a packet is queued on the port, marked or as it is, and nothing else is done with it. -/
theorem State.settle_of_not_classQ (hk : k.cls ≠ classQ) : ∃ k', (k' = k ∨ k' = { k with mark := true })
    ∧ (s.settle port k).sw.egressQ port (pktQueue k') = s.sw.egressQ port (pktQueue k') ++ [k']
    ∧ (s.settle port k).regs = s.regs ∧ (s.settle port k).out = s.out ∧ (s.settle port k).beat = s.beat := by
  rcases s.settle_queues hp hk with h | h
  · rw [h]
    exact ⟨k, .inl rfl, s.sw.egressQ_enqueue port k, rfl, rfl, rfl⟩
  · obtain ⟨hegress, hregs, hout, hbeat⟩ := s.restated_keeps (k := k) { k with mark := true }
    rw [h]
    refine ⟨_, .inr rfl, (Switch.egressQ_enqueue _ port _).trans ?_, hregs, hout, hbeat⟩
    rw [Switch.egressQ, hegress, Switch.egressQ]

end

/-- The link has been noted as checked now, and the check has gone out on it. -/
def State.checkSent (s : State) (p : Nat) : State :=
  (s.modLink p (fun l => { l with sentAt := s.beatsPassed + 1 })).emit (.beatCheck p s.beatNow (s.position % 256))

/-- The far end's beat has been compared with the own one: what the check says of its link (R33). -/
def State.checkHeard (s : State) (p : Nat) (d : Int) : State :=
  s.modLink p (fun l =>
    { l with part := true, agrees := decide (d.natAbs ≤ agreeBound s.variant p), d := d, heardAt := s.beatsPassed })

/-- The link no longer takes part. -/
def State.checkLapsed (s : State) (p : Nat) : State := s.modLink p (fun l => { l with part := false })

section

variable {s : State} {p : Nat} (hp : p < 36)

include hp

theorem beatCheckSend_sends (hc : s.checks p = true) (hl : s.beat.loaded = true)
    (hdue : (s.link p).sentAt = 0 ∨ (s.link p).sentAt - 1 + 1024 ≤ s.beatsPassed) :
    Completes (.beatCheckSend p) s (fun t => t.out = .beatCheck p s.beatNow (s.position % 256) :: s.out
      ∧ (t.link p).sentAt = s.beatsPassed + 1 ∧ (t.link p).part = (s.link p).part
      ∧ (∃ k : Packet, t.sw.egressQ p (pktQueue k) = s.sw.egressQ p (pktQueue k) ++ [k] ∧ k.op = 0x20 ∧ k.cls = 2
        ∧ k.payload = leBytes 8 s.beatNow.toNat ++ leBytes 8 (s.position % 256))
      ∧ (∀ q, q ≠ p → t.link q = s.link q) ∧ t.regs = s.regs) := by
  have hexec : exec (.beatCheckSend p) s = .next ((s.checkSent p).settle p (s.checkPacket p)) := by
    change execBeatCheckSend p s = _
    simp [execBeatCheckSend, onPort, whenOk, hp, hc, hl, hdue, State.checkSent]
  obtain ⟨k, hk, hegress, hregs, hout, hbeat⟩ := (s.checkSent p).settle_of_not_classQ hp (k := s.checkPacket p)
    (show classM ≠ classQ by decide)
  have hlink (q : Nat) : ((s.checkSent p).settle p (s.checkPacket p)).link q =
      if q = p then { s.link p with sentAt := s.beatsPassed + 1 } else s.link q :=
    (State.link_of_beat hbeat q).trans (s.link_modLink p (fun l => { l with sentAt := s.beatsPassed + 1 }) q)
  have hpacket : k.op = 0x20 ∧ k.cls = 2
      ∧ k.payload = leBytes 8 s.beatNow.toNat ++ leBytes 8 (s.position % 256) := by
    rcases hk with rfl | rfl <;> exact ⟨rfl, rfl, rfl⟩
  exact ⟨_, hexec, hout, by rw [hlink, if_pos rfl], by rw [hlink, if_pos rfl], ⟨k, hegress, hpacket⟩,
    fun q hq => by rw [hlink, if_neg hq], hregs⟩

theorem exec_beatCheck (hc : s.checks p = true) (hl : s.beat.loaded = true) (farBeat : BitVec 48) (farPhase : Nat) :
    exec (.beatCheck p farBeat farPhase) s = .next ((s.takeCheck p farBeat farPhase).beatEnd s) := by
  change execBeatCheck p farBeat farPhase s = _
  simp [execBeatCheck, onPort, whenOk, hp, hc, hl]

omit hp in
/-- Beyond the tally, a check brings at most a notice. -/
theorem State.takeCheck_same {farBeat : BitVec 48} {farPhase : Nat} {d : Int}
    (hd : d = toSigned 56 (farBeat.toNat * 256 + farPhase + 2 ^ 57
      - (s.position + 2 ^ 56 - (s.port p).latency * 256 / 75200))) :
    SameForBeat ((s.checkHeard p d).tally true) (s.takeCheck p farBeat farPhase) := by
  subst hd
  exact .ite (.notice _ _ _ _) (.refl _)

theorem beatCheck_compares (hc : s.checks p = true) (hl : s.beat.loaded = true) {farBeat : BitVec 48} {farPhase : Nat}
    {d : Int} (hd : d = toSigned 56 (farBeat.toNat * 256 + farPhase + 2 ^ 57
      - (s.position + 2 ^ 56 - (s.port p).latency * 256 / 75200))) :
    Completes (.beatCheck p farBeat farPhase) s (fun t =>
      (t.link p).part = true ∧ (t.link p).d = d ∧ (t.link p).heardAt = s.beatsPassed
        ∧ (t.link p).agrees = decide (d.natAbs ≤ if isViaduct s.variant p then 128 else 64)
        ∧ (∀ q, q ≠ p → t.link q = s.link q) ∧ t.beat.count = s.beat.count
        ∧ ((t.partPorts.filter (inRack s.variant)).length < 2 * (t.disagreeing (inRack s.variant)).length →
          t.mismatch = true ∧ (s.mismatch = false → t.bit .BEAT_STATUS BEAT_STATUS_MISMATCH_SEEN = true
            ∧ t.bit .HOSTIF_NOTIFY HOSTIF_NOTIFY_BEAT = true))
        ∧ (2 * (t.disagreeing (inRack s.variant)).length ≤ (t.partPorts.filter (inRack s.variant)).length →
          t.mismatch = (s.mismatch && !s.beat.reloaded))
        ∧ t.bit .BEAT_STATUS BEAT_STATUS_POD_SKEW = !(t.disagreeing (isViaduct s.variant)).isEmpty) := by
  have hsame := State.takeCheck_same hd
  obtain ⟨htally, hcount, hskew⟩ := (s.checkHeard p d).tally_keeps true
  have hlinks := (htally.trans hsame.sameLinks).trans (SameLinks.beatEnd _ s)
  have hlink (q : Nat) := (hlinks.link q).trans (s.link_modLink p _ q)
  refine ⟨_, exec_beatCheck hp hc hl farBeat farPhase, ?_⟩
  dsimp only
  rw [hlink, if_pos rfl, hlinks.partPorts, hlinks.disagreeing, hlinks.disagreeing, State.mismatch_beatEnd,
    hsame.mismatch, State.beat_beatEnd, hsame.beat, State.bit_beatEnd _ _ (by decide), hsame.bit,
    State.bit_beatEnd _ _ (by decide), hsame.bit]
  refine ⟨rfl, rfl, rfl, rfl, fun q hq => by rw [hlink, if_neg hq], hcount, fun h => ?_, fun h => ?_, hskew⟩
  · obtain ⟨hm, htold⟩ := (s.checkHeard p d).tally_mismatch true h
    refine ⟨hm, fun hn => ?_⟩
    obtain ⟨hseen, hnotify⟩ := htold hn
    exact ⟨hseen, State.told_beatEnd _ _ (hsame.told hnotify)⟩
  · exact (s.checkHeard p d).tally_clears (Nat.not_lt.2 h)

theorem beatCheckLapse_lapses (hpart : (s.link p).part = true) (hdue : (s.link p).heardAt + 2048 ≤ s.beatsPassed) :
    Completes (.beatCheckLapse p) s (fun t => (t.link p).part = false
      ∧ (∀ q, q ≠ p → t.link q = s.link q) ∧ t.beat.count = s.beat.count) := by
  have hexec : exec (.beatCheckLapse p) s = .next (((s.checkLapsed p).tally false).beatEnd s) := by
    change execBeatCheckLapse p s = _
    simp [execBeatCheckLapse, onPort, whenOk, hp, hpart, hdue, State.checkLapsed]
  obtain ⟨htally, hcount, -⟩ := (s.checkLapsed p).tally_keeps false
  have hlink (q : Nat) := ((htally.trans (SameLinks.beatEnd _ s)).link q).trans (s.link_modLink p _ q)
  refine ⟨_, hexec, ?_, fun q hq => ?_, ?_⟩
  · rw [hlink, if_pos rfl]
  · rw [hlink, if_neg hq]
  · rw [State.beat_beatEnd, hcount]
    rfl

end

/-- Settles O52: a check that goes out, one that comes and one that lapses each change their own link, and the tally of
the links that take part sets what BEAT_STATUS shows. -/
theorem linksCheckTheBeat : Obligations.LinksCheckTheBeat := by
  unfold Obligations.LinksCheckTheBeat
  intro s p hp
  exact ⟨fun hc hl => ⟨beatCheckSend_sends hp hc hl, fun _ _ _ _ hd => beatCheck_compares hp hc hl hd⟩,
    beatCheckLapse_lapses hp⟩

end Sys2Proof.Machine

/-! ### A table outside a list spliced into it -/

namespace Sys2Proof.Machine

open Sys2Proof

section

variable {α : Type} (dflt : α)

/-- The entries whose keys a test admits, before a table with no entry at the key. -/
theorem Tab.get_filter_append (q : Nat → Bool) (t : Tab α) {u : Tab α} {i : Nat} (hu : Tab.get dflt u i = dflt) :
    Tab.get dflt (t.filter (fun p => q p.1) ++ u) i = if q i then Tab.get dflt t i else dflt := by
  induction t with
  | nil => simpa [Tab.get] using hu
  | cons p t ih =>
    by_cases hp : p.1 = i
    · subst hp
      by_cases hq : q p.1 <;> simp_all [Tab.get]
    · by_cases hq : q p.1 <;> simp_all [Tab.get]

theorem Tab.lt_of_mem_listed [DecidableEq α] {l : List α} {k : Nat} {p : Nat × α} (h : p ∈ listed dflt k l) :
    p.1 < k + l.length := by
  induction l generalizing k with
  | nil => simp [listed] at h
  | cons v l ih =>
    have hp : p = (k, v) ∨ p ∈ listed dflt (k + 1) l := by
      rw [listed] at h
      split at h
      · exact .inr h
      · exact List.mem_cons.1 h
    rw [List.length_cons]
    rcases hp with rfl | hp
    · simp
    · have := ih hp
      omega

/-- Outside the addresses of a list spliced into it, a table reads as it did. -/
theorem Tab.get_splice_of_not_mem [DecidableEq α] (t : Tab α) {k i : Nat} {l : List α}
    (hi : i < k ∨ k + l.length ≤ i) : Tab.get dflt (Tab.splice dflt t k l) i = Tab.get dflt t i := by
  have hafter : Tab.get dflt (t.filter (fun p => decide (k + l.length ≤ p.1))) i =
      if k + l.length ≤ i then Tab.get dflt t i else dflt := by
    simpa using Tab.get_filter_append dflt (fun j => decide (k + l.length ≤ j)) t (u := []) (i := i) rfl
  rw [Tab.splice, List.append_assoc]
  rcases hi with hi | hi
  · have hrest : Tab.get dflt (listed dflt k l ++ t.filter (fun p => decide (k + l.length ≤ p.1))) i = dflt := by
      rw [Tab.get_listed_append dflt (hafter.trans (if_neg (by omega))), if_neg (by omega)]
    rw [Tab.get_filter_append dflt (fun j => decide (j < k)) t hrest, if_pos (by simpa using hi)]
  · rw [Tab.get_append_of_not_mem dflt (fun p hp => by simp at hp; omega),
      Tab.get_append_of_not_mem dflt (fun p hp => by have := Tab.lt_of_mem_listed dflt hp; omega), hafter, if_pos hi]

end

/-! ### Elements of a list by position -/

section

variable {α : Type} (d : α) {n i : Nat}

theorem nth_eq_getD (l : List α) (i : Nat) : nth d l i = l.getD i d := by
  induction l generalizing i with
  | nil => rfl
  | cons x l ih =>
    cases i with
    | zero => rfl
    | succ i => simpa [nth] using ih i

theorem nth_map_range (g : Nat → α) (hi : i < n) : nth d ((List.range n).map g) i = g i := by
  simp [nth_eq_getD, hi]

theorem nth_replicate : nth d (List.replicate n d) i = d := by
  simp [nth_eq_getD, List.getElem?_replicate, apply_ite (Option.getD · d)]

theorem map_zipIdx_range {β : Type} (g : Nat → α) (h : α × Nat → β) (n : Nat) :
    (((List.range n).map g).zipIdx).map h = (List.range n).map fun i => h (g i, i) := by
  apply List.ext_getElem <;> simp

/-- A list over a double range is the two halves one after the other. -/
theorem map_range_double (g : Nat → α) (n : Nat) :
    (List.range (n + n)).map g = (List.range n).map g ++ (List.range n).map fun i => g (n + i) := by
  simp [List.range_add, Function.comp_def]

end

/-- What a fold of flags starts from can be added at its end. -/
theorem foldl_or_start {α : Type} (f : α → BitVec 5) (l : List α) (b : BitVec 5) :
    l.foldl (fun a x => a ||| f x) b = l.foldl (fun a x => a ||| f x) 0 ||| b := by
  induction l generalizing b with
  | nil => simp
  | cons x l ih =>
    have hzero : 0 ||| f x = f x := BitVec.zero_or
    rw [List.foldl_cons, ih, List.foldl_cons, ih (0 ||| f x), hzero, BitVec.or_assoc, BitVec.or_comm b]

/-! ### The vector registers, the generator and the flags of a context -/

section

variable (x : Ctx) {ls : List Lane} {i : Nat}

/-- 04_benches.md R86: a write of 64 lanes changes one register. -/
theorem Ctx.lane_setVreg (v : Nat) (hl : ls.length = 64) (r : Nat) (hi : i < 64) :
    (x.setVreg v ls).lane r i = if r = v then nth 0 ls i else x.lane r i := by
  by_cases hr : r = v
  · subst hr
    rw [if_pos rfl, Ctx.lane, Ctx.setVreg, Tab.get_splice_of_mem 0 _ (by omega) (by omega), Nat.add_sub_cancel_left]
  · rw [if_neg hr, Ctx.lane, Ctx.setVreg, Tab.get_splice_of_not_mem 0 _ (by omega), Ctx.lane]

/-- The context after an instruction that draws where its rounding is stochastic (03_number_formats.md R72). -/
def Ctx.drawn (f : VForm) : Ctx := { x with rng := if f.rnd = 2 then srNext x.rng else x.rng }

/-- The context with another state shown, and its timer to match. -/
def Ctx.shows (st : CtxSt) (acc since : Nat) : Ctx := { x with st := st, timerAcc := acc, timerFrom := since }

theorem Ctx.raise_eq (strict : Bool) (fl : BitVec 5) :
    x.raise strict fl = { x with flags := if strict then x.flags ||| fl else x.flags } := by
  unfold Ctx.raise
  split <;> rfl

variable (f : VForm) (strict : Bool) (fl : BitVec 5) (st : CtxSt) (acc since v r : Nat)

@[simp] theorem Ctx.lane_drawn : (x.drawn f).lane r i = x.lane r i := rfl
@[simp] theorem Ctx.lane_raise : (x.raise strict fl).lane r i = x.lane r i := by rw [Ctx.raise_eq]; rfl
@[simp] theorem Ctx.lane_shows : (x.shows st acc since).lane r i = x.lane r i := rfl

@[simp] theorem Ctx.rng_setVreg : (x.setVreg v ls).rng = x.rng := rfl
@[simp] theorem Ctx.rng_drawn : (x.drawn f).rng = if f.rnd = 2 then srNext x.rng else x.rng := rfl
@[simp] theorem Ctx.rng_raise : (x.raise strict fl).rng = x.rng := by rw [Ctx.raise_eq]
@[simp] theorem Ctx.rng_shows : (x.shows st acc since).rng = x.rng := rfl

@[simp] theorem Ctx.flags_setVreg : (x.setVreg v ls).flags = x.flags := rfl
@[simp] theorem Ctx.flags_drawn : (x.drawn f).flags = x.flags := rfl
@[simp] theorem Ctx.flags_raise : (x.raise strict fl).flags = if strict then x.flags ||| fl else x.flags := by
  rw [Ctx.raise_eq]
@[simp] theorem Ctx.flags_shows : (x.shows st acc since).flags = x.flags := rfl

@[simp] theorem Ctx.st_setVreg : (x.setVreg v ls).st = x.st := rfl
@[simp] theorem Ctx.st_drawn : (x.drawn f).st = x.st := rfl
@[simp] theorem Ctx.st_raise : (x.raise strict fl).st = x.st := by rw [Ctx.raise_eq]

end

namespace SameBesideVectors

variable {x y : Ctx}

theorem refl (x : Ctx) : SameBesideVectors x x := rfl

theorem setVreg (h : SameBesideVectors x y) (v : Nat) (ls : List Lane) : SameBesideVectors x (y.setVreg v ls) := h

theorem drawn (h : SameBesideVectors x y) (f : VForm) : SameBesideVectors x (y.drawn f) := h

theorem raise (h : SameBesideVectors x y) (strict : Bool) (fl : BitVec 5) :
    SameBesideVectors x (y.raise strict fl) := by
  rw [Ctx.raise_eq]
  exact h

theorem shows (h : SameBesideVectors x y) (st : CtxSt) (acc since : Nat) :
    SameBesideVectors x (y.shows st acc since) := h

end SameBesideVectors

/-! ### A step that changes one context and the requests of its stack -/

/-- Context `c` has become `x`, and its stack holds the requests of `k`; all else is as in `s`. -/
structure CtxNow (c : CtxId) (x : Ctx) (k : Stack) (s t : State) : Prop where
  ctx : t.ctx c = x
  outside : SameOutsideCtx c s t
  reqs : (t.stack c.stack).reqs = k.reqs

namespace CtxNow

variable {c : CtxId} {x : Ctx} {k : Stack} {s t : State}

theorem refl (c : CtxId) (s : State) : CtxNow c (s.ctx c) (s.stack c.stack) s s := ⟨rfl, .refl c s, rfl⟩

theorem modCtx (h : CtxNow c x k s t) (g : Ctx → Ctx) : CtxNow c (g x) k s (t.modCtx c g) where
  ctx := by simp [h.ctx]
  outside := h.outside.trans (.modCtx c t g)
  reqs := by simp [h.reqs]

theorem dropDest (h : CtxNow c x k s t) (key : Nat) :
    CtxNow c x (k.dropDest c.bench c.ctx key) s (t.dropDest c key) where
  ctx := (t.ctx_modStack c.stack (fun k => k.dropDest c.bench c.ctx key) rfl c).trans h.ctx
  outside := h.outside.trans (.modReqs c t _ fun _ => rfl)
  reqs := by simp [State.dropDest, Stack.dropDest, h.reqs]

theorem writeV (h : CtxNow c x k s t) (v : Nat) (ls : List Lane) :
    CtxNow c (x.setVreg v ls) (k.dropDest c.bench c.ctx (32 + v)) s (t.writeV c v ls) :=
  (h.modCtx (fun y => y.setVreg v ls)).dropDest (vKey v)

theorem draw (h : CtxNow c x k s t) (f : VForm) : CtxNow c (x.drawn f) k s (t.draw c (isSr f)) := by
  unfold State.draw Ctx.drawn
  by_cases hf : f.rnd = 2
  · rw [if_pos (show isSr f = true by simp [isSr, hf]), if_pos hf]
    exact h.modCtx (fun y => { y with rng := srNext y.rng })
  · rw [if_neg (show ¬isSr f = true by simpa [isSr] using hf), if_neg hf]
    exact h

theorem raise (h : CtxNow c x k s t) (strict : Bool) (fl : BitVec 5) :
    CtxNow c (x.raise strict fl) k s (t.modCtx c (fun y => y.raise strict fl)) :=
  h.modCtx (fun y => y.raise strict fl)

/-- Showing what it waits for changes at most the state of a context and its timer. -/
theorem refresh (h : CtxNow c x k s t) (hx : x.st = .run) :
    ∃ st acc since, CtxNow c (x.shows st acc since) k s (t.refresh c) := by
  rcases t.refresh_cases c (by simp [h.ctx, hx]) with hr | ⟨st, hr⟩
  · exact ⟨x.st, x.timerAcc, x.timerFrom, by rw [hr]; exact h⟩
  · exact ⟨st, x.timer t.now, t.now, by rw [hr]; exact h.modCtx (fun y => y.enter t.now st)⟩

end CtxNow

/-! ### What a vector instruction reads and writes -/

section

variable {x : Ctx} {f : VForm} {i : Nat}

theorem codes_eq (x : Ctx) (v : BitVec 6) : codes x v = (List.range 64).map (code x v) := by
  simp [codes, Ctx.vreg, code, Function.comp_def]

theorem drawBits_eq (x : Ctx) (f : VForm) : drawBits (isSr f) x = (List.range 64).map (laneDraw x f) := by
  simp [drawBits, isSr, laneDraw]

@[simp] theorem nth_codes (x : Ctx) (v : BitVec 6) (hi : i < 64) : nth 0 (codes x v) i = code x v i := by
  rw [codes_eq, nth_map_range 0 _ hi]

@[simp] theorem nth_drawBits (x : Ctx) (f : VForm) (hi : i < 64) : nth 0 (drawBits (isSr f) x) i = laneDraw x f i := by
  rw [drawBits_eq, nth_map_range 0 _ hi]

/-- 04_benches.md R111: the lanes that the mask selects change, in the destination only. -/
theorem lanesAre_maskedLanes (x : Ctx) (f : VForm) (g : Nat → Nat) :
    LanesAre f.vd.toNat (masked x f (fun i => BitVec.ofNat 32 (g i))) x
      (x.setVreg f.vd.toNat (maskedLanes x f ((List.range 64).map g))) := by
  intro r i hi
  rw [x.lane_setVreg f.vd.toNat (by simp [maskedLanes]) r hi, maskedLanes, nth_map_range 0 _ hi, nth_map_range 0 _ hi,
    masked]

end

/-! ### A vector instruction of a running context -/

section

variable {s : State} {c : CtxId} {f : VForm} {op : Nat} {i : Instr}

theorem Runs.st_run (hr : Runs s c) : (s.ctx c).st = .run := by
  obtain ⟨-, hrun⟩ := hr
  simp only [State.running, Bool.and_eq_true, decide_eq_true_eq] at hrun
  exact hrun.1

theorem loneV_next (hr : Runs s c) (hv : s.runsV op f = true) (eff : Ctx → State → State) :
    loneV op c f s eff = .next ((eff (s.ctx c) s).refresh c) := by
  obtain ⟨hwf, hrun⟩ := hr
  simp only [CtxId.wf, Bool.and_eq_true, decide_eq_true_eq, and_assoc] at hwf
  simp [loneV, lone, onCtx, whenOk, hwf, hrun, hv]

theorem completes_of_loneV {eff : Ctx → State → State} {P : State → Prop} (hr : Runs s c)
    (hv : s.runsV op f = true) (hi : exec i s = loneV op c f s eff) (hP : P ((eff (s.ctx c) s).refresh c)) :
    Completes i s P :=
  ⟨_, hi.trans (loneV_next hr hv eff), hP⟩

/-! ### Rounded results, lane by lane -/

theorem vResult_roundedWritten (hr : Runs s c) (g : Nat → Rounded) :
    RoundedWritten c f g s ((vResult c f (s.ctx c) g s).refresh c) := by
  obtain ⟨st, acc, since, h⟩ :=
    ((((CtxNow.refl c s).writeV f.vd.toNat (maskedLanes (s.ctx c) f (((List.range 64).map g).map Prod.fst))).draw
      f).raise f.strict (maskedFlags (s.ctx c) f ((List.range 64).map g))).refresh (by simpa using hr.st_run)
  change CtxNow _ _ _ _ ((vResult c f (s.ctx c) g s).refresh c) at h
  have hlanes := lanesAre_maskedLanes (s.ctx c) f (fun i => (g i).1)
  refine ⟨?_, by simp [h.ctx], by simp [h.ctx], ?_, h.outside, h.reqs⟩
  · simpa [h.ctx, LanesAre, Function.comp_def] using hlanes
  · rw [h.ctx]
    exact ((((SameBesideVectors.refl _).setVreg _ _).drawn f).raise _ _).shows _ _ _

theorem vResult_congr {g g' : Nat → Rounded} {x : Ctx} (h : ∀ i < 64, g i = g' i) :
    vResult c f x g s = vResult c f x g' s := by
  have hmap : (List.range 64).map g = (List.range 64).map g' :=
    List.map_congr_left fun i hi => h i (List.mem_range.1 hi)
  rw [vResult, hmap, vResult]

/-- A vector instruction whose lanes are those of `g` writes the rounded results of `g`. -/
theorem rounds_completes {eff : Ctx → State → State} {g g' : Nat → Rounded} (hr : Runs s c)
    (hi : exec i s = loneV op c f s eff) (he : eff (s.ctx c) s = vResult c f (s.ctx c) g' s)
    (hg : ∀ j < 64, g' j = g j) (hv : s.runsV op f = true) : Completes i s (RoundedWritten c f g s) := by
  refine completes_of_loneV hr hv hi ?_
  rw [he, vResult_congr hg]
  exact vResult_roundedWritten hr g

theorem effArith2_completes (hr : Runs s c) (a : Arith2) (hi : exec i s = loneV op c f s (effArith2 a c f))
    (hv : s.runsV op f = true) : Completes i s (RoundedWritten c f (fun j =>
      lane2 a (vFmt f.fmt) (vRnd f) f.ovf (laneDraw (s.ctx c) f j) (code (s.ctx c) f.vs j)
        (code (s.ctx c) f.vt j)) s) :=
  rounds_completes hr hi rfl (fun j hj => by simp [hj]) hv

end

/-- Settles O9: each instruction is a result lane by lane of the elements and the draw that its lanes read. -/
theorem vectorArithmeticRoundsEachLane : Obligations.VectorArithmeticRoundsEachLane := by
  unfold Obligations.VectorArithmeticRoundsEachLane
  rintro s c f hr x y z r rfl rfl rfl rfl
  refine ⟨effArith2_completes hr .add rfl, effArith2_completes hr .sub rfl, effArith2_completes hr .mul rfl, ?fma,
    effArith2_completes hr .div rfl, ?sqrt, effArith2_completes hr .min rfl, effArith2_completes hr .max rfl, ?cvt,
    ?cvtu⟩
  case fma | sqrt => exact rounds_completes hr rfl rfl fun j hj => by simp [hj]
  case cvt => exact rounds_completes hr rfl rfl fun j hj => by simp [hj, laneCvt]
  case cvtu => exact rounds_completes hr rfl rfl fun j hj => by simp [hj, show j / 32 < 64 by omega]

end Sys2Proof.Machine

/-! ### Vector maps: the instructions that raise no flag (04_benches.md R115, R586) -/

namespace Sys2Proof.Machine

open Sys2Proof

section

variable {s : State} {c : CtxId} {f : VForm} {op : Nat} {i : Instr}

theorem effMap1_completes (hr : Runs s c) {g : Nat → Nat} (hi : exec i s = loneV op c f s (effMap1 g c f))
    (hv : s.runsV op f = true) : Completes i s (VectorWritten c f.vd.toNat (masked (s.ctx c) f (fun j =>
      BitVec.ofNat 32 (g (code (s.ctx c) f.vs j)))) s) := by
  have heff : effMap1 g c f (s.ctx c) s = s.writeV c f.vd.toNat (maskedLanes (s.ctx c) f
      ((List.range 64).map fun j => g (code (s.ctx c) f.vs j))) := by
    simp [effMap1, codes_eq, Function.comp_def]
  have hlanes := lanesAre_maskedLanes (s.ctx c) f (fun j => g (code (s.ctx c) f.vs j))
  refine completes_of_loneV hr hv hi ?_
  rw [heff]
  obtain ⟨st, acc, since, h⟩ := ((CtxNow.refl c s).writeV f.vd.toNat (maskedLanes (s.ctx c) f
    ((List.range 64).map fun j => g (code (s.ctx c) f.vs j)))).refresh hr.st_run
  refine ⟨?_, by simp [h.ctx], by simp [h.ctx], ?_, h.outside, h.reqs⟩
  · simpa [h.ctx, LanesAre] using hlanes
  · rw [h.ctx]
    exact ((SameBesideVectors.refl _).setVreg _ _).shows _ _ _

/-- The lanes that mask k selects take `g`, and the generator draws where the rounding is stochastic; no flag is
raised. -/
def DrawnWritten (c : CtxId) (f : VForm) (g : Nat → Nat) (s t : State) : Prop :=
  LanesAre f.vd.toNat (masked (s.ctx c) f (fun j => BitVec.ofNat 32 (g j))) (s.ctx c) (t.ctx c)
    ∧ (t.ctx c).rng = (if f.rnd = 2 then srNext (s.ctx c).rng else (s.ctx c).rng)
    ∧ (t.ctx c).flags = (s.ctx c).flags
    ∧ SameBesideVectors (s.ctx c) (t.ctx c) ∧ SameOutsideCtx c s t ∧ ReqsDropped c (32 + f.vd.toNat) s t

theorem drawnWritten_refresh (hr : Runs s c) (g : Nat → Nat) : DrawnWritten c f g s
    (((s.writeV c f.vd.toNat (maskedLanes (s.ctx c) f ((List.range 64).map g))).draw c (isSr f)).refresh c) := by
  obtain ⟨st, acc, since, h⟩ := (((CtxNow.refl c s).writeV f.vd.toNat
    (maskedLanes (s.ctx c) f ((List.range 64).map g))).draw f).refresh hr.st_run
  have hlanes := lanesAre_maskedLanes (s.ctx c) f g
  refine ⟨?_, by simp [h.ctx], by simp [h.ctx], ?_, h.outside, h.reqs⟩
  · simpa [h.ctx, LanesAre] using hlanes
  · rw [h.ctx]
    exact (((SameBesideVectors.refl _).setVreg _ _).drawn f).shows _ _ _

theorem effApprox_completes (hr : Runs s c) (a : Approx) (hi : exec i s = loneV op c f s (effApprox a c f))
    (hv : s.runsV op f = true) : Completes i s (DrawnWritten c f (fun j =>
      laneApprox a (vFmt f.fmt) (vRnd f) f.ovf (laneDraw (s.ctx c) f j) (code (s.ctx c) f.vs j)) s) := by
  have hlist : (List.range 64).map (fun j => laneApprox a (vFmt f.fmt) (vRnd f) f.ovf
      (nth 0 (drawBits (isSr f) (s.ctx c)) j) (nth 0 (codes (s.ctx c) f.vs) j)) = (List.range 64).map _ :=
    List.map_congr_left fun j hj => by rw [nth_drawBits _ _ (List.mem_range.1 hj), nth_codes _ _ (List.mem_range.1 hj)]
  refine completes_of_loneV hr hv hi ?_
  rw [effApprox, hlist]
  exact drawnWritten_refresh hr _

end

/-! ### CVTB: two blocks of 32 lanes (03_number_formats.md R62, R81, R85) -/

/-- The value in lane `i` of the source. -/
def cvtbVal (x : Ctx) (f : VForm) (i : Nat) : Val := decodeVal (vFmt f.fmt) (code x f.vs i)

/-- The scale code of block `b`. -/
def cvtbScale (x : Ctx) (f : VForm) (b : Nat) : Nat :=
  blockScale (scaledFmt f.fmt2) f.ovf ((List.range 32).map (fun i => cvtbVal x f (32 * b + i)))

/-- The element of lane `i` under a scale code, and its flags. -/
def cvtbElement (x : Ctx) (f : VForm) (scale i : Nat) : Rounded :=
  toFmt (.float (scaledFmt f.fmt2)) (vRnd f) f.ovf true (laneDraw x f i) (unscale scale (cvtbVal x f i))

/-- Lane `i` of the conversion: its element under its block's scale code. -/
def cvtbLane (x : Ctx) (f : VForm) (i : Nat) : Rounded := cvtbElement x f (cvtbScale x f (i / 32)) i

/-- The flags of the conversion: those of its lanes, and invalid for a signalling NaN. -/
def cvtbFlags (x : Ctx) (f : VForm) : BitVec 5 :=
  (List.range 64).foldl (fun a i => a ||| (cvtbLane x f i).2)
    (flagIf (anySig ((List.range 64).map (cvtbVal x f))) fInvalid)

/-- The lanes of the register that takes the scale codes. -/
def cvtbScales (x : Ctx) (f : VForm) : List Lane :=
  BitVec.ofNat 32 (cvtbScale x f 0) :: BitVec.ofNat 32 (cvtbScale x f 1) :: List.replicate 62 0

/-- The state in which the registers of the conversion are written. -/
def State.cvtbWritten (s : State) (c : CtxId) (f : VForm) : State :=
  if f.vd = f.vt then s.takeFree.2.writeV c f.vd.toNat (freeLanes s.takeFree.1)
  else (s.writeV c f.vd.toNat ((List.range 64).map fun i => BitVec.ofNat 32 (cvtbLane (s.ctx c) f i).1)).writeV c
    f.vt.toNat (cvtbScales (s.ctx c) f)

theorem blockCvt_map_range (g : FloatFmt) (rnd : Rnd) (ovf : Bool) (r : Nat → Nat) (v : Nat → Val) (n : Nat)
    {h : Nat → Rounded} (hh : ∀ i < n,
      toFmt (.float g) rnd ovf true (r i) (unscale (blockScale g ovf ((List.range n).map v)) (v i)) = h i) :
    blockCvt g rnd ovf ((List.range n).map r) ((List.range n).map v) =
      ((List.range n).map (fun i => (h i).1), blockScale g ovf ((List.range n).map v),
        (List.range n).foldl (fun a i => a ||| (h i).2) 0) := by
  have hmap : (((List.range n).map v).zipIdx.map fun p =>
      toFmt (.float g) rnd ovf true (nth 0 ((List.range n).map r) p.2)
        (unscale (blockScale g ovf ((List.range n).map v)) p.1)) = (List.range n).map h := by
    rw [map_zipIdx_range]
    exact List.map_congr_left fun i hi => by rw [nth_map_range 0 r (List.mem_range.1 hi), hh i (List.mem_range.1 hi)]
  simp [blockCvt, hmap, List.foldl_map, Function.comp_def]

section

variable (x : Ctx) (f : VForm)

theorem take_map_range {α : Type} (g : Nat → α) : ((List.range 64).map g).take 32 = (List.range 32).map g := by
  rw [map_range_double g 32, List.take_left' (by simp)]

theorem drop_map_range {α : Type} (g : Nat → α) :
    ((List.range 64).map g).drop 32 = (List.range 32).map fun i => g (32 + i) := by
  rw [map_range_double g 32, List.drop_left' (by simp)]

theorem blockCvt_firstBlock : blockCvt (scaledFmt f.fmt2) (vRnd f) f.ovf ((List.range 32).map (laneDraw x f))
    ((List.range 32).map (cvtbVal x f)) = ((List.range 32).map (fun i => (cvtbLane x f i).1), cvtbScale x f 0,
      (List.range 32).foldl (fun a i => a ||| (cvtbLane x f i).2) 0) := by
  have hscale : blockScale (scaledFmt f.fmt2) f.ovf ((List.range 32).map (cvtbVal x f)) = cvtbScale x f 0 := by
    simp [cvtbScale]
  rw [blockCvt_map_range _ _ _ _ _ _ fun i hi => ?_, hscale]
  rw [hscale, cvtbLane, cvtbElement, show i / 32 = 0 by omega]

theorem blockCvt_secondBlock : blockCvt (scaledFmt f.fmt2) (vRnd f) f.ovf
    ((List.range 32).map fun i => laneDraw x f (32 + i)) ((List.range 32).map fun i => cvtbVal x f (32 + i)) =
      ((List.range 32).map (fun i => (cvtbLane x f (32 + i)).1), cvtbScale x f 1,
        (List.range 32).foldl (fun a i => a ||| (cvtbLane x f (32 + i)).2) 0) := by
  rw [blockCvt_map_range _ _ _ _ _ _ fun i hi => ?_]
  · rfl
  · rw [cvtbLane, cvtbElement, show (32 + i) / 32 = 1 by omega]
    rfl

theorem cvtbFlags_eq : cvtbFlags x f = (List.range 32).foldl (fun a i => a ||| (cvtbLane x f i).2) 0
    ||| (List.range 32).foldl (fun a i => a ||| (cvtbLane x f (32 + i)).2) 0
    ||| flagIf (anySig ((List.range 64).map (cvtbVal x f))) fInvalid := by
  rw [cvtbFlags, foldl_or_start, List.range_add (n := 32) (m := 32), List.foldl_append, List.foldl_map,
    foldl_or_start _ _ (List.foldl _ _ _), BitVec.or_comm (List.foldl _ _ _) (List.foldl _ _ _)]

end

section

variable {s : State} {c : CtxId} {f : VForm}

theorem effCvtb_eq : effCvtb c f (s.ctx c) s = ((s.cvtbWritten c f).draw c (isSr f)).modCtx c
    (fun y => y.raise f.strict (cvtbFlags (s.ctx c) f)) := by
  have hvals : (codes (s.ctx c) f.vs).map (decodeVal (vFmt f.fmt)) = (List.range 64).map (cvtbVal (s.ctx c) f) := by
    rw [codes_eq, List.map_map]
    rfl
  have helems : ((List.range 32).map (fun i => (cvtbLane (s.ctx c) f i).1)
      ++ (List.range 32).map (fun i => (cvtbLane (s.ctx c) f (32 + i)).1)).map (BitVec.ofNat 32)
      = (List.range 64).map fun i => BitVec.ofNat 32 (cvtbLane (s.ctx c) f i).1 := by
    rw [← map_range_double (fun i => (cvtbLane (s.ctx c) f i).1) 32, List.map_map]
    rfl
  simp only [effCvtb, hvals, drawBits_eq, take_map_range, drop_map_range, blockCvt_firstBlock, blockCvt_secondBlock,
    helems, ← cvtbFlags_eq, State.cvtbWritten, cvtbScales]

/-- What follows the writes of a conversion: the draw, the flags and the state that the context shows. -/
theorem CtxNow.cvtb_end {y : Ctx} {k : Stack} {s' : State} (h : CtxNow c y k s' (s.cvtbWritten c f))
    (hy : y.st = .run) : ∃ st acc since,
      CtxNow c (((y.drawn f).raise f.strict (cvtbFlags (s.ctx c) f)).shows st acc since) k s'
        ((effCvtb c f (s.ctx c) s).refresh c) := by
  rw [effCvtb_eq]
  exact ((h.draw f).raise _ _).refresh (by simpa using hy)

/-- The two registers of a conversion stand apart: each takes its lanes. -/
theorem effCvtb_apart (hr : Runs s c) (h : f.vd ≠ f.vt) : ∃ st acc since, CtxNow c
    (((((s.ctx c).setVreg f.vd.toNat ((List.range 64).map fun i => BitVec.ofNat 32 (cvtbLane (s.ctx c) f i).1)).setVreg
      f.vt.toNat (cvtbScales (s.ctx c) f)).drawn f).raise f.strict (cvtbFlags (s.ctx c) f) |>.shows st acc since)
    (((s.stack c.stack).dropDest c.bench c.ctx (32 + f.vd.toNat)).dropDest c.bench c.ctx (32 + f.vt.toNat)) s
    ((effCvtb c f (s.ctx c) s).refresh c) := by
  refine CtxNow.cvtb_end ?_ hr.st_run
  rw [State.cvtbWritten, if_neg h]
  exact ((CtxNow.refl c s).writeV _ _).writeV _ _

/-- They are one register: it takes a free value. -/
theorem effCvtb_same (hr : Runs s c) (h : f.vd = f.vt) : ∃ st acc since, CtxNow c
    ((((s.ctx c).setVreg f.vd.toNat (freeLanes s.takeFree.1)).drawn f).raise f.strict (cvtbFlags (s.ctx c) f)
      |>.shows st acc since)
    ((s.stack c.stack).dropDest c.bench c.ctx (32 + f.vd.toNat)) s.takeFree.2
    ((effCvtb c f (s.ctx c) s).refresh c) := by
  refine CtxNow.cvtb_end ?_ hr.st_run
  rw [State.cvtbWritten, if_pos h]
  exact (CtxNow.refl c s.takeFree.2).writeV _ _

theorem nth_cvtbScales (x : Ctx) (f : VForm) (i : Nat) :
    nth 0 (cvtbScales x f) i = if i < 2 then BitVec.ofNat 32 (cvtbScale x f i) else 0 := by
  match i with
  | 0 | 1 => rfl
  | i + 2 => rw [if_neg (by omega)]; exact nth_replicate 0

/-- What a conversion of two blocks does to its context, its stack's requests and all else. -/
def CvtbWritten (c : CtxId) (f : VForm) (s t : State) : Prop :=
  (t.ctx c).rng = (if f.rnd = 2 then srNext (s.ctx c).rng else (s.ctx c).rng)
    ∧ (t.ctx c).flags = (if f.strict then (s.ctx c).flags ||| cvtbFlags (s.ctx c) f else (s.ctx c).flags)
    ∧ SameBesideVectors (s.ctx c) (t.ctx c)
    ∧ (f.vd ≠ f.vt →
      (∀ r i, i < 64 → (t.ctx c).lane r i =
        if r = f.vd.toNat then BitVec.ofNat 32 (cvtbLane (s.ctx c) f i).1
        else if r = f.vt.toNat then (if i < 2 then BitVec.ofNat 32 (cvtbScale (s.ctx c) f i) else 0)
        else (s.ctx c).lane r i)
      ∧ SameOutsideCtx c s t
      ∧ (t.stack c.stack).reqs = (((s.stack c.stack).dropDest c.bench c.ctx (32 + f.vd.toNat)).dropDest
          c.bench c.ctx (32 + f.vt.toNat)).reqs)
    ∧ (f.vd = f.vt → LanesAre f.vd.toNat (nth 0 (freeLanes s.takeFree.1)) (s.ctx c) (t.ctx c)
      ∧ SameOutsideCtx c s.takeFree.2 t ∧ ReqsDropped c (32 + f.vd.toNat) s t)

theorem cvtbWritten_refresh (hr : Runs s c) : CvtbWritten c f s ((effCvtb c f (s.ctx c) s).refresh c) := by
  by_cases hd : f.vd = f.vt
  · obtain ⟨st, acc, since, h⟩ := effCvtb_same hr hd
    refine ⟨by simp [h.ctx], by simp [h.ctx], ?_, fun hne => absurd hd hne,
      fun _ => ⟨fun r i hi => ?_, h.outside, h.reqs⟩⟩
    · rw [h.ctx]
      exact ((((SameBesideVectors.refl _).setVreg _ _).drawn f).raise _ _).shows _ _ _
    · simp [h.ctx, Ctx.lane_setVreg, hi, freeLanes]
  · obtain ⟨st, acc, since, h⟩ := effCvtb_apart hr hd
    refine ⟨by simp [h.ctx], by simp [h.ctx], ?_, fun _ => ⟨fun r i hi => ?_, h.outside, h.reqs⟩,
      fun he => absurd he hd⟩
    · rw [h.ctx]
      exact (((((SameBesideVectors.refl _).setVreg _ _).setVreg _ _).drawn f).raise _ _).shows _ _ _
    · have hne : f.vd.toNat ≠ f.vt.toNat := fun he => hd (BitVec.eq_of_toNat_eq he)
      rw [h.ctx, Ctx.lane_shows, Ctx.lane_raise, Ctx.lane_drawn, Ctx.lane_setVreg _ _ (by simp [cvtbScales]) r hi,
        Ctx.lane_setVreg _ _ (by simp) r hi, nth_map_range 0 _ hi, nth_cvtbScales]
      by_cases hrd : r = f.vd.toNat
      · rw [if_pos hrd, if_neg (by omega), if_pos hrd]
      · rw [if_neg hrd, if_neg hrd]

end

/-- Settles O10: a map writes its lanes under the mask; CVTB writes its elements, scale codes and flags from what the
two blocks hold, or a free value where both go to one register. -/
theorem vectorMapsAndBlockConversion : Obligations.VectorMapsAndBlockConversion := by
  unfold Obligations.VectorMapsAndBlockConversion
  refine ⟨?maps, ?blocks⟩
  case maps =>
    rintro s c f hr x r rfl rfl
    refine ⟨effMap1_completes hr rfl, effMap1_completes hr rfl, fun a i hmem hv => ?_⟩
    have hi : exec i s = loneV a.code c f s (effApprox a c f) := by
      simp only [List.mem_cons, Prod.mk.injEq, List.not_mem_nil, or_false] at hmem
      rcases hmem with ⟨rfl, rfl⟩ | ⟨rfl, rfl⟩ | ⟨rfl, rfl⟩ | ⟨rfl, rfl⟩ | ⟨rfl, rfl⟩ | ⟨rfl, rfl⟩
      all_goals rfl
    exact effApprox_completes hr a hi hv
  case blocks =>
    rintro s c f hr hv v scale g fl rfl rfl rfl rfl
    exact completes_of_loneV hr hv rfl (cvtbWritten_refresh hr)

end Sys2Proof.Machine
